-- ==== Sys2Proof/Word.lean ====
section
/-! DEFINITION. The word types of the ZT31: bytes of the exchange area, the 16-bit and 32-bit fields of its layouts (00_scope.md, 5.3). Their plainest arithmetic is `BitVec`'s own. -/

namespace Sys2Proof

/-- One byte of the exchange area. -/
abbrev Byte := BitVec 8

/-- A 16-bit field (a tag, a curve version). -/
abbrev Half := BitVec 16

/-- A 32-bit field or register; its arithmetic wraps modulo 2^32. -/
abbrev Word := BitVec 32

end Sys2Proof
end

