-- ==== Sys2Proof/Syntax.lean ====
section
/-! DEFINITION. The commands of the ZT31: one constructor of `Instr` per row of spec/opcode_table.json, with the row's operands. The table gives no operand fields; each operand here is a value that the row's governing rule reads at that event. -/

namespace Sys2Proof

/-- The two battery bays (5.4). -/
inductive Bay where
  | A | B
  deriving DecidableEq, Repr

/-- What a hold acts on (Table 3-2). -/
inductive Target where
  | latchA | latchB | storage
  deriving DecidableEq, Repr

/-- One good power-sense sample (R171): P_sys, P_bl_meas, the voltage and current of each source, V_res. Currents are positive on discharge. -/
structure PowerReading where
  pSys : Nat
  pBl  : Nat
  vDc  : Nat
  iDc  : Int
  vA   : Nat
  iA   : Int
  vB   : Nat
  iB   : Int
  vRes : Nat
  deriving DecidableEq, Repr

/-- The data of a host memory write of 1, 2 or 4 bytes (R155). -/
inductive WriteData where
  | one (v : BitVec 8)
  | two (v : BitVec 16)
  | four (v : BitVec 32)
  deriving DecidableEq, Repr

/-- A host write to one register: bit `n` of `lanes` says that byte `n` is written (R169, writes of 1 or 2 bytes). An unaligned write
whose bytes lie in two registers (R155) is two commands, one for each register, the lower offset first: the model's choice (DESIGN
CHOICE, log entry 33). -/
structure RegWrite where
  lanes : BitVec 4
  value : BitVec 32
  deriving DecidableEq, Repr

/-- The offsets of the register window whose writes are ignored (R169): IDENT, and 0x14 plus `n`. -/
inductive IgnoredOffset where
  | ident
  | unused (n : Fin 12)
  deriving DecidableEq, Repr

/-- What every request slot carries beside its arguments (Table 10-7): the slot, the notify flag and the tag. -/
structure Posting where
  slot   : Fin 32
  notify : Bool
  tag    : BitVec 16
  deriving DecidableEq, Repr

/-- The commands. Rows whose event is a deadline or a period act only when uptime has reached it (log entry 2). -/
inductive Instr where
  /-- R175: the latch senses as read at power-on (Table 1-2), `true` is open. -/
  | powerOnReset (latchOpenA latchOpenB : Bool)
  | keepAliveFail
  | presenceClosed (b : Bay)
  | presenceOpened (b : Bay)
  /-- R19, R4: the debounced latch sense has changed to open or closed. -/
  | latchSenseChange (b : Bay) (isOpen : Bool)
  | buttonPress (b : Bay)
  /-- R5: the 17 bytes as one number, the first byte received in bits 7..0. -/
  | packLinkReply (b : Bay) (bytes : BitVec 136)
  | packLinkTimeout (b : Bay)
  | identificationRetry (b : Bay)
  | identificationDeadline (b : Bay)
  | pollDue (b : Bay)
  | releaseWaitLimit (b : Bay)
  | unlatchWait (b : Bay)
  | openWindow (b : Bay)
  | refusalBlinkEnd (b : Bay)
  | dcArrival
  | dcDeparture
  | packCollapse (b : Bay)
  | switchoverDeadline
  /-- R171: `none` is a bad sample. -/
  | powerSenseSample (reading : Option PowerReading)
  | powerSenseLost
  /-- R173: the conversion in dC; below −400 is open, above 1,500 is short. -/
  | thermistorReading (t : Int)
  | thermistorLost
  | ambientSample (lux : Nat)
  | ambientLost
  | accelSample (x y z : Int)
  | sampleWatch
  | liftDeadline
  | settleDeadline
  | holdExpiry (t : Target)
  /-- R60: the acknowledge line's new level. -/
  | storageAcknowledge (asserted : Bool)
  | ackDeadline
  | periodicTimer
  | frameStart
  | freeRunPoint
  | frameWatchDeadline
  | panelEnableFall
  | panelEnableRise
  | sweepTimer
  | energyPagePeriodic
  | motionPagePeriodic
  | timePagePeriodic
  | calendarStep
  | attentionRequests
  | attentionLog
  | attentionTrace
  | exchangeEnable (on : Bool)
  /-- R168: a CONTROL write with RESTART set, whatever its EXCHANGE_ENABLE bit. -/
  | exchangeRestart (enableBit : Bool)
  | hostLinkReset
  | summaryWrite (w : RegWrite)
  | summaryEnableWrite (w : RegWrite)
  | registerWriteIgnored (o : IgnoredOffset) (w : RegWrite)
  | hostMemoryWrite (offset : Nat) (data : WriteData)
  | releaseBay (p : Posting) (bay : Byte)
  | cancelRelease (p : Posting) (bay : Byte)
  | setEnergyPolicy (p : Posting) (preference chargeLimit : Byte) (tSwap : Half) (margin : Byte) (releaseLimit openWindow : Half) (pAdapter : Word)
  | setReservoir (p : Posting) (c vMin eShut pResLimit : Word)
  | loadCurve (p : Posting) (offset count : Byte)
  | setLightMode (p : Posting) (mode : Byte) (value : Half)
  | setPanel (p : Posting) (nMin nMax pBlMax dFloor sUp sDown kUp kDown : Half)
  | setMotion (p : Posting) (tFf nFf tImp bandLow bandHigh tSettle latchReserve storageReserve : Half) (protect trace : Byte)
  | placeHold (p : Posting) (target : Byte) (reserve duration : Half)
  | liftHold (p : Posting) (target : Byte)
  | setMonitor (p : Posting) (index kind mask edge enable alert group preloadFlag : Byte) (threshold preload : Word)
  | clearMonitors (p : Posting) (mask : Byte)
  | thawMonitors (p : Posting) (groups : Byte)
  | setTime (p : Posting) (seconds : Word)
  | unknownRequest (p : Posting) (kind : Byte)
  deriving DecidableEq, Repr

end Sys2Proof
end

