-- ==== Sys2Proof/Decode.lean ====
section
/-! DEFINITION. The command that a word spells: spec/opcode_table.json gives no row any bits, since a command reaches the ZT31 as an event (00_scope.md, 5.5) and not as a word; so no word spells one. -/

namespace Sys2Proof

/-- No row of the table has bits (log entry 7). -/
def decodeTableWord (_nbits _w : Nat) : Option Instr := none

end Sys2Proof
end

