-- ==== Sys2Proof/Machine/Bytes.lean ====
section
/-! DEFINITION. Byte order, signed fields and small arithmetic shared by every layout: all fields of the exchange area are little-endian (5.3). -/

namespace Sys2Proof.Machine

/-- The low `n` bytes of `v`, least significant first (5.3). -/
def leBytes : Nat → Nat → List Byte
  | 0, _ => []
  | n + 1, v => BitVec.ofNat 8 v :: leBytes n (v / 256)

/-- A signed field of `n` bytes, two's complement. -/
def leSigned (n : Nat) (v : Int) : List Byte := leBytes n (v % (256 ^ n : Nat)).toNat

/-- The number whose bytes, least significant first, are `bs`. -/
def ofLe : List Byte → Nat
  | [] => 0
  | b :: bs => b.toNat + 256 * ofLe bs

/-- The 16-bit number `n` read as signed. -/
def signed16 (n : Nat) : Int := if n < 32768 then (n : Int) else (n : Int) - 65536

/-- A flag as a byte. -/
def boolByte (b : Bool) : Byte := if b then 1 else 0

/-- Flags packed into a byte, the first at bit 0. -/
def packBits : List Bool → Nat
  | [] => 0
  | b :: bs => (if b then 1 else 0) + 2 * packBits bs

/-- Bytes that read 0. -/
def zeros (n : Nat) : List Byte := List.replicate n 0

/-- Byte `i` of a block, the first byte received in bits 7..0. -/
def blockByte {w : Nat} (block : BitVec w) (i : Nat) : Nat := (block.extractLsb' (8 * i) 8).toNat

/-- The little-endian field of `n` bytes at byte `i` of a block (R6). -/
def blockField {w : Nat} (block : BitVec w) (i n : Nat) : Nat := (block.extractLsb' (8 * i) (8 * n)).toNat

/-- `v` taken to the nearer end of `lo..hi` (R164). -/
def clampNat (lo hi v : Nat) : Nat := max lo (min hi v)

/-- A signed `v` taken to the nearer end of `lo..hi`. -/
def clampInt (lo hi v : Int) : Int := max lo (min hi v)

/-- The largest integer whose square does not exceed `n` among those made from `r` and the bits below `bit` (R110). -/
def sqrtBits (n : Nat) : Nat → Nat → Nat
  | 0, r => r
  | bit + 1, r => if (r + 2 ^ bit) * (r + 2 ^ bit) ≤ n then sqrtBits n bit (r + 2 ^ bit) else sqrtBits n bit r

/-- floor(√n) for every n below 2^32, and so for every m² (at most 768,000,000) (R110, R121). -/
def floorSqrt (n : Nat) : Nat := sqrtBits n 16 0

end Sys2Proof.Machine
end

