-- ==== Sys2Proof/Config.lean ====
section
/-! DEFINITION. What is fixed for every ZT31 (constants that a rule states) and the one point where the manual speaks against itself and the model therefore leaves the value free. -/

namespace Sys2Proof.Config

/-- Size of the exchange area in bytes (R155, Table 10-1). -/
abbrev areaSize : Nat := 16384

/-- Layout version of the area header and of IDENT (R156, R169). -/
abbrev layoutVersion : Nat := 1

/-- Part revision of IDENT (R169). -/
abbrev partRevision : Nat := 1

/-- Family code of IDENT (R169). -/
abbrev familyCode : Nat := 0x31A0

/-- DC input current limit I_lim, mA (R66). -/
abbrev dcCurrentLimit : Nat := 6500

/-- Reserve of FHU's ENERGY hold, mW (R46, R56). -/
abbrev energyReserve : Nat := 4000

/-- Positions of the hold table (R50). -/
abbrev holdPositions : Nat := 16

/-- Most SOFTWARE entries the hold table takes (R51). -/
abbrev softwareLimit : Nat := 12

/-- Entries of the incident log (R147). -/
abbrev logEntries : Nat := 64

/-- Entries of the trace area (R122). -/
abbrev traceEntries : Nat := 1016

/-- Entries of the pre-trigger ring, and the index of the first post-trigger entry (R121, R122). -/
abbrev ringEntries : Nat := 256

/-- FREE VALUE (log entry 3). The manual contradicts itself on SUMMARY after an exchange restart: step 5 of R170 and Table 10-5
leave RESTART alone, while step 6 makes a record, which raises INCIDENT (R149). `true`: the flags that step 6 raises survive. -/
opaque restartRecordFlagsSurvive : Bool

end Sys2Proof.Config
end

