-- ==== Sys2Proof/Machine/Records.lean ====
section
/-! DEFINITION. The records that the blocks of the ZT31 own (Table 1), as plain data: the enumerations, then BAY, FHU, HLD, BUD, BLC, MOT, TRC, CMU, LOG, TMB, XIF and SFE. -/

namespace Sys2Proof.Machine

/-! ## Enumerations -/

/-- Feed kinds (Table 2-1). -/
inductive FeedKind where
  | dc | bayA | bayB | reservoir
  deriving DecidableEq, Repr

/-- Reasons of FAULT (Table 1-2). -/
inductive FaultReason where
  | link | ident | thermal | pack | latch
  deriving DecidableEq, Repr

/-- The set of standing faults (Table 1-2). -/
structure FaultSet where
  link    : Bool
  thermal : Bool
  pack    : Bool
  deriving DecidableEq, Repr

/-! ## BAY -/

/-- Sub-states of RELEASE_WAIT (Table 1-1). TRANSFER carries cancel pending; UNLATCHING carries the end of its unlatch wait (Table 1-3). -/
inductive SubState where
  | held
  | transfer (cancelPending : Bool)
  | unlatching (waitUntil : Nat)
  deriving DecidableEq, Repr

/-- The former state of a bay in RELEASE_WAIT (Table 1-2). -/
inductive FormerState where
  | seated | standby | feeding
  | fault (r : FaultReason)
  deriving DecidableEq, Repr

/-- Who started a release (Table 1-2). -/
inductive Origin where
  | button
  | software (slot : Fin 32)
  deriving DecidableEq, Repr

/-- The fields of Table 1-2 that are present in RELEASE_WAIT. `slotOpen` is the model's own: the slot of a software
origin is still to be completed (an exchange restart completes it ABORTED while the release may run on, R20). -/
structure Release where
  sub       : SubState
  former    : FormerState
  standing  : FaultSet
  origin    : Origin
  slotOpen  : Bool
  requestAt : Nat
  limitAt   : Nat
  takeover  : Option FeedKind
  deriving DecidableEq, Repr

/-- Bay states (Table 1-1) with the fields of Table 1-2 that are present in each: the deadline in SEATED and OPEN,
the standing faults in FEEDING, the release fields in RELEASE_WAIT, the reason in FAULT. -/
inductive BayState where
  | empty
  | seated (deadline : Nat)
  | standby
  | feeding (standing : FaultSet)
  | releaseWait (r : Release)
  | opened (deadline : Nat)
  | fault (r : FaultReason)
  deriving DecidableEq, Repr

/-- Identity record: the contents of blocks 0 and 1 (Table 1-5). -/
structure Identity where
  serial         : BitVec 64
  chemistry      : Byte
  cells          : Nat
  designCapacity : Nat
  packMax        : Nat
  maxCharge      : Nat
  chargeVoltage  : Nat
  week           : Nat
  deriving DecidableEq, Repr

/-- Pack state record: the contents of blocks 2 and 3 and the uptime of the last successful poll (Tables 1-2, 1-5). -/
structure PackState where
  voltage     : Nat
  current     : Int
  temperature : Int
  soc         : Nat
  remaining   : Nat
  cycles      : Nat
  faultFlags  : Byte
  polledAt    : Option Nat
  deriving DecidableEq, Repr

/-- The bay record (Table 1-2). The charging flag is derived from the charger assignment (R24). `presence`: closed; `latchOpen`: the debounced latch sense. -/
structure BayRec where
  state       : BayState
  identity    : Option Identity
  packState   : Option PackState
  failedPolls : Nat
  blinkEnd    : Option Nat
  presence    : Bool
  latchOpen   : Bool
  deriving DecidableEq, Repr

/-- What a pack link is doing (R5, R7, R9). `again`: the transaction is the repeat of a bad one. -/
inductive LinkActivity where
  | idle
  | identRead (block : Nat) (again : Bool) (startedAt : Nat)
  | identWait (block : Nat) (retryAt : Nat)
  | pollRead (block : Nat) (again : Bool) (startedAt : Nat)
  deriving DecidableEq, Repr

/-- One pack link: its activity, the blocks read so far by the identification or poll in progress, and the uptime of the next poll (R9). -/
structure Link where
  activity : LinkActivity
  block0   : BitVec 128
  block1   : BitVec 128
  block2   : BitVec 128
  pollAt   : Option Nat
  deriving DecidableEq, Repr

/-- BAY's own policy fields (R23, Table 1-3): charge limit in %, release-wait limit and OPEN window in seconds. -/
structure BayPolicy where
  chargeLimit  : Nat
  releaseLimit : Nat
  openWindow   : Nat
  deriving DecidableEq, Repr

/-! ## FHU -/

/-- A holdover in progress (Table 2-2: holdover, holdover start, exhausted). -/
structure Holdover where
  planned   : Bool
  start     : Nat
  exhausted : Bool
  deriving DecidableEq, Repr

/-- Purposes of a switchover (R35). -/
inductive Purpose where
  | takeover | faultMove | changeover
  deriving DecidableEq, Repr

/-- A switchover in flight (Table 2-2). -/
structure Switchover where
  target   : FeedKind
  purpose  : Purpose
  deadline : Nat
  deriving DecidableEq, Repr

/-- A set of reasons of a pending move (Table 2-2). -/
structure MoveSet where
  faulted   : Bool
  lowCharge : Bool
  deriving DecidableEq, Repr

/-- Shutdown causes (R48). -/
structure ShutdownCauses where
  faulted   : Bool
  lowCharge : Bool
  exhausted : Bool
  deriving DecidableEq, Repr

/-- Last plan result (R43). -/
inductive PlanResult where
  | none | pass | failPower | failEnergy
  deriving DecidableEq, Repr

/-- Feed preference (R29). -/
inductive Preference where
  | bayAFirst | bayBFirst | higherCharge
  deriving DecidableEq, Repr

/-- The feed record (Table 2-2). Holdover NONE is `none`. -/
structure FeedRec where
  kind       : FeedKind
  dcPresent  : Bool
  holdover   : Option Holdover
  lean       : Bool
  eAvail     : Nat
  remaining  : Nat
  switchover : Option Switchover
  pending    : MoveSet
  causes     : ShutdownCauses
  lastPlan   : PlanResult
  failures   : Nat
  preference : Preference
  tSwap      : Nat
  margin     : Nat
  pAdapter   : Nat
  resC       : Nat
  vMin       : Nat
  eShut      : Nat
  pResLimit  : Nat
  deriving DecidableEq, Repr

/-- The power-path switches as commanded (R35, Table 11-2), `true` is closed. -/
structure Switches where
  dc : Bool
  a  : Bool
  b  : Bool
  deriving DecidableEq, Repr

/-- A HOLDOVER_END record of exhaustion that waits for the quiesce outcome (R46). -/
structure DeferredEnd where
  duration : Nat
  planned  : Bool
  deriving DecidableEq, Repr

/-- FHU's state outside the feed record: the switch commands; the moves that became due while a switchover is in flight
(R35); the deferred HOLDOVER_END record (R46); the uptime at which the 5 ms collapse measurement began (R28); E_shut as the last
recomputation of E_avail took it, which the plan tests read until the next one (R49). -/
structure FhuState where
  switches     : Switches
  dueInFlight  : MoveSet
  deferredEnd  : Option DeferredEnd
  collapseFrom : Nat
  eShutInForce : Nat
  deriving DecidableEq, Repr

/-! ## HLD -/

/-- Holders (Table 3-1). -/
inductive Holder where
  | motion | energy | software
  deriving DecidableEq, Repr

/-- A hold entry (Table 3-2). -/
structure HoldEntry where
  holder   : Holder
  target   : Target
  reserve  : Nat
  placedAt : Nat
  expiry   : Option Nat
  deriving DecidableEq, Repr

/-- Acknowledgement outcomes (R60). -/
inductive AckOutcome where
  | none | pending | acked | notAcked
  deriving DecidableEq, Repr

/-- HLD: the positions, lowest first; the acknowledgement wait, `some` its deadline while WAITING; the outcome; the acknowledge line's level (R50, R60). -/
structure HoldTable where
  entries : List (Option HoldEntry)
  wait    : Option Nat
  outcome : AckOutcome
  ackLine : Bool
  deriving DecidableEq, Repr

/-! ## BUD -/

/-- Pass causes (Table 4-2). -/
structure PassCauses where
  periodic  : Bool
  feed      : Bool
  hold      : Bool
  light     : Bool
  emergency : Bool
  deriving DecidableEq, Repr

/-- Input conditions of a pass (R65, R67). -/
structure InputConditions where
  powerLost : Bool
  thermLost : Bool
  linkLost  : Bool
  deriving DecidableEq, Repr

/-- The cause of the capped flag (R72). -/
inductive CappedCause where
  | budget | thermal
  deriving DecidableEq, Repr

/-- The budget record (Table 4-2). -/
structure BudgetRec where
  passCount  : Word
  passUptime : Nat
  causes     : PassCauses
  feedUsed   : FeedKind
  factors    : Option (Nat × Nat)
  conditions : InputConditions
  pFeed      : Nat
  usable     : Nat
  pPlat      : Nat
  rProt      : Nat
  aRaw       : Int
  aBl        : Nat
  dAllow     : Nat
  dTherm     : Nat
  dTarget    : Nat
  ceiling    : Nat
  dCmd       : Nat
  pChg       : Nat
  deficit    : Bool
  capped     : Option CappedCause
  deriving DecidableEq, Repr

/-! ## BLC -/

/-- Ambient state (Table 5-2). -/
inductive AmbientState where
  | none | valid | stale
  deriving DecidableEq, Repr

/-- A curve point (R82). -/
structure CurvePoint where
  lux  : Nat
  nits : Nat
  deriving DecidableEq, Repr

/-- A pending curve with the slot of its LOAD_CURVE (Table 5-2); `clamped`: the result is to carry CLAMPED (R84). -/
structure PendingCurve where
  points  : List CurvePoint
  slot    : Fin 32
  clamped : Bool
  deriving DecidableEq, Repr

/-- Light mode (Table 5-2). -/
inductive LightMode where
  | auto | manual
  deriving DecidableEq, Repr

/-- Panel configuration (Table 5-3). -/
structure PanelConfig where
  nMin   : Nat
  nMax   : Nat
  pBlMax : Nat
  dFloor : Nat
  sUp    : Nat
  sDown  : Nat
  kUp    : Nat
  kDown  : Nat
  deriving DecidableEq, Repr

/-- Application mode (Table 5-2): the frame watch deadline is present in FRAME, the next free-run point in FREE_RUN. -/
inductive AppMode where
  | frame (deadline : Nat)
  | freeRun (nextPoint : Nat)
  deriving DecidableEq, Repr

/-- The light record (Table 5-2). -/
structure LightRec where
  ambient      : AmbientState
  lastL        : Nat
  lastSampleAt : Option Nat
  filtered     : Nat
  curve        : List CurvePoint
  curveVersion : Half
  pendingCurve : Option PendingCurve
  mode         : LightMode
  bias         : Int
  manualLevel  : Nat
  panel        : PanelConfig
  nc           : Nat
  nb           : Nat
  dTarget      : Nat
  pendingDuty  : Nat
  ceiling      : Nat
  liveDuty     : Nat
  appMode      : AppMode
  panelEnable  : Bool
  deriving DecidableEq, Repr

/-! ## MOT -/

/-- Sensor health (Table 6-2, R171, R173). -/
inductive Health where
  | none | valid | lost
  deriving DecidableEq, Repr

/-- Three axes, mg. -/
structure Axes where
  x : Int
  y : Int
  z : Int
  deriving DecidableEq, Repr

/-- Orientation and impact axis (Table 6-2). -/
inductive Orientation where
  | unknown | plusX | minusX | plusY | minusY | plusZ | minusZ
  deriving DecidableEq, Repr

/-- The last sample (Table 6-2). -/
structure LastSample where
  axes      : Axes
  saturated : Bool
  m2        : Nat
  deriving DecidableEq, Repr

/-- The set of targets a fall's holds were placed on (Table 6-3). -/
structure HoldsPlaced where
  latchA  : Bool
  latchB  : Bool
  storage : Bool
  deriving DecidableEq, Repr

/-- Trace status of a fall (R115). -/
inductive TraceStatus where
  | captured | shared | traceBusy | off
  deriving DecidableEq, Repr

/-- The fall episode (Table 6-3). -/
structure Episode where
  fallStart    : Word
  feedAtStart  : FeedKind
  orientBefore : Orientation
  holdsPlaced  : HoldsPlaced
  traceStatus  : TraceStatus
  traceSerial  : Option Word
  fallMs       : Nat
  height       : Nat
  deriving DecidableEq, Repr

/-- The impact window (Table 6-2). -/
structure ImpactWindow where
  firstIndex : Word
  counted    : Nat
  maxM2      : Nat
  maxAxes    : Axes
  saturated  : Bool
  deriving DecidableEq, Repr

/-- The state a SHOCK window returns to (Table 6-2). -/
inductive ReturnState where
  | normal | settle
  deriving DecidableEq, Repr

/-- Motion states (Table 6-1) with the fields that are present in each: the fall episode in FALLING and in IMPACT with
cause DROP, the return state in IMPACT with cause SHOCK, the window in IMPACT, the settle deadline in SETTLE. -/
inductive MotionState where
  | normal
  | falling (e : Episode)
  | impactDrop (e : Episode) (w : ImpactWindow)
  | impactShock (ret : ReturnState) (w : ImpactWindow)
  | settle (deadline : Nat)
  | sensorLost
  deriving DecidableEq, Repr

/-- The free-fall run with its candidate fall start index and orientation, which mean something while the count is not 0 (Table 6-2). -/
structure FreeFallRun where
  count  : Nat
  start  : Word
  orient : Orientation
  deriving DecidableEq, Repr

/-- The caught run with the index of its first sample, which means something while the count is not 0 (Table 6-2). -/
structure CaughtRun where
  count : Nat
  first : Word
  deriving DecidableEq, Repr

/-- Last impact (Table 6-2). -/
structure LastImpact where
  peak      : Nat
  saturated : Bool
  axis      : Orientation
  deriving DecidableEq, Repr

/-- Motion configuration (Table 6-4). -/
structure MotionConfig where
  tFf            : Nat
  nFf            : Nat
  tImp           : Nat
  bandLow        : Nat
  bandHigh       : Nat
  tSettle        : Nat
  latchReserve   : Nat
  storageReserve : Nat
  protect        : Bool
  trace          : Bool
  deriving DecidableEq, Repr

/-- A ring or trace entry (R121). -/
structure RingEntry where
  axes : Axes
  peak : Nat
  deriving DecidableEq, Repr

/-- The motion record (Table 6-2) and the pre-trigger ring (R121). `window` and `ring` hold the newest first; `group` is
the largest m² of the group being accumulated, absent while no group accumulates. -/
structure MotionRec where
  state         : MotionState
  health        : Health
  index         : Word
  lastSample    : Option LastSample
  orientation   : Orientation
  averages      : Axes
  window        : List Axes
  freeFall      : FreeFallRun
  caught        : CaughtRun
  settleRun     : Nat
  lastImpact    : LastImpact
  lastFallMs    : Nat
  lastHeight    : Nat
  liftDeadline  : Option Nat
  watchDeadline : Nat
  config        : MotionConfig
  ring          : List RingEntry
  group         : Option Nat
  deriving DecidableEq, Repr

/-- A DROP record as it fell due (R111, R116): everything but the quiesce outcome and the bay states, which are taken at its writing. -/
structure DropData where
  fallMs       : Nat
  height       : Nat
  peak         : Nat
  saturated    : Bool
  axis         : Orientation
  orientBefore : Orientation
  traceStatus  : TraceStatus
  traceSerial  : Option Word
  holdsPlaced  : HoldsPlaced
  feedAtStart  : FeedKind
  deriving DecidableEq, Repr

/-! ## TRC -/

/-- Trace states (Table 7-1). -/
inductive TraceState where
  | free | filling | ready
  deriving DecidableEq, Repr

/-- End causes of a capture (Table 7-2). -/
inductive EndCause where
  | none | complete | sensorLost
  deriving DecidableEq, Repr

/-- The trace record (Table 7-2); its trigger entry is the constant 256. -/
structure TraceRec where
  state       : TraceState
  serial      : Word
  written     : Nat
  base        : Word
  fallStart   : Word
  startUptime : Nat
  sharedFalls : Nat
  endCause    : EndCause
  linked      : Word
  deriving DecidableEq, Repr

/-! ## CMU -/

/-- Event kinds (Table 8-2). -/
inductive EventKind where
  | fall | drop | shock | swap | releaseRefused | feedLost | holdoverExhausted
  | passDeficit | passCapped | passAmbient | panelHot | packHot | incident | logMissed
  deriving DecidableEq, Repr

/-- One occurrence (8.2): a kind, its qualifier bits, and its value for a kind that has one. -/
structure Occurrence where
  kind  : EventKind
  bits  : Byte
  value : Option Nat
  deriving DecidableEq, Repr

/-- Freeze groups (Table 8-1). -/
inductive FreezeGroup where
  | none | g1 | g2
  deriving DecidableEq, Repr

/-- The seven configuration fields of a monitor (Table 8-1, note 1). -/
structure MonitorConfig where
  kind      : EventKind
  mask      : Byte
  threshold : Nat
  edge      : Bool
  enable    : Bool
  alert     : Bool
  group     : FreezeGroup
  deriving DecidableEq, Repr

/-- A pending configuration with its optional preload (Table 8-1). -/
structure PendingConfig where
  config  : MonitorConfig
  preload : Option Word
  deriving DecidableEq, Repr

/-- A monitor record (Table 8-1). The counting flag is the adopted enable (note 2). -/
structure Monitor where
  config     : MonitorConfig
  count      : Word
  wrapped    : Bool
  frozen     : Bool
  edgeMemory : Bool
  pending    : Option PendingConfig
  deriving DecidableEq, Repr

/-! ## LOG, TMB, XIF -/

/-- The part's fields of the log control block and LOG's own state (Table 9-2). Free space is derived (note 2). -/
structure LogRec where
  writeIndex : Word
  missed     : Word
  effRead    : Word
  deriving DecidableEq, Repr

/-- The timebase record (Table 9-1). -/
structure Timebase where
  uptime     : Nat
  calendar   : Word
  timeValid  : Bool
  nextSecond : Option Nat
  lastSet    : Option Nat
  deriving DecidableEq, Repr

/-- The eight SUMMARY flags (R165). -/
inductive SummaryFlag where
  | reqDone | incident | logFull | lean | fall | traceReady | monitorAlert | restart
  deriving DecidableEq, Repr

/-- An entry of the in-flight list (R159): the slot, and the kind, notify flag and tag as taken. -/
structure InFlight where
  slot   : Fin 32
  kind   : Byte
  notify : Bool
  tag    : Half
  deriving DecidableEq, Repr

/-- The page generations (R157). -/
structure Generations where
  energy  : Word
  light   : Word
  motion  : Word
  monitor : Word
  mirror  : Word
  time    : Word
  deriving DecidableEq, Repr

/-- The uptimes at which the periodic occasions next fall due: budget timer (R63), sweep timer (R160), the energy, motion and time
pages (R158), the power-sense conversion (R171) and the thermistor reading (R173). -/
structure Timers where
  pass       : Nat
  sweep      : Nat
  energyPage : Nat
  motionPage : Nat
  timePage   : Nat
  powerSense : Nat
  thermistor : Nat
  deriving DecidableEq, Repr

/-! ## SFE -/

/-- The latest readings of SFE and the health of the power sense and the thermistor (R171, R173). `powerGoodAt` and
`thermGoodAt` are the uptimes of the last good reading, 0 (power-on reset) before the first. -/
structure SfeRec where
  power       : PowerReading
  powerHealth : Health
  powerGoodAt : Nat
  panelTemp   : Int
  thermHealth : Health
  thermGoodAt : Nat
  deriving DecidableEq, Repr

/-! ## Output signals -/

/-- Indicator patterns (Table 1-8). -/
inductive Indicator where
  | off | greenSteady | greenBlinking | amber | redSteady | redBlinking
  deriving DecidableEq, Repr

/-- The charger's command (R24): the bay, the power limit and the voltage limit. -/
structure ChargerCommand where
  bay     : Bay
  power   : Nat
  voltage : Nat
  deriving DecidableEq, Repr

/-- The output signals of Table 11-2. The backlight is `none` when commanded off, else enabled at a duty. -/
structure Pins where
  interrupt       : Bool
  shutdownRequest : Bool
  quiesce         : Bool
  latchLockA      : Bool
  latchLockB      : Bool
  indicatorA      : Indicator
  indicatorB      : Indicator
  switches        : Switches
  charger         : Option ChargerCommand
  backlight       : Option Nat
  deriving DecidableEq, Repr

/-! ## The three layers of the machine's state

`Front` is what faces the host: exchange area, registers, log, monitors, timebase, trace. `Power` adds the bays, the feed and
the hold table, which act on one another. `State` (Machine/State.lean) adds the rest. An operation of a lower layer leaves
the layers above it as they are by its type. -/

/-- XIF, LOG, CMU, TMB and TRC with the exchange area. `mem` is in the canonical form of Machine/Memory.lean. -/
structure Front where
  mem            : List Host.Cell
  summary        : Word
  summaryEnable  : Word
  exchangeEnable : Bool
  lastSlot       : Fin 32
  inFlight       : List InFlight
  restartCount   : Word
  gens           : Generations
  log            : LogRec
  monitors       : List Monitor
  tmb            : Timebase
  trc            : TraceRec
  deriving DecidableEq, Repr

/-- BAY, FHU and HLD over the host's side. `drops` are MOT's deferred DROP records (Table 6-2), which a wait's end writes;
`due` is the model's own: the pass causes raised so far by the event in progress, empty between events (R64). -/
structure Power extends Front where
  bayA       : BayRec
  bayB       : BayRec
  linkA      : Link
  linkB      : Link
  bayPolicy  : BayPolicy
  assignment : Option Bay
  feed       : FeedRec
  fhu        : FhuState
  hld        : HoldTable
  drops      : List DropData
  due        : PassCauses
  deriving DecidableEq, Repr

/-- Every block's record: what the pages publish. -/
structure Blocks extends Power where
  powered : Bool
  sfe     : SfeRec
  bud     : BudgetRec
  blc     : LightRec
  mot     : MotionRec
  timers  : Timers
  deriving DecidableEq, Repr

end Sys2Proof.Machine
end

