-- ==== Sys2Proof/Machine/Codes.lean ====
section
/-! DEFINITION. The numeric codes of Table 10-17 and of the layouts of 10.8. -/

namespace Sys2Proof.Machine

/-- Bay codes. -/
def bayCode : Bay → Byte
  | .A => 0
  | .B => 1

/-- The bay a code names (R14, R164). -/
def bayOfCode (c : Byte) : Option Bay := if c = 0 then some .A else if c = 1 then some .B else none

/-- Target codes. -/
def targetCode : Target → Byte
  | .latchA => 0
  | .latchB => 1
  | .storage => 2

/-- The target a code names (R52, R164). -/
def targetOfCode (c : Byte) : Option Target :=
  if c = 0 then some .latchA else if c = 1 then some .latchB else if c = 2 then some .storage else none

/-- Feed kind codes. -/
def feedCode : FeedKind → Byte
  | .dc => 0
  | .bayA => 1
  | .bayB => 2
  | .reservoir => 3

/-- A takeover source, 0xFF for none (Tables 10-8, 10-10). -/
def takeoverCode : Option FeedKind → Byte
  | none => 0xFF
  | some f => feedCode f

/-- Fault reason codes. -/
def reasonCode : FaultReason → Byte
  | .link => 1
  | .ident => 2
  | .thermal => 3
  | .pack => 4
  | .latch => 5

/-- Bay state codes. -/
def bayStateCode : BayState → Byte
  | .empty => 0
  | .seated _ => 1
  | .standby => 2
  | .feeding _ => 3
  | .releaseWait _ => 4
  | .opened _ => 5
  | .fault _ => 6

/-- Sub-state codes, 0 outside RELEASE_WAIT. -/
def subStateCode : BayState → Byte
  | .releaseWait r =>
    match r.sub with
    | .held => 1
    | .transfer _ => 2
    | .unlatching _ => 3
  | _ => 0

/-- The code of the reason of a FAULT, 0 outside FAULT. -/
def stateReasonCode : BayState → Byte
  | .fault r => reasonCode r
  | _ => 0

/-- A former state as a bay state code. -/
def formerCode : FormerState → Byte
  | .seated => 1
  | .standby => 2
  | .feeding => 3
  | .fault _ => 6

/-- A former state's fault reason. -/
def formerReasonCode : FormerState → Byte
  | .fault r => reasonCode r
  | _ => 0

/-- A bay's state byte and its sub-state or fault reason byte, as DROP records carry them (Table 10-15). -/
def bayPair (s : BayState) : List Byte :=
  [bayStateCode s, match s with | .fault r => reasonCode r | st => subStateCode st]

/-- Standing fault bits (Table 10-10). -/
def faultSetBits (f : FaultSet) : Byte := BitVec.ofNat 8 (packBits [f.link, f.thermal, f.pack])

/-- Release origin codes. -/
def originCode : Origin → Byte
  | .button => 1
  | .software _ => 2

/-- The slot index of a software origin. A button's release has none: for it the byte is written 0, in the record bodies of SWAP and RELEASE_REFUSED and in the energy page's bay block. The spec gives the byte no value there (Tables 9-4 and 10-15), so 0 is the model's choice (DESIGN CHOICE, unsafe, log entry 39 for the records, log entry 15 for the page). -/
def originSlot : Origin → Byte
  | .button => 0
  | .software s => BitVec.ofNat 8 s.val

/-- Holdover codes. -/
def holdoverCode : Option Holdover → Byte
  | none => 0
  | some h => if h.planned then 1 else 2

/-- Switchover purpose codes (Table 10-9). -/
def purposeCode : Purpose → Byte
  | .takeover => 0
  | .faultMove => 1
  | .changeover => 2

/-- Last plan result codes. -/
def planCode : PlanResult → Byte
  | .none => 0
  | .pass => 1
  | .failPower => 2
  | .failEnergy => 3

/-- Feed preference codes. -/
def preferenceCode : Preference → Byte
  | .bayAFirst => 0
  | .bayBFirst => 1
  | .higherCharge => 2

/-- The preference of a clamped code (R49). -/
def preferenceOfCode (c : Nat) : Preference :=
  if c = 0 then .bayAFirst else if c = 1 then .bayBFirst else .higherCharge

/-- Pending move bits (Table 10-9). -/
def moveBits (m : MoveSet) : Byte := BitVec.ofNat 8 (packBits [m.faulted, m.lowCharge])

/-- Shutdown cause bits. -/
def shutdownBits (c : ShutdownCauses) : Byte := BitVec.ofNat 8 (packBits [c.faulted, c.lowCharge, c.exhausted])

/-- Holder codes. -/
def holderCode : Holder → Byte
  | .motion => 0
  | .energy => 1
  | .software => 2

/-- Acknowledgement outcome codes. -/
def outcomeCode : AckOutcome → Byte
  | .none => 0
  | .pending => 1
  | .acked => 2
  | .notAcked => 3

/-- Pass cause bits. -/
def causeBits (c : PassCauses) : Byte := BitVec.ofNat 8 (packBits [c.periodic, c.feed, c.hold, c.light, c.emergency])

/-- Input condition bits. -/
def conditionBits (c : InputConditions) : Byte := BitVec.ofNat 8 (packBits [c.powerLost, c.thermLost, c.linkLost])

/-- Ambient state codes. -/
def ambientCode : AmbientState → Byte
  | .none => 0
  | .valid => 1
  | .stale => 2

/-- Application mode codes. -/
def appModeCode : AppMode → Byte
  | .frame _ => 0
  | .freeRun _ => 1

/-- Light mode codes. -/
def lightModeCode : LightMode → Byte
  | .auto => 0
  | .manual => 1

/-- Motion state codes. -/
def motionCode : MotionState → Byte
  | .normal => 0
  | .falling _ => 1
  | .impactDrop _ _ => 2
  | .impactShock _ _ => 2
  | .settle _ => 3
  | .sensorLost => 4

/-- Return state codes, motion state codes of NORMAL and SETTLE. -/
def returnCode : ReturnState → Byte
  | .normal => 0
  | .settle => 3

/-- Impact cause, 0xFF outside IMPACT (Table 10-12). -/
def impactCauseCode : MotionState → Byte
  | .impactDrop _ _ => 0
  | .impactShock _ _ => 1
  | _ => 0xFF

/-- Return state, 0xFF when absent (Table 10-12). -/
def returnStateCode : MotionState → Byte
  | .impactShock r _ => returnCode r
  | _ => 0xFF

/-- Sensor health codes. -/
def healthCode : Health → Byte
  | .none => 0
  | .valid => 1
  | .lost => 2

/-- Orientation and axis codes. -/
def orientationCode : Orientation → Byte
  | .unknown => 0
  | .plusX => 1
  | .minusX => 2
  | .plusY => 3
  | .minusY => 4
  | .plusZ => 5
  | .minusZ => 6

/-- Trace status codes. -/
def traceStatusCode : TraceStatus → Byte
  | .captured => 1
  | .shared => 2
  | .traceBusy => 3
  | .off => 4

/-- Holds placed bits (Table 10-15). -/
def holdsPlacedBits (h : HoldsPlaced) : Byte := BitVec.ofNat 8 (packBits [h.latchA, h.latchB, h.storage])

/-- Trace state codes (Table 10-16). -/
def traceStateCode : TraceState → Byte
  | .free => 0
  | .filling => 1
  | .ready => 2

/-- Trace end cause codes (Table 10-16). -/
def endCauseCode : EndCause → Byte
  | .none => 0
  | .complete => 1
  | .sensorLost => 2

/-- Monitor event kind codes. -/
def eventCode : EventKind → Byte
  | .fall => 0
  | .drop => 1
  | .shock => 2
  | .swap => 3
  | .releaseRefused => 4
  | .feedLost => 5
  | .holdoverExhausted => 6
  | .passDeficit => 7
  | .passCapped => 8
  | .passAmbient => 9
  | .panelHot => 10
  | .packHot => 11
  | .incident => 12
  | .logMissed => 13

/-- The event kind of a clamped code (R138). -/
def eventOfCode : Nat → EventKind
  | 0 => .fall
  | 1 => .drop
  | 2 => .shock
  | 3 => .swap
  | 4 => .releaseRefused
  | 5 => .feedLost
  | 6 => .holdoverExhausted
  | 7 => .passDeficit
  | 8 => .passCapped
  | 9 => .passAmbient
  | 10 => .panelHot
  | 11 => .packHot
  | 12 => .incident
  | _ => .logMissed

/-- Freeze group codes. -/
def groupCode : FreezeGroup → Nat
  | .none => 0
  | .g1 => 1
  | .g2 => 2

/-- The freeze group of a clamped code (R138). -/
def groupOfCode (c : Nat) : FreezeGroup := if c = 0 then .none else if c = 1 then .g1 else .g2

/-- Indicator codes (Table 10-10). -/
def indicatorCode : Indicator → Byte
  | .off => 0
  | .greenSteady => 1
  | .greenBlinking => 2
  | .amber => 3
  | .redSteady => 4
  | .redBlinking => 5

/-- Charger assignment on the energy page: 0 none, 1 A, 2 B (Table 10-9). -/
def assignmentCode : Option Bay → Byte
  | none => 0
  | some .A => 1
  | some .B => 2

/-- Result codes (Table 10-4). -/
inductive ResultCode where
  | ok | unknownRequest | badArgument | busy | nothingToRelease | noTakeover | holdTimeout
  | latchStuck | cancelled | superseded | tableFull | noSuchHold | aborted
  deriving DecidableEq, Repr

/-- The numbers of Table 10-4. -/
def resultCode : ResultCode → Nat
  | .ok => 0
  | .unknownRequest => 1
  | .badArgument => 2
  | .busy => 3
  | .nothingToRelease => 4
  | .noTakeover => 5
  | .holdTimeout => 6
  | .latchStuck => 7
  | .cancelled => 8
  | .superseded => 9
  | .tableFull => 10
  | .noSuchHold => 11
  | .aborted => 12

end Sys2Proof.Machine
end

