-- ==== Sys2Proof/Machine/Flags.lean ====
section
/-! DEFINITION. Every flag computation: the SUMMARY bits and the interrupt line, byte lanes of the registers, the result flags, and the deficit and capped flags of a budget pass. -/

namespace Sys2Proof.Machine

/-- The bit of a SUMMARY flag (Table 10-14). -/
def flagBit : SummaryFlag → Word
  | .reqDone => 0x01
  | .incident => 0x02
  | .logFull => 0x04
  | .lean => 0x08
  | .fall => 0x10
  | .traceReady => 0x20
  | .monitorAlert => 0x40
  | .restart => 0x80

/-- The bits of SUMMARY and SUMMARY_ENABLE that Table 10-14 names; the others read 0 and ignore writes (R169). -/
def summaryMask : Word := 0xFF

/-- The interrupt line: an enabled flag is set (R166). -/
def interruptLine (summary enable : Word) : Bool := decide (summary &&& enable ≠ 0)

/-- The bits of the bytes that a register write covers (R169). -/
def laneMask (lanes : BitVec 4) : Word :=
  (if lanes.getLsbD 0 then 0x000000FF else 0) ||| (if lanes.getLsbD 1 then 0x0000FF00 else 0)
    ||| (if lanes.getLsbD 2 then 0x00FF0000 else 0) ||| (if lanes.getLsbD 3 then 0xFF000000 else 0)

/-- Writing 1 clears: SUMMARY after the host writes it (R165, R169). -/
def clearedSummary (summary : Word) (w : RegWrite) : Word := summary &&& ~~~(w.value &&& laneMask w.lanes)

/-- SUMMARY_ENABLE after the host writes it: the bytes written change, unnamed bits stay 0 (R169). -/
def writtenEnable (enable : Word) (w : RegWrite) : Word :=
  ((enable &&& ~~~laneMask w.lanes) ||| (w.value &&& laneMask w.lanes)) &&& summaryMask

/-- IDENT: family code, revision, layout version (R169, Table 10-14). -/
def identValue : Word :=
  BitVec.ofNat 32 (Config.familyCode * 65536 + Config.partRevision * 256 + Config.layoutVersion)

/-- The result flags of a slot: bit 0 CLAMPED, bit 1 TRANSFER_FAILED (Table 10-7). -/
def resultFlags (clamped transferFailed : Bool) : Byte := BitVec.ofNat 8 (packBits [clamped, transferFailed])

/-- Deficit (R72). -/
def deficitFlag (dAllow dFloor : Nat) : Bool := decide (dAllow < dFloor)

/-- Capped, with its cause (R72). -/
def cappedFlag (ceiling dTarget dAllow dTherm : Nat) : Option CappedCause :=
  if ceiling < dTarget then some (if dAllow ≤ dTherm then .budget else .thermal) else none

/-- A reading at either end of an axis saturates it (R100). -/
def saturatedAxis (a : Int) : Bool := decide (a = 16000) || decide (a = -16000)

/-- A sample is saturated when any axis is (R100). -/
def Axes.saturated (a : Axes) : Bool := saturatedAxis a.x || saturatedAxis a.y || saturatedAxis a.z

end Sys2Proof.Machine
end

