-- ==== Sys2Proof/Machine/Derived.lean ====
section
/-! DEFINITION. What is derived from the records rather than stored: the hold table's outputs, the latch locks, the shutdown-request line, the charging flag and charger command, the indicators, and so all output signals (Table 11-2). -/

namespace Sys2Proof.Machine

/-! ## HLD's outputs (R57, R59) -/

/-- The reserves of the entries that stand, summed (R57). -/
def reserveSum : List (Option HoldEntry) → Nat
  | [] => 0
  | none :: es => reserveSum es
  | some e :: es => e.reserve + reserveSum es

/-- R_prot. -/
def HoldTable.rProt (h : HoldTable) : Nat := reserveSum h.entries

/-- At least one entry has this target (R57). -/
def HoldTable.targets (h : HoldTable) (t : Target) : Bool :=
  h.entries.any fun o => match o with
    | some e => decide (e.target = t)
    | none => false

/-- The latch of a bay as a hold target. -/
def latchOf : Bay → Target
  | .A => .latchA
  | .B => .latchB

/-- HLD's lock demand on a bay's latch (R57). -/
def HoldTable.demand (h : HoldTable) (b : Bay) : Bool := h.targets (latchOf b)

/-- The storage quiesce request line (R59). -/
def HoldTable.quiesce (h : HoldTable) : Bool := h.targets .storage

/-- The SOFTWARE entries, in position order. -/
def HoldTable.software (h : HoldTable) : List HoldEntry :=
  h.entries.filterMap fun o => match o with
    | some e => if e.holder = .software then some e else none
    | none => none

/-! ## BAY's outputs -/

/-- The other bay. -/
def otherBay : Bay → Bay
  | .A => .B
  | .B => .A

/-- A bay as a feed kind. -/
def feedOf : Bay → FeedKind
  | .A => .bayA
  | .B => .bayB

/-- The bay that a feed kind names. -/
def FeedKind.bay : FeedKind → Option Bay
  | .bayA => some .A
  | .bayB => some .B
  | .dc => none
  | .reservoir => none

/-- BAY's own lock demand: in every state except OPEN and RELEASE_WAIT(UNLATCHING) (R4). -/
def BayState.lockDemand : BayState → Bool
  | .opened _ => false
  | .releaseWait r =>
    match r.sub with
    | .unlatching _ => false
    | _ => true
  | _ => true

/-- No reason stands. -/
def FaultSet.isEmpty (f : FaultSet) : Bool := !f.link && !f.thermal && !f.pack

/-- The state is STANDBY. -/
def BayState.isStandby : BayState → Bool
  | .standby => true
  | _ => false

/-- The standing faults, empty outside FEEDING and RELEASE_WAIT (Table 1-2). -/
def BayState.standing : BayState → FaultSet
  | .feeding f => f
  | .releaseWait r => r.standing
  | _ => ⟨false, false, false⟩

/-- The record of a bay. -/
def Power.bay (p : Power) : Bay → BayRec
  | .A => p.bayA
  | .B => p.bayB

/-- The pack link of a bay. -/
def Power.link (p : Power) : Bay → Link
  | .A => p.linkA
  | .B => p.linkB

/-- The latch lock output: either demand holds (R4). -/
def Power.latchLock (p : Power) (b : Bay) : Bool := (p.bay b).state.lockDemand || p.hld.demand b

/-- The shutdown-request line: the causes are not empty (R48). -/
def ShutdownCauses.line (c : ShutdownCauses) : Bool := c.faulted || c.lowCharge || c.exhausted

/-- The charging flag (R24). -/
def Blocks.charging (s : Blocks) (b : Bay) : Bool :=
  decide (s.assignment = some b) && decide (s.feed.kind = .dc) && decide (5000 ≤ s.bud.pChg)

/-- The charger's command (R24); `none` is off. -/
def Blocks.charger (s : Blocks) : Option ChargerCommand :=
  match s.assignment with
  | none => none
  | some b =>
    if s.charging b then
      match (s.bay b).identity with
      | none => none
      | some i => some ⟨b, min s.bud.pChg i.maxCharge, i.chargeVoltage⟩
    else none

/-- The indicator pattern of a bay: the first condition of Table 1-8 that holds (R22). -/
def indicatorOf (r : BayRec) (charging : Bool) : Indicator :=
  if r.blinkEnd.isSome then .redBlinking
  else match r.state with
    | .fault _ => .redSteady
    | .feeding f => if f.isEmpty then .off else .redSteady
    | .releaseWait _ => .greenBlinking
    | .opened _ => .greenSteady
    | .standby => if charging then .amber else .off
    | .empty => .off
    | .seated _ => .off

/-- Every output signal, from the records (Table 11-2). -/
def derivePins (s : Blocks) : Pins where
  interrupt := interruptLine s.summary s.summaryEnable
  shutdownRequest := s.feed.causes.line
  quiesce := s.hld.quiesce
  latchLockA := s.latchLock .A
  latchLockB := s.latchLock .B
  indicatorA := indicatorOf s.bayA (s.charging .A)
  indicatorB := indicatorOf s.bayB (s.charging .B)
  switches := s.fhu.switches
  charger := s.charger
  backlight := if s.blc.panelEnable then some s.blc.liveDuty else none

/-- The output signals of an unpowered part (Table 11-2). -/
def unpoweredPins : Pins where
  interrupt := false
  shutdownRequest := false
  quiesce := false
  latchLockA := true
  latchLockB := true
  indicatorA := .off
  indicatorB := .off
  switches := ⟨false, false, false⟩
  charger := none
  backlight := none

end Sys2Proof.Machine
end

