-- ==== Sys2Proof/Machine/LogRecords.lean ====
section
/-! DEFINITION. The incident records: their kinds, bodies (Table 9-4) and byte layout (Table 10-15). -/

namespace Sys2Proof.Machine

/-- Causes of an unplanned loss (R39). -/
inductive LossCause where
  | presence | dcDeparture | voltage
  deriving DecidableEq, Repr

/-- Reasons of a RELEASE_REFUSED record (Table 9-4). -/
inductive RefusalReason where
  | noTakeover | holdTimeout | latchStuck
  deriving DecidableEq, Repr

/-- Causes of a HOLDOVER_END record (Table 9-4). -/
inductive HoldoverEndCause where
  | pack | dc | exhausted
  deriving DecidableEq, Repr

/-- Sensors of a SENSOR_FAULT record (Table 9-4). -/
inductive Sensor where
  | accel | ambient | thermistor | powerSense
  deriving DecidableEq, Repr

/-- A record as its writer makes it: the kind and the body of Table 9-4. -/
inductive LogRecord where
  | restart (exchange : Bool) (count : Word)
  | drop (d : DropData) (outcome : AckOutcome) (bayA bayB : BayState)
  | fallNoImpact (long : Bool) (fallMs : Nat) (status : TraceStatus) (serial : Option Word)
  | shock (peak : Nat) (saturated : Bool) (axis : Orientation) (stateAt : ReturnState)
  | swap (bay : Bay) (takeover : FeedKind) (wait : Nat) (origin : Origin)
  | releaseRefused (bay : Bay) (reason : RefusalReason) (transferFailed : Bool) (origin : Origin)
  | feedLost (lost : FeedKind) (cause : LossCause) (newFeed : FeedKind) (eAvail : Nat)
  | holdoverEnd (cause : HoldoverEndCause) (duration : Nat) (planned : Bool) (outcome : AckOutcome)
  | packFault (bay : Bay) (reason : FaultReason) (serial : BitVec 64)
  | sensorFault (sensor : Sensor)
  | monitorWrap (index : Nat) (group : FreezeGroup) (frozen : Byte)
  | releaseUndoneByHold (bay : Bay)
  | timeSet (oldValid : Bool) (oldSeconds newSeconds : Word)
  | gap (missed : Word)
  deriving DecidableEq, Repr

/-- Record kind codes (Table 10-15). -/
def LogRecord.code : LogRecord → Nat
  | .restart .. => 1
  | .drop .. => 2
  | .fallNoImpact .. => 3
  | .shock .. => 4
  | .swap .. => 5
  | .releaseRefused .. => 6
  | .feedLost .. => 7
  | .holdoverEnd .. => 8
  | .packFault .. => 9
  | .sensorFault .. => 10
  | .monitorWrap .. => 11
  | .releaseUndoneByHold .. => 12
  | .timeSet .. => 13
  | .gap .. => 14

/-- Loss cause codes. -/
def lossCode : LossCause → Byte
  | .presence => 0
  | .dcDeparture => 1
  | .voltage => 2

/-- Refusal reason codes. -/
def refusalCode : RefusalReason → Byte
  | .noTakeover => 0
  | .holdTimeout => 1
  | .latchStuck => 2

/-- Holdover end cause codes. -/
def holdoverEndCode : HoldoverEndCause → Byte
  | .pack => 0
  | .dc => 1
  | .exhausted => 2

/-- Sensor codes. -/
def sensorCode : Sensor → Byte
  | .accel => 0
  | .ambient => 1
  | .thermistor => 2
  | .powerSense => 3

/-- A trace serial. Where a record has none, it is written 0: Table 10-15 gives that for DROP, "0 absent"; for FALL_NO_IMPACT with TRACE_BUSY or TRACE_OFF it gives no value, and 0 is the model's choice (DESIGN CHOICE, unsafe, log entry 39). -/
def serialBytes (s : Option Word) : List Byte := leBytes 4 (s.getD 0).toNat

/-- The record carries TRACE_ATTACHED (R127, R153). -/
def LogRecord.traceAttached : LogRecord → Bool
  | .drop d _ _ _ => d.traceStatus = .captured || d.traceStatus = .shared
  | .fallNoImpact _ _ st _ => st = .captured || st = .shared
  | _ => false

/-- The body from byte 20 on (Table 10-15); the bytes after it read 0. -/
def LogRecord.body : LogRecord → List Byte
  | .restart x count => [boolByte x, 0, 0, 0] ++ leBytes 4 count.toNat
  | .drop d o a b =>
    leBytes 2 d.fallMs ++ leBytes 2 d.height ++ leBytes 2 d.peak
      ++ [boolByte d.saturated, orientationCode d.axis, orientationCode d.orientBefore, traceStatusCode d.traceStatus,
          holdsPlacedBits d.holdsPlaced, outcomeCode o]
      ++ serialBytes d.traceSerial ++ bayPair a ++ bayPair b ++ [feedCode d.feedAtStart]
  | .fallNoImpact long ms st serial =>
    [boolByte long, 0] ++ leBytes 2 ms ++ [traceStatusCode st, 0, 0, 0] ++ serialBytes serial
  | .shock peak sat axis st => leBytes 2 peak ++ [boolByte sat, orientationCode axis, returnCode st]
  | .swap b t wait o => [bayCode b, feedCode t, originCode o, originSlot o] ++ leBytes 4 wait
  | .releaseRefused b r tf o => [bayCode b, refusalCode r, boolByte tf, originCode o, originSlot o]
  | .feedLost l c n e => [feedCode l, lossCode c, feedCode n, 0] ++ leBytes 4 e
  | .holdoverEnd c d p o => [holdoverEndCode c, boolByte p, outcomeCode o, 0] ++ leBytes 4 d
  | .packFault b r serial => [bayCode b, reasonCode r, 0, 0] ++ leBytes 8 serial.toNat
  | .sensorFault s => [sensorCode s]
  | .monitorWrap i g f => [BitVec.ofNat 8 i, BitVec.ofNat 8 (groupCode g), f]
  | .releaseUndoneByHold b => [bayCode b]
  | .timeSet v o n => [boolByte v, 0, 0, 0] ++ leBytes 4 o.toNat ++ leBytes 4 n.toNat
  | .gap n => [0, 0, 0, 0] ++ leBytes 4 n.toNat

/-- `bs` padded with zeros, or cut, to `n` bytes. -/
def padTo (n : Nat) (bs : List Byte) : List Byte := bs.take n ++ zeros (n - bs.length)

/-- The 64 bytes of a record written with sequence `seq` at the present time (R146, R153). -/
def LogRecord.bytes (r : LogRecord) (seq : Word) (t : Timebase) : List Byte :=
  padTo 64
    ([BitVec.ofNat 8 r.code, BitVec.ofNat 8 (packBits [t.timeValid, r.traceAttached]), 0, 0]
      ++ leBytes 4 seq.toNat ++ leBytes 8 t.uptime
      ++ leBytes 4 (if t.timeValid then t.calendar.toNat else 0) ++ r.body)

end Sys2Proof.Machine
end

