-- ==== Sys2Proof/Machine/Memory.lean ====
section
/-! DEFINITION. The exchange area's 16,384 bytes as a list of (offset, byte) pairs in one canonical form: offsets strictly rising, none at or beyond the area's end, no entry equal to what an unlisted offset reads as. -/

namespace Sys2Proof.Machine

/-- The memory of the exchange area. -/
abbrev Mem := List Host.Cell

/-- What an unlisted offset reads as: 0, but in the trace entries, where it is a byte of a no-data entry (0, 0, 0, 65,535), as power-on reset writes them (R122, R156). -/
def restByte (a : Nat) : Byte :=
  if 0x2040 ≤ a ∧ a < Config.areaSize ∧ 6 ≤ a % 8 then 0xFF else 0

/-- The byte at offset `a`. -/
def readByte : Mem → Nat → Byte
  | [], a => restByte a
  | (k, v) :: m, a => if k = a then v else readByte m a

/-- The `n` bytes from offset `a`. -/
def readBytes (m : Mem) (a : Nat) : Nat → List Byte
  | 0 => []
  | n + 1 => readByte m a :: readBytes m (a + 1) n

/-- The little-endian field of `n` bytes at offset `a`. -/
def readField (m : Mem) (a n : Nat) : Nat := ofLe (readBytes m a n)

/-- The listed cells of the bytes `bs` written from offset `a`: a byte equal to the unlisted value is not listed, and there is no cell beyond the area. -/
def cellsOf : Nat → List Byte → Mem
  | _, [] => []
  | a, b :: bs =>
    if b = restByte a ∨ Config.areaSize ≤ a then cellsOf (a + 1) bs else (a, b) :: cellsOf (a + 1) bs

/-- The bytes `bs` written from offset `a`; every other byte stays. The one write of the model. -/
def writeBytes (m : Mem) (a : Nat) (bs : List Byte) : Mem :=
  m.filter (fun c => decide (c.1 < a)) ++ (cellsOf a bs ++ m.filter (fun c => decide (a + bs.length ≤ c.1)))

/-- Every cell from here on is listed at an offset not below `lo`, rising, inside the area, and differs from the unlisted value. -/
def wfFrom : Nat → Mem → Bool
  | _, [] => true
  | lo, (k, v) :: m => decide (lo ≤ k) && decide (k < Config.areaSize) && decide (v ≠ restByte k) && wfFrom (k + 1) m

/-- The canonical form. -/
def Memory.wf (m : Mem) : Bool := wfFrom 0 m

end Sys2Proof.Machine
end

