-- ==== Sys2Proof/Machine/Pages.lean ====
section
/-! DEFINITION. The byte layouts of the six pages and the trace header (Tables 10-9 to 10-13, 10-16), each as fields at the offsets the tables give; bytes between them read 0. A field that has no value at the moment reads 0 (log entry 15). -/

namespace Sys2Proof.Machine

/-- Fields at rising offsets, from `pos` on, filled with zeros to `size` bytes. -/
def layoutFrom (size : Nat) : Nat → List (Nat × List Byte) → List Byte
  | pos, [] => zeros (size - pos)
  | pos, (off, bs) :: fs => zeros (off - pos) ++ bs ++ layoutFrom size (off + bs.length) fs

/-- A 16-bit field. -/
def w16 (n : Nat) : List Byte := leBytes 2 n

/-- A 32-bit field; of an uptime its low 32 bits (10.8). -/
def w32 (n : Nat) : List Byte := leBytes 4 n

/-- The offset of each page (Table 10-1). -/
inductive PageId where
  | energy | light | motion | monitor | mirror | time
  deriving DecidableEq, Repr

/-- Where a page stands. -/
def PageId.offset : PageId → Nat
  | .energy => 0x0200
  | .light => 0x0300
  | .motion => 0x0400
  | .monitor => 0x0500
  | .mirror => 0x0600
  | .time => 0x0700

/-- The generation count of a page. -/
def Generations.get (g : Generations) : PageId → Word
  | .energy => g.energy
  | .light => g.light
  | .motion => g.motion
  | .monitor => g.monitor
  | .mirror => g.mirror
  | .time => g.time

/-- The generation count of a page, replaced. -/
def Generations.set (g : Generations) (v : Word) : PageId → Generations
  | .energy => { g with energy := v }
  | .light => { g with light := v }
  | .motion => { g with motion := v }
  | .monitor => { g with monitor := v }
  | .mirror => { g with mirror := v }
  | .time => { g with time := v }

/-- The bay block of the energy page (Table 10-10). -/
def bayBlock (r : BayRec) (lock charging : Bool) : List Byte :=
  let rel := match r.state with
    | .releaseWait x => some x
    | _ => none
  let cancel := match r.state with
    | .releaseWait x => decide (x.sub = .transfer true)
    | _ => false
  let deadline := match r.state with
    | .seated d => d
    | .opened d => d
    | .releaseWait x => match x.sub with
      | .unlatching u => u
      | _ => x.limitAt
    | _ => 0
  layoutFrom 64 0
    [(0, [bayStateCode r.state, subStateCode r.state, (rel.map fun x => formerCode x.former).getD 0,
        (rel.map fun x => formerReasonCode x.former).getD 0, stateReasonCode r.state, faultSetBits r.state.standing]),
     (6, [(rel.map fun x => originCode x.origin).getD 0, (rel.map fun x => originSlot x.origin).getD 0,
        BitVec.ofNat 8 (packBits [r.presence, r.latchOpen, lock, charging, r.identity.isSome, r.packState.isSome, cancel]),
        BitVec.ofNat 8 r.failedPolls, takeoverCode (rel.bind fun x => x.takeover), indicatorCode (indicatorOf r charging)]),
     (12, match r.identity with
        | none => zeros 26
        | some i => leBytes 8 i.serial.toNat ++ [i.chemistry, BitVec.ofNat 8 i.cells] ++ w16 i.week ++ w32 i.designCapacity
            ++ w32 i.packMax ++ w32 i.maxCharge ++ w16 i.chargeVoltage),
     (38, match r.packState with
        | none => zeros 18
        | some k => w16 k.voltage ++ leSigned 2 k.current ++ leSigned 2 k.temperature ++ [BitVec.ofNat 8 k.soc, k.faultFlags]
            ++ w16 k.cycles ++ w32 k.remaining ++ w32 (k.polledAt.getD 0)),
     (56, w32 deadline), (60, w32 ((rel.map fun x => x.requestAt).getD 0))]

/-- The energy page without its generation (Table 10-9). -/
def energyPage (s : Blocks) : List Byte :=
  layoutFrom 256 4
    [(0x04, [feedCode s.feed.kind, holdoverCode s.feed.holdover,
        BitVec.ofNat 8 (packBits [s.feed.dcPresent, s.feed.lean, (s.feed.holdover.map fun h => h.exhausted).getD false,
          s.feed.causes.line, s.feed.switchover.isSome]),
        shutdownBits s.feed.causes]),
     (0x08, [planCode s.feed.lastPlan, (s.feed.switchover.map fun w => feedCode w.target).getD 0,
        (s.feed.switchover.map fun w => purposeCode w.purpose).getD 0, moveBits s.feed.pending]),
     (0x0C, w32 s.feed.eAvail), (0x10, w16 s.feed.remaining), (0x12, w16 s.feed.failures),
     (0x14, w32 ((s.feed.holdover.map fun h => h.start).getD 0)),
     (0x18, w32 s.sfe.power.pSys), (0x1C, w32 s.sfe.power.vDc), (0x20, w32 s.sfe.power.vRes),
     (0x24, [assignmentCode s.assignment, BitVec.ofNat 8 s.bayPolicy.chargeLimit]),
     (0x40, bayBlock s.bayA (s.latchLock .A) (s.charging .A)), (0x80, bayBlock s.bayB (s.latchLock .B) (s.charging .B)),
     (0xC0, [preferenceCode s.feed.preference, BitVec.ofNat 8 s.feed.margin]), (0xC2, w16 s.feed.tSwap),
     (0xC4, w16 s.bayPolicy.releaseLimit), (0xC6, w16 s.bayPolicy.openWindow), (0xC8, w32 s.feed.pAdapter),
     (0xCC, w32 s.feed.resC), (0xD0, w32 s.feed.vMin), (0xD4, w32 s.feed.eShut), (0xD8, w32 s.feed.pResLimit)]

/-- A curve point in staging point form (Table 10-7). -/
def pointBytes (c : CurvePoint) : List Byte := w32 c.lux ++ w16 c.nits ++ zeros 2

/-- The light page without its generation (Table 10-11). -/
def lightPage (s : Blocks) : List Byte :=
  let b := s.bud
  let l := s.blc
  let n := l.panel
  layoutFrom 256 4
    [(0x04, w32 b.passCount.toNat), (0x08, w32 b.passUptime),
     (0x0C, [causeBits b.causes, feedCode b.feedUsed, BitVec.ofNat 8 ((b.factors.map fun f => f.1).getD 0),
        BitVec.ofNat 8 ((b.factors.map fun f => f.2).getD 0)]),
     (0x10, [conditionBits b.conditions,
        BitVec.ofNat 8 (packBits [b.deficit, b.capped.isSome, decide (b.capped = some .thermal), decide (l.ambient = .stale)]),
        ambientCode l.ambient, appModeCode l.appMode]),
     (0x14, w32 b.pFeed ++ w32 b.usable ++ w32 b.pPlat ++ w32 b.rProt ++ leSigned 4 b.aRaw ++ w32 b.aBl ++ w32 b.pChg),
     (0x30, w16 b.dAllow ++ w16 b.dTherm ++ w16 b.dTarget ++ w16 b.ceiling ++ w16 b.dCmd ++ w16 l.pendingDuty ++ w16 l.ceiling
        ++ w16 l.liveDuty ++ w16 l.dTarget ++ w16 l.nc ++ w16 l.nb ++ w16 l.manualLevel),
     (0x48, w32 l.lastL), (0x4C, w32 l.filtered),
     (0x50, [lightModeCode l.mode] ++ leSigned 1 l.bias ++ [boolByte l.panelEnable,
        BitVec.ofNat 8 ((l.pendingCurve.map fun c => c.points.length).getD 0)]),
     (0x54, w16 l.curveVersion.toNat), (0x56, w16 l.curve.length),
     (0x58, w16 n.nMin ++ w16 n.nMax ++ w16 n.pBlMax ++ w16 n.dFloor ++ w16 n.sUp ++ w16 n.sDown ++ w16 n.kUp ++ w16 n.kDown),
     (0x80, l.curve.flatMap pointBytes)]

/-- The open episode of a motion state: in FALLING and in IMPACT with cause DROP (Table 6-2). -/
def MotionState.episode : MotionState → Option Episode
  | .falling e => some e
  | .impactDrop e _ => some e
  | _ => none

/-- Three axes as signed 16-bit fields. -/
def axesBytes (a : Axes) : List Byte := leSigned 2 a.x ++ leSigned 2 a.y ++ leSigned 2 a.z

/-- The motion page without its generation (Table 10-12). -/
def motionPage (m : MotionRec) : List Byte :=
  let c := m.config
  layoutFrom 256 4
    [(0x04, [motionCode m.state, healthCode m.health, impactCauseCode m.state, returnStateCode m.state]),
     (0x08, w32 m.index.toNat),
     (0x0C, match m.lastSample with
        | none => zeros 7
        | some x => axesBytes x.axes ++ [boolByte x.saturated]),
     (0x13, [orientationCode m.orientation] ++ axesBytes m.averages),
     (0x1A, w16 m.freeFall.count ++ w16 m.caught.count ++ w16 m.settleRun),
     (0x20, [boolByte m.state.episode.isSome]),
     (0x24, w32 ((m.state.episode.map fun e => e.fallStart.toNat).getD 0)),
     (0x28, w16 m.lastImpact.peak ++ [boolByte m.lastImpact.saturated, orientationCode m.lastImpact.axis]),
     (0x2C, w16 m.lastFallMs ++ w16 m.lastHeight),
     (0x30, w32 (match m.state with
        | .settle d => d
        | _ => 0)),
     (0x34, w32 (m.liftDeadline.getD 0)),
     (0x38, w16 c.tFf ++ w16 c.nFf ++ w16 c.tImp ++ w16 c.bandLow ++ w16 c.bandHigh ++ w16 c.tSettle ++ w16 c.latchReserve
        ++ w16 c.storageReserve),
     (0x48, [boolByte c.protect, boolByte c.trace])]

/-- Edge, enable and alert in bits 0..2, the group in bits 4..5 (Table 10-13). -/
def monitorFlags (c : MonitorConfig) : Nat := packBits [c.edge, c.enable, c.alert] + 16 * groupCode c.group

/-- Bytes 4..31 of a monitor entry (Table 10-13). -/
def monitorEntry (m : Monitor) : List Byte :=
  w32 m.count.toNat ++ w32 m.config.threshold
    ++ [eventCode m.config.kind, m.config.mask, BitVec.ofNat 8 (monitorFlags m.config),
        BitVec.ofNat 8 (packBits [m.wrapped, m.frozen, m.config.enable, m.edgeMemory, m.pending.isSome])]
    ++ (match m.pending with
        | none => zeros 16
        | some q => [eventCode q.config.kind, q.config.mask,
            BitVec.ofNat 8 (monitorFlags q.config + (if q.preload.isSome then 128 else 0)), 0]
            ++ w32 q.config.threshold ++ w32 (q.preload.getD 0).toNat ++ zeros 4)

/-- The monitor page without its generation: eight entries of 32 bytes, the page word of entries 1..7 reading 0 (Table 10-13). -/
def monitorPage : List Monitor → List Byte
  | [] => []
  | m :: ms => monitorEntry m ++ ms.flatMap (fun n => zeros 4 ++ monitorEntry n)

/-- Bytes 4..15 of a hold mirror entry (Table 10-13). -/
def holdEntryBytes : Option HoldEntry → List Byte
  | none => zeros 12
  | some e => [1, holderCode e.holder, targetCode e.target, 0] ++ w16 e.reserve ++ zeros 2 ++ w32 e.placedAt

/-- The page word of entry `n` from 1 on: R_prot, the four state bytes, the acknowledgement deadline, then the SOFTWARE expiries by rank (Table 10-13). -/
def mirrorWord (h : HoldTable) (n : Nat) : List Byte :=
  if n = 1 then w32 h.rProt
  else if n = 2 then
    [BitVec.ofNat 8 h.software.length, boolByte h.wait.isSome, outcomeCode h.outcome,
      BitVec.ofNat 8 (packBits [h.demand .A, h.demand .B, h.quiesce, h.ackLine])]
  else if n = 3 then w32 (h.wait.getD 0)
  else w32 ((h.software[n - 4]?.bind fun e => e.expiry).getD 0)

/-- The entries of the mirror page from number `n` on, each with its page word. -/
def mirrorEntries (h : HoldTable) : Nat → List (Option HoldEntry) → List Byte
  | _, [] => []
  | n, e :: es => mirrorWord h n ++ holdEntryBytes e ++ mirrorEntries h (n + 1) es

/-- The hold mirror page without its generation. -/
def mirrorPage (h : HoldTable) : List Byte :=
  match h.entries with
  | [] => []
  | e :: es => holdEntryBytes e ++ mirrorEntries h 1 es

/-- The time page without its generation (Table 10-13). -/
def timePage (t : Timebase) : List Byte :=
  layoutFrom 256 4
    [(0x08, leBytes 8 t.uptime), (0x10, w32 t.calendar.toNat), (0x14, [boolByte t.timeValid]), (0x18, leBytes 8 (t.lastSet.getD 0))]

/-- The 64-byte trace header (Table 10-16). -/
def traceHeader (t : TraceRec) : List Byte :=
  layoutFrom 64 0
    [(0x00, [traceStateCode t.state]), (0x04, w32 t.serial.toNat), (0x08, w16 t.written), (0x0A, w16 256),
     (0x0C, w32 t.base.toNat), (0x10, w32 t.fallStart.toNat), (0x14, leBytes 8 t.startUptime),
     (0x1C, [BitVec.ofNat 8 t.sharedFalls, endCauseCode t.endCause]), (0x20, w32 t.linked.toNat)]

/-- The 8 bytes of a trace entry (Table 10-16). -/
def traceEntryBytes (e : RingEntry) : List Byte := axesBytes e.axes ++ w16 e.peak

/-- A no-data entry (R121). -/
def noData : RingEntry := ⟨⟨0, 0, 0⟩, 65535⟩

/-- Where trace entry `e` stands (Table 10-1). -/
def traceEntryAt (e : Nat) : Nat := 0x2040 + 8 * e

/-- Where slot `i` stands (Table 10-1). -/
def slotAt (i : Fin 32) : Nat := 0x0800 + 64 * i.val

/-- Where log entry `e` stands (R147). -/
def logEntryAt (e : Nat) : Nat := 0x1000 + 64 * e

end Sys2Proof.Machine
end

