-- ==== Sys2Proof/Machine/Operands.lean ====
section
/-! DEFINITION. The operand forms of the requests: the arguments of every kind as Table 10-8 lays them out in a slot, and their decoding from the copy made at take (R161, R164). Fields are as coded; the owning block clamps them. -/

namespace Sys2Proof.Machine

/-- A request as its slot codes it (Table 10-8). -/
inductive Request where
  | releaseBay (bay : Byte)
  | cancelRelease (bay : Byte)
  | setEnergyPolicy (preference chargeLimit : Byte) (tSwap : Half) (margin : Byte) (releaseLimit openWindow : Half) (pAdapter : Word)
  | setReservoir (c vMin eShut pResLimit : Word)
  | loadCurve (offset count : Byte)
  | setLightMode (mode : Byte) (value : Half)
  | setPanel (nMin nMax pBlMax dFloor sUp sDown kUp kDown : Half)
  | setMotion (tFf nFf tImp bandLow bandHigh tSettle latchReserve storageReserve : Half) (protect trace : Byte)
  | placeHold (target : Byte) (reserve duration : Half)
  | liftHold (target : Byte)
  | setMonitor (index kind mask edge enable alert group preloadFlag : Byte) (threshold preload : Word)
  | clearMonitors (mask : Byte)
  | thawMonitors (groups : Byte)
  | setTime (seconds : Word)
  | unknown (kind : Byte)
  deriving DecidableEq, Repr

/-- The kind code (Table 10-8). -/
def Request.kind : Request → Byte
  | .releaseBay _ => 1
  | .cancelRelease _ => 2
  | .setEnergyPolicy .. => 3
  | .setReservoir .. => 4
  | .loadCurve .. => 5
  | .setLightMode .. => 6
  | .setPanel .. => 7
  | .setMotion .. => 8
  | .placeHold .. => 9
  | .liftHold _ => 10
  | .setMonitor .. => 11
  | .clearMonitors _ => 12
  | .thawMonitors _ => 13
  | .setTime _ => 14
  | .unknown k => k

/-- A 16-bit argument. -/
def h16 (v : Half) : List Byte := leBytes 2 v.toNat

/-- A 32-bit argument. -/
def a32 (v : Word) : List Byte := leBytes 4 v.toNat

/-- The argument bytes that the request's layout names (Table 10-8). -/
def Request.layout : Request → List Byte
  | .releaseBay b => [b]
  | .cancelRelease b => [b]
  | .setEnergyPolicy p c t m r o a => [p, c] ++ h16 t ++ [m, 0] ++ h16 r ++ h16 o ++ [0, 0] ++ a32 a
  | .setReservoir c v e l => a32 c ++ a32 v ++ a32 e ++ a32 l
  | .loadCurve o n => [o, n]
  | .setLightMode m v => [m, 0] ++ h16 v
  | .setPanel a b c d e f g h => h16 a ++ h16 b ++ h16 c ++ h16 d ++ h16 e ++ h16 f ++ h16 g ++ h16 h
  | .setMotion a b c d e f g h p t => h16 a ++ h16 b ++ h16 c ++ h16 d ++ h16 e ++ h16 f ++ h16 g ++ h16 h ++ [p, t]
  | .placeHold t r d => [t, 0] ++ h16 r ++ h16 d
  | .liftHold t => [t]
  | .setMonitor i k m e n a g f t p => [i, k, m, e, n, a, g, f] ++ a32 t ++ a32 p
  | .clearMonitors m => [m]
  | .thawMonitors g => [g]
  | .setTime s => a32 s
  | .unknown _ => []

/-- The 40 argument bytes of the slot. -/
def Request.args (r : Request) : List Byte := padTo 40 r.layout

/-- Byte `i` of the arguments. -/
def argByte (args : List Byte) (i : Nat) : Byte := args.getD i 0

/-- The 16-bit argument at byte `i`. -/
def argHalf (args : List Byte) (i : Nat) : Half := argByte args (i + 1) ++ argByte args i

/-- The 32-bit argument at byte `i`. -/
def argWord (args : List Byte) (i : Nat) : Word := argHalf args (i + 2) ++ argHalf args i

/-- The request that a kind code and its argument bytes spell (R161, R164, Table 10-8). -/
def decodeRequest (kind : Byte) (g : List Byte) : Request :=
  match kind.toNat with
  | 1 => .releaseBay (argByte g 0)
  | 2 => .cancelRelease (argByte g 0)
  | 3 => .setEnergyPolicy (argByte g 0) (argByte g 1) (argHalf g 2) (argByte g 4) (argHalf g 6) (argHalf g 8) (argWord g 12)
  | 4 => .setReservoir (argWord g 0) (argWord g 4) (argWord g 8) (argWord g 12)
  | 5 => .loadCurve (argByte g 0) (argByte g 1)
  | 6 => .setLightMode (argByte g 0) (argHalf g 2)
  | 7 =>
    .setPanel (argHalf g 0) (argHalf g 2) (argHalf g 4) (argHalf g 6) (argHalf g 8) (argHalf g 10) (argHalf g 12) (argHalf g 14)
  | 8 =>
    .setMotion (argHalf g 0) (argHalf g 2) (argHalf g 4) (argHalf g 6) (argHalf g 8) (argHalf g 10) (argHalf g 12) (argHalf g 14)
      (argByte g 16) (argByte g 17)
  | 9 => .placeHold (argByte g 0) (argHalf g 2) (argHalf g 4)
  | 10 => .liftHold (argByte g 0)
  | 11 =>
    .setMonitor (argByte g 0) (argByte g 1) (argByte g 2) (argByte g 3) (argByte g 4) (argByte g 5) (argByte g 6) (argByte g 7)
      (argWord g 8) (argWord g 12)
  | 12 => .clearMonitors (argByte g 0)
  | 13 => .thawMonitors (argByte g 0)
  | 14 => .setTime (argWord g 0)
  | _ => .unknown kind

end Sys2Proof.Machine
end

