-- ==== Sys2Proof/Machine/Front.lean ====
section
/-! DEFINITION. The named operations of the host-facing blocks: SUMMARY raises, pages, the incident log, the condition monitors, the trace header and the completion of requests (chapters 7 to 10). -/

namespace Sys2Proof.Machine

/-! ## SUMMARY and pages -/

/-- An owner raises a SUMMARY flag (R165). -/
def Front.raise (f : Front) (b : SummaryFlag) : Front := { f with summary := f.summary ||| flagBit b }

/-- The part writes bytes of the exchange area. -/
def Front.write (f : Front) (a : Nat) (bs : List Byte) : Front := { f with mem := writeBytes f.mem a bs }

/-- A page update: the page is written whole, its generation two higher (R157). -/
def Front.publish (f : Front) (g : PageId) (body : List Byte) : Front :=
  let v := f.gens.get g + 2
  { f with gens := f.gens.set v g, mem := writeBytes f.mem g.offset (padTo 256 (leBytes 4 v.toNat ++ body)) }

/-- CMU republishes the monitor page (R142). -/
def Front.publishMonitors (f : Front) : Front := f.publish .monitor (monitorPage f.monitors)

/-- TMB republishes the time page (R143). -/
def Front.publishTime (f : Front) : Front := f.publish .time (timePage f.tmb)

/-- TRC rewrites its header (R122). -/
def Front.putTraceHeader (f : Front) : Front := f.write 0x2000 (traceHeader f.trc)

/-! ## The log -/

/-- Free space: 64 − (write index − effective read index) (Table 9-2, note 2). -/
def LogRec.free (l : LogRec) : Nat := Config.logEntries - (l.writeIndex - l.effRead).toNat

/-- The missed count after one more missed record, saturating (R150). -/
def missedSucc (n : Word) : Word := if n = 0xFFFFFFFF then n else n + 1

/-- The part's fields of the log control block are rewritten (R150; log entry 20). -/
def Front.putLogBlock (f : Front) : Front :=
  (f.write 0x08 (leBytes 4 f.log.writeIndex.toNat)).write 0x10 (leBytes 4 f.log.missed.toNat)

/-- A kind without qualifier bits and value. -/
def plainEvent (k : EventKind) : Occurrence := ⟨k, 0, none⟩

/-- The log has no room (R150). -/
def LogRec.full (l : LogRec) : Bool := decide (l.free = 0)

/-- LOG_FULL when the log has no room left (R150). -/
def Front.raiseIfFull (f : Front) : Front := if f.log.full then f.raise .logFull else f

/-- The write index after the entry of the present sequence (R149, step 3). -/
def Front.advanceIndex (f : Front) : Front :=
  { f with
    log := { f.log with writeIndex := f.log.writeIndex + 1 }
    mem := writeBytes f.mem 0x08 (leBytes 4 (f.log.writeIndex + 1).toNat) }

/-- A record that finds room: the entry, then the write index, INCIDENT, and LOG_FULL when it took the last entry (R149). -/
def Front.writeRecord (f : Front) (r : LogRecord) : Front :=
  ((f.write (logEntryAt (f.log.writeIndex.toNat % Config.logEntries)) (r.bytes f.log.writeIndex f.tmb)).advanceIndex.raise
    .incident).raiseIfFull

/-- A record that finds none is counted missed (R150). -/
def Front.missRecord (f : Front) : Front :=
  { f with log := { f.log with missed := missedSucc f.log.missed } }.putLogBlock

/-- What appending a record gives: the new state, the sequence if it was written, and the occurrence that LOG raises. -/
structure Appended where
  front : Front
  seq   : Option Word
  occ   : Occurrence
  deriving DecidableEq, Repr

/-- LOG takes a record (R149, R150). -/
def Front.append (f : Front) (r : LogRecord) : Appended :=
  if f.log.full then ⟨f.missRecord, none, plainEvent .logMissed⟩
  else ⟨f.writeRecord r, some f.log.writeIndex, ⟨.incident, 0, some r.code⟩⟩

/-! ## Condition monitors -/

/-- The kind has qualifier bits (Table 8-2). -/
def EventKind.qualified : EventKind → Bool
  | .drop => true
  | .shock => true
  | .swap => true
  | .releaseRefused => true
  | .feedLost => true
  | .holdoverExhausted => true
  | .passDeficit => true
  | .passCapped => true
  | .packHot => true
  | .fall => false
  | .passAmbient => false
  | .panelHot => false
  | .incident => false
  | .logMissed => false

/-- The occurrence qualifies for the monitor (R131). -/
def Monitor.qualifies (m : Monitor) (o : Occurrence) : Bool :=
  decide (m.config.kind = o.kind)
    && (!o.kind.qualified || decide (o.bits &&& m.config.mask ≠ 0))
    && (match o.value with
        | none => true
        | some v => decide (m.config.threshold ≤ v))

/-- The monitor takes the occurrence: counting, not frozen, of its kind (R132). -/
def Monitor.takes (m : Monitor) (o : Occurrence) : Bool :=
  decide (m.config.kind = o.kind) && m.config.enable && !m.frozen

/-- The occurrence adds 1 to the monitor's count (R132, R133). -/
def Monitor.counts (m : Monitor) (o : Occurrence) : Bool :=
  m.takes o && m.qualifies o && (!m.config.edge || !m.edgeMemory)

/-- The occurrence wraps the monitor's count (R135). -/
def Monitor.wraps (m : Monitor) (o : Occurrence) : Bool := m.counts o && decide (m.count = 0xFFFFFFFF)

/-- The monitor after the occurrence, freezes apart (R132, R133, R135). -/
def Monitor.offer (m : Monitor) (o : Occurrence) : Monitor :=
  if m.takes o then
    { m with
      count := if m.counts o then m.count + 1 else m.count
      wrapped := m.wrapped || m.wraps o
      edgeMemory := m.qualifies o }
  else m

/-- The monitors of a group as a set of indices, empty for NONE (R136). -/
def groupMembers (ms : List Monitor) (g : FreezeGroup) : Byte :=
  if g = .none then 0 else BitVec.ofNat 8 (packBits (ms.map fun m => decide (m.config.group = g)))

/-- The wrapping monitors with alert on wrap, with their indices from `n` on (R136). -/
def alerting (o : Occurrence) : Nat → List Monitor → List (Nat × Monitor)
  | _, [] => []
  | n, m :: ms => if m.wraps o && m.config.alert then (n, m) :: alerting o (n + 1) ms else alerting o (n + 1) ms

/-- Steps 1 and 2 of an alert for each wrapping monitor in turn: MONITOR_ALERT and the MONITOR_WRAP record; the occurrences that LOG raises are gathered (R136). -/
def alertRecords (ms : List Monitor) : List (Nat × Monitor) → Front → Front × List Occurrence
  | [], f => (f, [])
  | (n, m) :: rest, f =>
    let a := (f.raise .monitorAlert).append (.monitorWrap n m.config.group (groupMembers ms m.config.group))
    let r := alertRecords ms rest a.front
    (r.1, a.occ :: r.2)

/-- The monitor is frozen by one of the alerts (R136). -/
def frozenBy (alerts : List (Nat × Monitor)) (m : Monitor) : Bool :=
  decide (m.config.group ≠ .none) && alerts.any fun a => decide (a.2.config.group = m.config.group)

/-- CMU takes one occurrence: all eight monitors, the alerts in index order, then the freezes and the page (R134 to R136, R142). The occurrences of its own records follow. -/
def Front.takeOccurrence (f : Front) (o : Occurrence) : Front × List Occurrence :=
  let ms := f.monitors
  let alerts := alerting o 0 ms
  let r := alertRecords ms alerts f
  let ms' := ms.map fun m => { m.offer o with frozen := (m.offer o).frozen || frozenBy alerts m }
  let f' := { r.1 with monitors := ms' }
  (if ms.any fun m => m.wraps o then f'.publishMonitors else f', r.2)

/-- CMU takes waiting occurrences first in, first out. Each further one needs a wrap with alert, and a monitor wraps at
most once in a chain (R136), so `fuel` of two more than the monitors is enough for one occurrence. -/
def drainEvents : Nat → List Occurrence → Front → Front
  | 0, _, f => f
  | _, [], f => f
  | fuel + 1, o :: os, f =>
    let r := f.takeOccurrence o
    drainEvents fuel (os ++ r.2) r.1

/-- An owner sends one event to CMU (R130). -/
def Front.sendEvent (f : Front) (o : Occurrence) : Front := drainEvents (f.monitors.length + 2) [o] f

/-- A writer makes a record: LOG writes it or counts it missed, and CMU takes LOG's occurrence (R149, R150). -/
def Front.makeRecord (f : Front) (r : LogRecord) : Front :=
  let a := f.append r
  a.front.sendEvent a.occ

/-- A record and the event tied to its kind, in this order (R130; log entry 21). -/
def Front.makeTied (f : Front) (r : LogRecord) (o : Occurrence) : Front := (f.makeRecord r).sendEvent o

/-- The trace link of a CAPTURED record written with sequence `s` (R127). -/
def Front.linkTrace (f : Front) (status : TraceStatus) (serial : Option Word) (s : Option Word) : Front :=
  match status, s with
  | .captured, some q =>
    if f.trc.state ≠ .free ∧ serial = some f.trc.serial then
      { f with trc := { f.trc with linked := q } }.putTraceHeader
    else f
  | _, _ => f

/-- The record of a fall: made, linked to its trace, and counted (R127). -/
def Front.makeFallRecord (f : Front) (r : LogRecord) (status : TraceStatus) (serial : Option Word) : Front :=
  let a := f.append r
  (a.front.linkTrace status serial a.seq).sendEvent a.occ

/-- The height band of a DROP event (Table 8-2). -/
def heightBand (h : Nat) : Byte := if h < 300 then 1 else if h < 1000 then 2 else 4

/-- A DROP record written now, with its DROP event (R111, R116). -/
def Front.writeDrop (f : Front) (d : DropData) (outcome : AckOutcome) (bayA bayB : BayState) : Front :=
  (f.makeFallRecord (.drop d outcome bayA bayB) d.traceStatus d.traceSerial).sendEvent ⟨.drop, heightBand d.height, some d.height⟩

/-- The effective read index that a read index gives (R148). -/
def effectiveRead (w r : Word) : Word :=
  let d := (w - r).toNat
  if d ≤ 64 then r else if d < 2 ^ 31 then w - 64 else w

/-- A GAP record: written like any other, the missed count zeroed after the write index (R151; log entry 21). -/
def Front.writeGap (f : Front) : Front :=
  let g := f.writeRecord (.gap f.log.missed)
  let z := { g with log := { g.log with missed := 0 } }.putLogBlock
  z.sendEvent ⟨.incident, 0, some (LogRecord.gap f.log.missed).code⟩

/-- LOG re-reads the host's read index (R148). -/
def Front.reReadIndex (f : Front) : Front :=
  let r := BitVec.ofNat 32 (readField f.mem 0x0C 4)
  let g := { f with log := { f.log with effRead := effectiveRead f.log.writeIndex r } }
  if g.log.full then (if f.log.full then g else g.raise .logFull)
  else if g.log.missed = 0 then g else g.writeGap

/-! ## Monitor configuration -/

/-- The monitor at a pass boundary adopts its pending configuration unless it is frozen (R139). -/
def Monitor.adopt (m : Monitor) : Monitor :=
  match m.pending with
  | none => m
  | some q =>
    if m.frozen then m
    else
      { m with
        config := q.config
        edgeMemory := false
        count := q.preload.getD m.count
        wrapped := if q.preload.isSome then false else m.wrapped
        pending := none }

/-- CMU's boundary at the start of a pass (R139). -/
def Front.adoptMonitors (f : Front) : Front := { f with monitors := f.monitors.map Monitor.adopt }

/-! ## Completion of requests -/

/-- A request's result: code, flags, data (R162). -/
structure Completion where
  code           : ResultCode
  clamped        : Bool
  transferFailed : Bool
  data           : List Byte
  deriving DecidableEq, Repr

/-- A result without flags and data. -/
def Completion.plain (c : ResultCode) : Completion := ⟨c, false, false, []⟩

/-- Steps 1 to 3 of R162 on the slot's bytes. R162 names of byte 2 the notify flag alone, bit 0 of Table 10-7; that its bits 1..7 are
written 0, whatever the host had there, is the model's choice (DESIGN CHOICE, log entry 32). -/
def Front.writeResult (f : Front) (slot : Fin 32) (kind : Byte) (notify : Bool) (tag : Half) (c : Completion) : Front :=
  ((f.write (slotAt slot + 48) (padTo 12 c.data)).write (slotAt slot + 4) (leBytes 2 tag.toNat ++ leBytes 2 (resultCode c.code))).write
    (slotAt slot) [3, kind, boolByte notify, resultFlags c.clamped c.transferFailed]

/-- The in-flight entry of a slot (R159). -/
def Front.entryOf (f : Front) (slot : Fin 32) : Option InFlight := f.inFlight.find? fun e => decide (e.slot = slot)

/-- A request in flight completes (R162). -/
def Front.complete (f : Front) (slot : Fin 32) (c : Completion) : Front :=
  match f.entryOf slot with
  | none => f
  | some e =>
    let g := f.writeResult slot e.kind e.notify e.tag c
    let h := { g with inFlight := g.inFlight.filter fun x => decide (x.slot ≠ slot) }
    if e.notify then h.raise .reqDone else h

end Sys2Proof.Machine
end

