-- ==== Sys2Proof/Machine/Hold.lean ====
section
/-! DEFINITION. HLD: placements, removals, the table's outputs and the storage acknowledgement wait (chapter 3). The reaction of the bays to a changed latch demand is in Bay.lean. -/

namespace Sys2Proof.Machine

/-! ## The table (R50 to R54) -/

/-- A position holds this pair of holder and target. -/
def isPair (h : Holder) (t : Target) : Option HoldEntry → Bool
  | some e => decide (e.holder = h) && decide (e.target = t)
  | none => false

/-- The position of the pair, if it stands (R51). -/
def positionOf (h : Holder) (t : Target) (es : List (Option HoldEntry)) : Option Nat := es.findIdx? (isPair h t)

/-- The lowest free position (R50). -/
def freePosition (es : List (Option HoldEntry)) : Option Nat := es.findIdx? Option.isNone

/-- A placement's outcome with its position (R51). -/
inductive Placement where
  | new (position : Nat)
  | refreshed (position : Nat)
  | refused
  deriving DecidableEq, Repr

/-- The number of SOFTWARE entries. -/
def softwareCount (es : List (Option HoldEntry)) : Nat :=
  (es.filter fun o => match o with
    | some e => decide (e.holder = .software)
    | none => false).length

/-- HLD decides a placement by the table as it stands (R51). A refresh keeps placed-at and the position. -/
def decidePlacement (e : HoldEntry) (es : List (Option HoldEntry)) : Placement :=
  match positionOf e.holder e.target es with
  | some n => .refreshed n
  | none =>
    if e.holder = .software ∧ Config.softwareLimit ≤ softwareCount es then .refused
    else
      match freePosition es with
      | some n => .new n
      | none => .refused

/-- When the pair at a position was first placed. -/
def placedAtOf (es : List (Option HoldEntry)) (n : Nat) (now : Nat) : Nat :=
  match es[n]? with
  | some (some e) => e.placedAt
  | _ => now

/-- The table after a placement (R51). -/
def placeEntry (e : HoldEntry) (es : List (Option HoldEntry)) : List (Option HoldEntry) :=
  match decidePlacement e es with
  | .new n => es.set n (some e)
  | .refreshed n => es.set n (some { e with placedAt := placedAtOf es n e.placedAt })
  | .refused => es

/-- The table with every entry of a kind removed; the others keep their positions (R50). -/
def removeEntries (gone : HoldEntry → Bool) (es : List (Option HoldEntry)) : List (Option HoldEntry) :=
  es.map fun o => match o with
    | some e => if gone e then none else some e
    | none => none

/-- The set of entries and their reserves: what a budget pass can see of the table (R57). -/
def tableShape (es : List (Option HoldEntry)) : List (Option (Holder × Target × Nat)) :=
  es.map fun o => o.map fun e => (e.holder, e.target, e.reserve)

/-! ## Outputs and the acknowledgement wait (R57, R59, R60) -/

/-- HLD republishes the hold mirror page (R57). -/
def Power.publishMirror (p : Power) : Power := { p with toFront := p.toFront.publish .mirror (mirrorPage p.hld) }

/-- A block makes a record. -/
def Power.makeRecord (p : Power) (r : LogRecord) : Power := { p with toFront := p.toFront.makeRecord r }

/-- A block makes a record with its tied event. -/
def Power.makeTied (p : Power) (r : LogRecord) (o : Occurrence) : Power := { p with toFront := p.toFront.makeTied r o }

/-- MOT writes its deferred DROP records in the order they fell due, with HLD's outcome and the bay states at the writing (R116). -/
def Power.writeDrops (p : Power) : Power :=
  { p with
    toFront := p.drops.foldl (fun f d => f.writeDrop d p.hld.outcome p.bayA.state p.bayB.state) p.toFront
    drops := [] }

/-- FHU writes the deferred HOLDOVER_END record of an exhaustion with the outcome HLD holds (R46). -/
def Power.writeDeferredEnd (p : Power) : Power :=
  match p.fhu.deferredEnd with
  | none => p
  | some d =>
    ({ p with fhu := { p.fhu with deferredEnd := none } }).makeRecord (.holdoverEnd .exhausted d.duration d.planned p.hld.outcome)

/-- The acknowledgement wait ends: the outcome is stored, the page republished, the outcome reported first to MOT, then to FHU (R60). -/
def Power.endWait (p : Power) (o : AckOutcome) : Power :=
  ({ p with hld := { p.hld with wait := none, outcome := o } }).publishMirror.writeDrops.writeDeferredEnd

/-- The wait's first moment, at a rise of the quiesce line (R60). -/
def HoldTable.startWait (h : HoldTable) (now : Nat) : HoldTable := { h with wait := some (now + 50), outcome := .pending }

/-- HLD's outputs after the table has become `es`: the quiesce line with its wait, the mirror page, and the HOLD pass where the
set of entries or a reserve changed (R57, R59, R60). -/
def Power.putTable (p : Power) (es : List (Option HoldEntry)) : Power :=
  let h := { p.hld with entries := es }
  let rises := !p.hld.quiesce && h.quiesce
  let falls := p.hld.quiesce && !h.quiesce
  let q := ({ p with
    hld := if rises then h.startWait p.tmb.uptime else h
    due := { p.due with hold := p.due.hold || decide (tableShape es ≠ tableShape p.hld.entries) } }).publishMirror
  if rises && p.hld.ackLine then q.endWait .acked
  else if falls && p.hld.wait.isSome then q.endWait .notAcked
  else q

/-- FHU places its ENERGY hold on STORAGE (R56). -/
def Power.placeEnergy (p : Power) : Power :=
  p.putTable (placeEntry ⟨.energy, .storage, Config.energyReserve, p.tmb.uptime, none⟩ p.hld.entries)

/-- FHU lifts its ENERGY hold (R47, R56). -/
def Power.liftEnergy (p : Power) : Power :=
  let es := removeEntries (fun e => decide (e.holder = .energy)) p.hld.entries
  if es = p.hld.entries then p else p.putTable es

end Sys2Proof.Machine
end

