-- ==== Sys2Proof/Machine/Feed.lean ====
section
/-! DEFINITION. The bay record's setters (R2, R9) and FHU's own operations: the factors, feed choice, the holdover plan, switchover commands, holdover and the move of the feed kind (chapter 2). -/

namespace Sys2Proof.Machine

/-! ## Setting bay records -/

/-- A bay record replaced. -/
def Power.setBay (p : Power) (b : Bay) (r : BayRec) : Power :=
  match b with
  | .A => { p with bayA := r }
  | .B => { p with bayB := r }

/-- A pack link replaced. -/
def Power.setLink (p : Power) (b : Bay) (l : Link) : Power :=
  match b with
  | .A => { p with linkA := l }
  | .B => { p with linkB := l }

/-- The bay is identified and in a state that is polled (R9, note 3 to Table 1-1). -/
def BayState.polls : BayState → Bool
  | .standby => true
  | .feeding _ => true
  | .fault r => decide (r = .thermal)
  | .releaseWait r =>
    match r.former with
    | .standby => true
    | .feeding => true
    | .fault x => decide (x = .thermal)
    | .seated => false
  | .empty => false
  | .seated _ => false
  | .opened _ => false

/-- The bay enters a state. Where it is neither polled nor identifying, a transaction in progress is abandoned and the poll period stops (R9). -/
def Power.setState (p : Power) (b : Bay) (st : BayState) : Power :=
  let q := p.setBay b { p.bay b with state := st }
  match st with
  | .seated _ => q
  | _ => if st.polls then q else q.setLink b { p.link b with activity := .idle, pollAt := none }

/-- The refusal blink of a bay. -/
def Power.setBlink (p : Power) (b : Bay) (e : Option Nat) : Power := p.setBay b { p.bay b with blinkEnd := e }

/-- Entry to SEATED: records cleared, the 2 s deadline, identification from block 0 (R3, R7, R21). -/
def Power.enterSeated (p : Power) (b : Bay) : Power :=
  (p.setBay b { p.bay b with
      state := .seated (p.tmb.uptime + 2000)
      identity := none
      packState := none
      failedPolls := 0 }).setLink b { p.link b with activity := .identRead 0 false p.tmb.uptime, pollAt := none }

/-- A PACK_FAULT record: the bay, the reason, the serial or zeros (R10). -/
def Power.packFault (p : Power) (b : Bay) (r : FaultReason) : Power :=
  p.makeRecord (.packFault b r (((p.bay b).identity.map fun i => i.serial).getD 0))

/-! ## Factors and P_pack (R67, R37) -/

/-- T_factor (Table 4-3). -/
def tFactor (t : Int) : Nat :=
  if t < -200 then 40 else if t < 0 then 70 else if t < 450 then 100 else if t < 600 then 80 else 50

/-- S_factor (Table 4-4). -/
def sFactor (soc : Nat) : Nat := if 20 ≤ soc then 100 else if 10 ≤ soc then 75 else 50

/-- P_pack = P_pack_max × T_factor × S_factor / 10,000, truncated (R37, R67). -/
def packPower (packMax tf sf : Nat) : Nat := packMax * tf * sf / 10000

/-- P_pack of a bay from its own records; 0 without them. -/
def BayRec.power (r : BayRec) : Nat :=
  match r.identity, r.packState with
  | some i, some k => packPower i.packMax (tFactor k.temperature) (sFactor k.soc)
  | _, _ => 0

/-- The state of charge that the pack state record shows; 0 without one. -/
def BayRec.soc (r : BayRec) : Nat := (r.packState.map fun k => k.soc).getD 0

/-! ## Choosing (R29, R37, R43) -/

/-- A candidate of the feed choice rule (R29). -/
def BayRec.candidate (r : BayRec) : Bool := r.state.isStandby && r.packState.isSome && decide (5 ≤ r.soc)

/-- The feed preference between two candidates (R29). -/
def preferred (pref : Preference) (socA socB : Nat) : FeedKind :=
  match pref with
  | .bayAFirst => .bayA
  | .bayBFirst => .bayB
  | .higherCharge => if socA < socB then .bayB else .bayA

/-- The feed choice rule (R29). -/
def Power.choose (p : Power) : FeedKind :=
  if p.feed.dcPresent then .dc
  else if p.bayA.candidate then
    (if p.bayB.candidate then preferred p.feed.preference p.bayA.soc p.bayB.soc else .bayA)
  else if p.bayB.candidate then .bayB
  else .reservoir

/-- What FHU reads from SFE and BLC: P_sys, P_bl_meas, P_bl_max, d_floor (R37, R43). -/
structure Loads where
  pSys   : Nat
  pBl    : Nat
  pBlMax : Nat
  dFloor : Nat
  deriving DecidableEq, Repr

/-- The other bay qualifies for a takeover (R37). -/
def BayRec.qualifies (r : BayRec) (l : Loads) : Bool := r.candidate && decide (l.pSys ≤ r.power)

/-- P_lean = P_plat + R_prot + P_bl_max × d_floor / 1024 (R43). -/
def Loads.lean (l : Loads) (rProt : Nat) : Nat := (l.pSys - l.pBl) + rProt + l.pBlMax * l.dFloor / 1024

/-- The holdover plan test against an E_shut (R43). -/
def planResult (f : FeedRec) (eShut pLean : Nat) : PlanResult :=
  if f.pResLimit < pLean then .failPower
  else if f.eAvail < eShut + pLean * f.tSwap then .failEnergy
  else .pass

/-- The plan test is made, with the E_shut in force since the last recomputation of E_avail (R49), and its outcome stored (R43). -/
def Power.planTest (p : Power) (l : Loads) : Power :=
  { p with feed := { p.feed with lastPlan := planResult p.feed p.fhu.eShutInForce (l.lean p.hld.rProt) } }

/-- The reservoir step of a candidate list: the plan is tested, and RESERVOIR chosen if it passes (R34, R37). -/
def Power.planReservoir (p : Power) (l : Loads) : Power × Option FeedKind :=
  let q := p.planTest l
  (q, if q.feed.lastPlan = .pass then some .reservoir else none)

/-- The candidate list of a takeover (R37), or of a fault move (R34), away from bay `x`; `reservoir`: the list ends with RESERVOIR. -/
def Power.findSource (p : Power) (l : Loads) (x : Bay) (reservoir : Bool) : Power × Option FeedKind :=
  if p.feed.dcPresent then (p, some .dc)
  else if (p.bay (otherBay x)).qualifies l then (p, some (feedOf (otherBay x)))
  else if reservoir then p.planReservoir l
  else (p, none)

/-! ## Switchover (R35) -/

/-- The switches with only this feed's path closed; RESERVOIR has none (Table 2-1). -/
def switchesFor : FeedKind → Switches
  | .dc => ⟨true, false, false⟩
  | .bayA => ⟨false, true, false⟩
  | .bayB => ⟨false, false, true⟩
  | .reservoir => ⟨false, false, false⟩

/-- Both paths closed: the present feed's and a new one's. -/
def Switches.join (a b : Switches) : Switches := ⟨a.dc || b.dc, a.a || b.a, a.b || b.b⟩

/-- The command of a switchover: the target's switch closes, or for RESERVOIR the feed bay's opens; the deadline is 20 ms later (R35, step 1). -/
def Power.startSwitchover (p : Power) (target : FeedKind) (purpose : Purpose) : Power :=
  { p with
    feed := { p.feed with switchover := some ⟨target, purpose, p.tmb.uptime + 20⟩ }
    fhu := { p.fhu with
      switches := if target = .reservoir then switchesFor .reservoir else (switchesFor p.feed.kind).join (switchesFor target) } }

/-- One more switchover failure, saturating at 65,535 (Table 2-2). -/
def failuresSucc (n : Nat) : Nat := if n < 65535 then n + 1 else n

/-- The reversion: the target path reopens, or the bay switch recloses, and the failure is counted (R35, step 3). -/
def Power.revertSwitchover (p : Power) : Power :=
  { p with
    feed := { p.feed with switchover := none, failures := failuresSucc p.feed.failures }
    fhu := { p.fhu with switches := switchesFor p.feed.kind } }

/-! ## Holdover (R44, R45, R47) -/

/-- A holdover begins (R44). -/
def Power.beginHoldover (p : Power) (planned : Bool) : Power :=
  { p with
    toFront := p.toFront.raise .lean
    feed := { p.feed with holdover := some ⟨planned, p.tmb.uptime, false⟩, lean := true } }

/-- The holdover fields and lean cleared, EXHAUSTED removed from the causes (R45, R47). -/
def Power.clearHoldover (p : Power) : Power :=
  { p with
    feed := { p.feed with
      holdover := none
      lean := false
      causes := { p.feed.causes with exhausted := false } } }

/-- A source arrives in holdover: the record of R45, or after exhaustion the deferred record, if it still waits, and the lift of the ENERGY hold (R46, R47). -/
def Power.endHoldover (p : Power) (cause : HoldoverEndCause) : Power :=
  match p.feed.holdover with
  | none => p
  | some h =>
    if h.exhausted then p.writeDeferredEnd.clearHoldover.liftEnergy
    else p.clearHoldover.makeRecord (.holdoverEnd cause ((p.tmb.uptime - h.start) / 1000) h.planned p.hld.outcome)

/-! ## Moving the feed (R2, R27) -/

/-- Causes of a move, as R2 tells them apart. -/
inductive MoveCause where
  | ordinary | takeover | collapse
  deriving DecidableEq, Repr

/-- The first of PACK, LINK, THERMAL in a set (R2). -/
def FaultSet.first (f : FaultSet) : Option FaultReason :=
  if f.pack then some .pack else if f.link then some .link else if f.thermal then some .thermal else none

/-- No standing fault. -/
def noFaults : FaultSet := ⟨false, false, false⟩

/-- The reason with which the feed leaves a bay (R2). -/
def leaveReason (cause : MoveCause) (standing : FaultSet) : Option FaultReason :=
  if cause = .collapse then some .pack else standing.first

/-- The state of the old feed bay once the feed has left it (R2). -/
def stateAfterFeed (cause : MoveCause) (target : FeedKind) : BayState → BayState
  | .feeding f =>
    match leaveReason cause f with
    | none => .standby
    | some r => .fault r
  | .releaseWait r =>
    .releaseWait { r with
      former := match leaveReason cause r.standing with
        | none => .standby
        | some x => .fault x
      standing := noFaults
      takeover := if cause = .takeover then some target else r.takeover }
  | st => st

/-- The old feed's bay takes the state of R2. -/
def Power.leaveFeed (p : Power) (cause : MoveCause) (target : FeedKind) : Power :=
  match p.feed.kind.bay with
  | none => p
  | some x => p.setState x (stateAfterFeed cause target (p.bay x).state)

/-- The new feed's bay enters FEEDING, its standing faults empty (R2). -/
def Power.joinFeed (p : Power) (target : FeedKind) : Power :=
  match target.bay with
  | none => p
  | some b => p.setState b (.feeding noFaults)

/-- FHU's own fields at a move: the kind, its switch alone closed, no switchover, pending move and its causes withdrawn (R33, R34, R39). -/
def Power.putFeed (p : Power) (target : FeedKind) : Power :=
  { p with
    feed := { p.feed with
      kind := target
      switchover := none
      pending := ⟨false, false⟩
      causes := { p.feed.causes with faulted := false, lowCharge := false } }
    fhu := { p.fhu with switches := switchesFor target, dueInFlight := ⟨false, false⟩, collapseFrom := p.tmb.uptime }
    due := { p.due with feed := true } }

/-- A move of the feed kind, made whole at one event (R27): the old bay, the kind, the new bay, the holdover that begins or ends.
`planned` says which holdover a move into RESERVOIR begins (R44). -/
def Power.moveFeed (p : Power) (target : FeedKind) (cause : MoveCause) (planned : Bool) : Power :=
  let old := p.feed.kind
  let q := ((p.leaveFeed cause target).putFeed target).joinFeed target
  if target = .reservoir then (if old = .reservoir then q else q.beginHoldover planned)
  else if old = .reservoir then q.endHoldover (if target = .dc then .dc else .pack)
  else q

end Sys2Proof.Machine
end

