-- ==== Sys2Proof/Machine/PowerOn.lean ====
section
/-! DEFINITION. The power-on state of every block (R175, Table 11-3) and the initialisation of the exchange area (R156). -/

namespace Sys2Proof.Machine

/-- A bay record at power-on reset, the latch sense as read (Table 1-2). -/
def powerOnBay (latchOpen : Bool) : BayRec where
  state := .empty
  identity := none
  packState := none
  failedPolls := 0
  blinkEnd := none
  presence := false
  latchOpen := latchOpen

/-- A pack link with nothing in progress. -/
def idleLink : Link := ⟨.idle, 0, 0, 0, none⟩

/-- The feed record at power-on reset: the start-up condition and the defaults (Table 2-2). -/
def powerOnFeed : FeedRec where
  kind := .reservoir
  dcPresent := false
  holdover := none
  lean := false
  eAvail := 0
  remaining := 0
  switchover := none
  pending := ⟨false, false⟩
  causes := ⟨false, false, false⟩
  lastPlan := .none
  failures := 0
  preference := .higherCharge
  tSwap := 30
  margin := 10
  pAdapter := 65000
  resC := 20000
  vMin := 4500
  eShut := 150000
  pResLimit := 25000

/-- No pass cause. -/
def noCauses : PassCauses := ⟨false, false, false, false, false⟩

/-- The hold table at power-on reset: every position free, outcome NONE (R50). -/
def powerOnHolds : HoldTable := ⟨List.replicate Config.holdPositions none, none, .none, false⟩

/-- The budget record at power-on reset (Table 4-2). -/
def powerOnBudget : BudgetRec where
  passCount := 0
  passUptime := 0
  causes := noCauses
  feedUsed := .reservoir
  factors := none
  conditions := ⟨false, false, false⟩
  pFeed := 0
  usable := 0
  pPlat := 0
  rProt := 0
  aRaw := 0
  aBl := 0
  dAllow := 0
  dTherm := 512
  dTarget := 0
  ceiling := 40
  dCmd := 40
  pChg := 0
  deficit := false
  capped := none

/-- The default curve (R82). -/
def defaultCurve : List CurvePoint := [⟨0, 80⟩, ⟨1000, 300⟩, ⟨20000, 800⟩, ⟨100000, 1400⟩]

/-- The default panel configuration (Table 5-3). -/
def defaultPanel : PanelConfig := ⟨20, 1400, 9600, 40, 8, 2, 64, 8⟩

/-- The light record at power-on reset (Table 5-2). -/
def powerOnLight : LightRec where
  ambient := .none
  lastL := 0
  lastSampleAt := none
  filtered := 0
  curve := defaultCurve
  curveVersion := 0
  pendingCurve := none
  mode := .auto
  bias := 0
  manualLevel := 400
  panel := defaultPanel
  nc := 80
  nb := 80
  dTarget := 59
  pendingDuty := 40
  ceiling := 40
  liveDuty := 0
  appMode := .freeRun 16
  panelEnable := false

/-- The default motion configuration (Table 6-4). -/
def defaultMotion : MotionConfig := ⟨350, 48, 4000, 900, 1100, 800, 1500, 4000, true, true⟩

/-- The motion record at power-on reset (Table 6-2), the ring empty (R121), the averages 0 (log entry 36). -/
def powerOnMotion : MotionRec where
  state := .sensorLost
  health := .none
  index := 0
  lastSample := none
  orientation := .unknown
  averages := ⟨0, 0, 0⟩
  window := []
  freeFall := ⟨0, 0, .unknown⟩
  caught := ⟨0, 0⟩
  settleRun := 0
  lastImpact := ⟨0, false, .unknown⟩
  lastFallMs := 0
  lastHeight := 0
  liftDeadline := none
  watchDeadline := 10
  config := defaultMotion
  ring := []
  group := none

/-- The trace record at power-on reset (Table 7-2). -/
def powerOnTrace : TraceRec := ⟨.free, 0, 0, 0, 0, 0, 0, .none, 0xFFFFFFFF⟩

/-- A monitor at power-on reset (Table 8-1). -/
def powerOnMonitor : Monitor := ⟨⟨.fall, 0, 0, false, false, false, .none⟩, 0, false, false, false, none⟩

/-- The timebase at power-on reset (Table 9-1). -/
def powerOnTime : Timebase := ⟨0, 0, false, none, none⟩

/-- SFE at power-on reset: all readings 0, every health NONE (Table 11-3). -/
def powerOnSensors : SfeRec := ⟨⟨0, 0, 0, 0, 0, 0, 0, 0, 0⟩, .none, 0, 0, .none, 0⟩

/-- Before any block publishes: the layout version and part revision of the area header; every other byte as unlisted (R156). -/
def initialMem : Mem :=
  writeBytes [] 0 (leBytes 2 Config.layoutVersion ++ leBytes 2 Config.partRevision)

/-- The power-on state of every block, before the pages and the RESTART record are written (Table 11-3). The generations stand at 0, so that each page's first writing gives it 2. -/
def powerOnRecords (latchOpenA latchOpenB : Bool) : Blocks where
  mem := initialMem
  summary := 0
  summaryEnable := 0
  exchangeEnable := false
  lastSlot := 31
  inFlight := []
  restartCount := 0
  gens := ⟨0, 0, 0, 0, 0, 0⟩
  log := ⟨0, 0, 0⟩
  monitors := List.replicate 8 powerOnMonitor
  tmb := powerOnTime
  trc := powerOnTrace
  bayA := powerOnBay latchOpenA
  bayB := powerOnBay latchOpenB
  linkA := idleLink
  linkB := idleLink
  bayPolicy := ⟨100, 15, 10⟩
  assignment := none
  feed := powerOnFeed
  fhu := ⟨⟨false, false, false⟩, ⟨false, false⟩, none, 0, powerOnFeed.eShut⟩
  hld := powerOnHolds
  drops := []
  due := noCauses
  powered := true
  sfe := powerOnSensors
  bud := powerOnBudget
  blc := powerOnLight
  mot := powerOnMotion
  timers := ⟨100, 20, 250, 50, 1000, 10, 100⟩

/-- The six pages at generation 2 and the trace header (R156). -/
def powerOnFront (s : Blocks) : Front :=
  ((((((s.toFront.publish .energy (energyPage s)).publish .light (lightPage s)).publish .motion (motionPage s.mot)).publishMonitors).publish
    .mirror (mirrorPage s.hld)).publishTime).putTraceHeader

/-- Power-on reset: the power-on states, the exchange area, the RESTART(POWER_ON) record; SUMMARY holds RESTART alone (R175). -/
def powerOnBlocks (latchOpenA latchOpenB : Bool) : Blocks :=
  let s := powerOnRecords latchOpenA latchOpenB
  { s with toFront := { (powerOnFront s).makeRecord (.restart false 0) with summary := flagBit .restart } }

end Sys2Proof.Machine
end

