-- ==== Sys2Proof/Machine/Bay.lean ====
section
/-! DEFINITION. The bays and FHU acting on one another: choice points and pending moves (R30, R33, R34), releases (R14 to R21), switchover outcomes (R35, R36, R38), unplanned loss (R39), and the bays' reaction to the hold table (R16, R58). -/

namespace Sys2Proof.Machine

/-! ## Choice points and pending moves -/

/-- The choice point from RESERVOIR (R30). -/
def Power.choicePoint (p : Power) : Power :=
  if p.feed.kind = .reservoir then (if p.choose = .reservoir then p else p.moveFeed p.choose .ordinary false) else p

/-- FAULTED_FEED is recorded as pending, and as a shutdown cause (R34). -/
def Power.recordFaulted (p : Power) : Power :=
  { p with feed := { p.feed with
      pending := { p.feed.pending with faulted := true }
      causes := { p.feed.causes with faulted := true } } }

/-- LOW_CHARGE is recorded as pending, and as a shutdown cause (R33). -/
def Power.recordLow (p : Power) : Power :=
  { p with feed := { p.feed with
      pending := { p.feed.pending with lowCharge := true }
      causes := { p.feed.causes with lowCharge := true } } }

/-- FHU seeks a fault move of bay `x` with the candidate list as it stands; no switchover is in flight (R34). -/
def Power.examineFault (p : Power) (l : Loads) (x : Bay) : Power :=
  let st := (p.bay x).state.standing
  let r := p.findSource l x (st.pack || st.thermal)
  match r.2 with
  | some t => r.1.startSwitchover t .faultMove
  | none => r.1.recordFaulted

/-- FHU seeks a changeover of bay `x`; no switchover is in flight (R33). -/
def Power.examineChangeover (p : Power) (l : Loads) (x : Bay) : Power :=
  if (p.bay (otherBay x)).qualifies l then p.startSwitchover (feedOf (otherBay x)) .changeover else p.recordLow

/-- A low bay whose FAULTED_FEED is pending too: one move, by the fault list (R34). -/
def Power.examineBoth (p : Power) (l : Loads) (x : Bay) : Power :=
  let q := ({ p with feed := { p.feed with pending := { p.feed.pending with lowCharge := true } } }).examineFault l x
  if q.feed.switchover.isSome then q else q.recordLow

/-- A re-examination point of the pending move (R34). -/
def Power.reexamine (p : Power) (l : Loads) : Power :=
  match p.feed.kind.bay with
  | none => p
  | some x =>
    if p.feed.switchover.isSome then p
    else if p.feed.pending.faulted then (if p.feed.pending.lowCharge then p.examineBoth l x else p.examineFault l x)
    else if p.feed.pending.lowCharge then p.examineChangeover l x
    else p

/-- A standing fault is reported to FHU; with a switchover in flight the move waits as pending (R34, R35). -/
def Power.seekFaultMove (p : Power) (l : Loads) (x : Bay) : Power :=
  if p.feed.switchover.isSome then
    { p with
      feed := { p.feed with pending := { p.feed.pending with faulted := true } }
      fhu := { p.fhu with dueInFlight := { p.fhu.dueInFlight with faulted := true } } }
  else if p.feed.pending.lowCharge then p.examineBoth l x
  else p.examineFault l x

/-- The feed bay's charge is at 3 % or less (R33). -/
def Power.seekChangeover (p : Power) (l : Loads) (x : Bay) : Power :=
  if p.feed.switchover.isSome then
    { p with
      feed := { p.feed with pending := { p.feed.pending with lowCharge := true } }
      fhu := { p.fhu with dueInFlight := { p.fhu.dueInFlight with lowCharge := true } } }
  else if p.feed.pending.faulted then p.examineBoth l x
  else p.examineChangeover l x

/-- The moves that became due while a switchover was in flight are examined at its end (R35). -/
def Power.examineDue (p : Power) (l : Loads) (x : Bay) : Power :=
  let d := p.fhu.dueInFlight
  let q := { p with fhu := { p.fhu with dueInFlight := ⟨false, false⟩ } }
  if d.faulted then (if p.feed.pending.lowCharge then q.examineBoth l x else q.examineFault l x)
  else if d.lowCharge then (if p.feed.pending.faulted then q.examineBoth l x else q.examineChangeover l x)
  else q

/-- A bay has entered STANDBY: a choice point from RESERVOIR (R30), else a re-examination point (R34). -/
def Power.enteredStandby (p : Power) (l : Loads) (b : Bay) : Power :=
  if (p.bay b).state.isStandby then (if p.feed.kind = .reservoir then p.choicePoint else p.reexamine l) else p

/-! ## The end of a release -/

/-- Result data of a release: the bay, the takeover source, the wait from the request in ms (Table 10-8). -/
def releaseData (b : Bay) (r : Release) (now : Nat) : List Byte :=
  [bayCode b, takeoverCode r.takeover, 0, 0] ++ leBytes 4 (now - r.requestAt)

/-- A software release's slot completes with the release's result (R14). -/
def Power.completeRelease (p : Power) (b : Bay) (r : Release) (code : ResultCode) (failed : Bool) : Power :=
  match r.origin with
  | .button => p
  | .software s =>
    if r.slotOpen then { p with toFront := p.toFront.complete s ⟨code, false, failed, releaseData b r p.tmb.uptime⟩ } else p

/-- The bay takes the former state as it stands; SEATED starts identification afresh (R13). A release that started on a FAULT bay and
ends HOLD_TIMEOUT or CANCELLED re-enters that FAULT here. R10 has each entry into FAULT write a PACK_FAULT record and excepts the reasons
that joined by R12 and R13, of which this one need not be; R16 and R20 list none. That none is written is the model's choice (DESIGN
CHOICE, log entry 34). -/
def Power.takeFormer (p : Power) (b : Bay) (r : Release) : Power :=
  match r.former with
  | .seated => p.enterSeated b
  | .standby => p.setState b .standby
  | .feeding => p.setState b (.feeding r.standing)
  | .fault x => p.setState b (.fault x)

/-- The qualifier bit of a RELEASE_REFUSED event (Table 8-2). -/
def refusalBit : RefusalReason → Byte
  | .noTakeover => 1
  | .holdTimeout => 2
  | .latchStuck => 4

/-- The result code of a refusal. -/
def refusalResult : RefusalReason → ResultCode
  | .noTakeover => .noTakeover
  | .holdTimeout => .holdTimeout
  | .latchStuck => .latchStuck

/-- What every refusal does once the bay has its state: the record and its event, the blink, the slot (R16, R18, R19). -/
def Power.refuse (p : Power) (b : Bay) (r : Release) (reason : RefusalReason) (failed : Bool) : Power :=
  let q := p.makeTied (.releaseRefused b reason failed r.origin) ⟨.releaseRefused, refusalBit reason, none⟩
  let q := if reason = .latchStuck then q.packFault b .latch else q
  (q.setBlink b (some (p.tmb.uptime + 2000))).completeRelease b r (refusalResult reason) failed

/-- A release ends NO_TAKEOVER or HOLD_TIMEOUT: the bay returns to its former state (R16, R18). -/
def Power.endRefused (p : Power) (l : Loads) (b : Bay) (r : Release) (reason : RefusalReason) (failed : Bool) : Power :=
  ((p.takeFormer b r).refuse b r reason failed).enteredStandby l b

/-- A release ends LATCH_STUCK: FAULT(LATCH) (R19). -/
def Power.endStuck (p : Power) (b : Bay) (r : Release) : Power := (p.setState b (.fault .latch)).refuse b r .latchStuck false

/-- A release ends CANCELLED (R18, R20). -/
def Power.endCancelled (p : Power) (l : Loads) (b : Bay) (r : Release) : Power :=
  ((p.takeFormer b r).completeRelease b r .cancelled false).enteredStandby l b

/-- The qualifier bit of a SWAP event (Table 8-2). -/
def swapBit : FeedKind → Byte
  | .dc => 1
  | .bayA => 2
  | .bayB => 2
  | .reservoir => 4

/-- The latch is confirmed open: OPEN, the SWAP record if a takeover source is present, the slot OK (R19). -/
def Power.confirmOpen (p : Power) (b : Bay) (r : Release) : Power :=
  let q := p.setState b (.opened (p.tmb.uptime + p.bayPolicy.openWindow * 1000))
  let q := match r.takeover with
    | none => q
    | some t => q.makeTied (.swap b t (p.tmb.uptime - r.requestAt) r.origin) ⟨.swap, swapBit t, none⟩
  q.completeRelease b r .ok false

/-! ## The sub-states of RELEASE_WAIT -/

/-- Entry to UNLATCHING: the 500 ms unlatch wait; a sense that reads open confirms at once (R19; log entry 24). -/
def Power.enterUnlatching (p : Power) (b : Bay) (r : Release) : Power :=
  let u : Release := { r with sub := .unlatching (p.tmb.uptime + 500) }
  let q := p.setState b (.releaseWait u)
  if (p.bay b).latchOpen then q.confirmOpen b u else q

/-- Entry to HELD; past the limit the release ends HOLD_TIMEOUT at that same entry (R16). -/
def Power.enterHeld (p : Power) (l : Loads) (b : Bay) (r : Release) : Power :=
  let h : Release := { r with sub := .held }
  if r.limitAt ≤ p.tmb.uptime then p.endRefused l b h .holdTimeout false else p.setState b (.releaseWait h)

/-- FHU reports no takeover, or a takeover not confirmed (`failed`), to a bay in TRANSFER (R18). -/
def Power.transferRefused (p : Power) (l : Loads) (b : Bay) (failed : Bool) : Power :=
  match (p.bay b).state with
  | .releaseWait r =>
    match r.sub with
    | .transfer true => p.endCancelled l b r
    | .transfer false => p.endRefused l b r .noTakeover failed
    | _ => p
  | _ => p

/-- FHU reports takeover confirmed to a bay in TRANSFER (R18). -/
def Power.transferConfirmed (p : Power) (l : Loads) (b : Bay) : Power :=
  match (p.bay b).state with
  | .releaseWait r =>
    match r.sub with
    | .transfer true => p.endCancelled l b r
    | .transfer false => if p.hld.demand b then p.enterHeld l b r else p.enterUnlatching b r
    | _ => p
  | _ => p

/-- FHU plans the takeover that a TRANSFER asks for (R37). -/
def Power.planTakeover (p : Power) (l : Loads) (b : Bay) : Power :=
  let r := p.findSource l b true
  match r.2 with
  | some t => r.1.startSwitchover t .takeover
  | none => r.1.transferRefused l b false

/-- Entry to TRANSFER: a switchover in flight is taken as the takeover asked for, else one is planned (R18, R36). -/
def Power.enterTransfer (p : Power) (l : Loads) (b : Bay) (r : Release) : Power :=
  let q := p.setState b (.releaseWait { r with sub := .transfer false })
  if q.feed.switchover.isSome then q else q.planTakeover l b

/-- A HELD bay whose latch no entry targets moves on: TRANSFER if it is still the feed, else UNLATCHING (R16). -/
def Power.moveOn (p : Power) (l : Loads) (b : Bay) (r : Release) : Power :=
  if p.feed.kind = feedOf b then p.enterTransfer l b r else p.enterUnlatching b r

/-- The bay is in RELEASE_WAIT(TRANSFER). -/
def BayState.inTransfer : BayState → Bool
  | .releaseWait r =>
    match r.sub with
    | .transfer _ => true
    | _ => false
  | _ => false

/-! ## Switchover outcomes -/

/-- Once no switchover is in flight: the waiting DC arrival moves the feed (R31), else the moves that fell due in flight are examined (R35). -/
def Power.afterSwitchover (p : Power) (l : Loads) : Power :=
  if p.feed.switchover.isSome then p
  else if p.feed.dcPresent && decide (p.feed.kind ≠ .dc) then p.moveFeed .dc .ordinary false
  else
    match p.feed.kind.bay with
    | none => p
    | some x => p.examineDue l x

/-- On reversion FHU plans the takeover that a TRANSFER asked for (R36). -/
def Power.replan (p : Power) (l : Loads) (x : Bay) : Power := if (p.bay x).state.inTransfer then p.planTakeover l x else p

/-- The outcome of a switchover that was not confirmed, by its purpose; a release that had adopted a fault move or changeover gets a takeover of its own planned (R35 to R37). -/
def Power.reportFailure (p : Power) (l : Loads) (x : Bay) (purpose : Purpose) : Power :=
  match purpose with
  | .takeover => p.transferRefused l x true
  | .faultMove =>
    (if (p.bay x).state.standing.isEmpty then p else p.recordFaulted).replan l x
  | .changeover => p.recordLow.replan l x

/-- A switchover is not confirmed: FHU reverts and reports (R35, step 3; R36). -/
def Power.failSwitchover (p : Power) (l : Loads) : Power :=
  match p.feed.switchover, p.feed.kind.bay with
  | some w, some x => (p.revertSwitchover.reportFailure l x w.purpose).afterSwitchover l
  | _, _ => p

/-- A bay has left STANDBY: a switchover to it is not confirmed (R36). -/
def Power.leftStandby (p : Power) (l : Loads) (b : Bay) : Power :=
  match p.feed.switchover with
  | some w => if w.target = feedOf b then p.failSwitchover l else p
  | none => p

/-- A switchover is confirmed: the feed moves, and a TRANSFER of the old feed bay gets its takeover (R35, step 2; R18, R36). -/
def Power.confirmSwitchover (p : Power) (l : Loads) : Power :=
  match p.feed.switchover, p.feed.kind.bay with
  | some w, some x =>
    (if (p.bay x).state.inTransfer then (p.moveFeed w.target .takeover true).transferConfirmed l x
     else (p.moveFeed w.target .ordinary true).enteredStandby l x).afterSwitchover l
  | _, _ => p

/-! ## Unplanned loss (R38 to R40) -/

/-- An unplanned loss of the present feed: the loss choice and its move, the FEED_LOST record, the emergency pass; a collapse in
TRANSFER reports takeover confirmed without a source. The FEED_LOST event follows the pass (R40, step 4). That the PACK_FAULT record of a
collapse comes after FEED_LOST is the model's choice (DESIGN CHOICE, log entry 9). -/
def Power.loss (p : Power) (l : Loads) (cause : LossCause) : Power :=
  let lost := p.feed.kind
  let q := p.moveFeed p.choose (if cause = .voltage then .collapse else .ordinary) false
  let q := q.makeRecord (.feedLost lost cause q.feed.kind q.feed.eAvail)
  let q := { q with due := { q.due with emergency := true, feed := true } }
  match lost.bay with
  | none => q
  | some x =>
    if cause = .voltage then
      (if (p.bay x).state.standing.pack then q else q.packFault x .pack).transferConfirmed l x
    else q

/-! ## Faults (R10 to R13) -/

/-- A bay enters FAULT by a finding (R10, R11). Where it was the target of the switchover of a TRANSFER, the switchover is reverted at this
same event and the releasing bay's release ends NO_TAKEOVER (R18, R36). No rule orders the PACK_FAULT record of the target and the
RELEASE_REFUSED record of the releasing bay: the model writes PACK_FAULT first (DESIGN CHOICE, log entry 9). -/
def Power.toFault (p : Power) (l : Loads) (b : Bay) (r : FaultReason) : Power :=
  let q := (p.setState b (.fault r)).packFault b r
  if (p.bay b).state.isStandby then q.leftStandby l b else q

/-- The reasons that can stand. -/
inductive Standing where
  | link | thermal | pack
  deriving DecidableEq, Repr

/-- A standing reason as a fault reason. -/
def Standing.reason : Standing → FaultReason
  | .link => .link
  | .thermal => .thermal
  | .pack => .pack

/-- The reason is in the set. -/
def FaultSet.has (f : FaultSet) : Standing → Bool
  | .link => f.link
  | .thermal => f.thermal
  | .pack => f.pack

/-- The set with a reason put in or taken out. -/
def FaultSet.put (f : FaultSet) (r : Standing) (v : Bool) : FaultSet :=
  match r with
  | .link => { f with link := v }
  | .thermal => { f with thermal := v }
  | .pack => { f with pack := v }

/-- The state with its standing faults replaced. -/
def BayState.withStanding (f : FaultSet) : BayState → BayState
  | .feeding _ => .feeding f
  | .releaseWait r => .releaseWait { r with standing := f }
  | st => st

/-- A fault found on the feed bay joins its standing faults, with a record, and is reported to FHU (R10, R12). -/
def Power.addStanding (p : Power) (l : Loads) (b : Bay) (r : Standing) : Power :=
  let st := (p.bay b).state
  if st.standing.has r then p
  else ((p.setState b (st.withStanding (st.standing.put r true))).packFault b r.reason).seekFaultMove l b

/-- A standing THERMAL is removed by cooling, and FHU is told: FAULTED_FEED is withdrawn if no reason is left, else examined anew (R11, R12, R34). -/
def Power.dropThermal (p : Power) (l : Loads) (b : Bay) : Power :=
  let st := (p.bay b).state
  let f := st.standing.put .thermal false
  if st.standing.thermal then
    let q := p.setState b (st.withStanding f)
    if f.isEmpty then
      { q with
        feed := { q.feed with
          pending := { q.feed.pending with faulted := false }
          causes := { q.feed.causes with faulted := false } }
        fhu := { q.fhu with dueInFlight := { q.fhu.dueInFlight with faulted := false } } }
    else if q.feed.pending.faulted then q.reexamine l
    else q
  else p

/-- A fault found in RELEASE_WAIT on a bay that is not the feed replaces the former state, with a record, unless it names PACK or that reason already (R13). -/
def Power.noteFormer (p : Power) (b : Bay) (r : Release) (x : Standing) : Power :=
  if r.former = .fault .pack ∨ r.former = .fault x.reason then p
  else (p.setState b (.releaseWait { r with former := .fault x.reason })).packFault b x.reason

/-- The pack reports a fault flag; bits 4..7 are ignored (Table 1-5). -/
def PackState.faulty (k : PackState) : Bool := decide (k.faultFlags &&& 0x0F ≠ 0)

/-- The findings of a successful poll on the feed bay (Table 1-6, column FEEDING). -/
def Power.judgeFeed (p : Power) (l : Loads) (b : Bay) (k : PackState) : Power :=
  if k.faulty then p.addStanding l b .pack
  else if 600 ≤ k.temperature then p.addStanding l b .thermal
  else if k.temperature < 550 then p.dropThermal l b
  else p

/-- The findings of a successful poll by the bay's state, the first that applies (Table 1-6, R13). -/
def Power.judgePoll (p : Power) (l : Loads) (b : Bay) (k : PackState) : Power :=
  if p.feed.kind = feedOf b then p.judgeFeed l b k
  else
    match (p.bay b).state with
    | .standby =>
      if k.faulty then p.toFault l b .pack else if 600 ≤ k.temperature then p.toFault l b .thermal else p
    | .fault .thermal =>
      if k.faulty then p.toFault l b .pack
      else if k.temperature < 550 then p.enterSeated b
      else p
    | .releaseWait r =>
      if k.faulty then p.noteFormer b r .pack
      else if 600 ≤ k.temperature then p.noteFormer b r .thermal
      else if k.temperature < 550 ∧ r.former = .fault .thermal then p.setState b (.releaseWait { r with former := .seated })
      else p
    | _ => p

/-- What a successful poll is to FHU: a changeover sought for the feed bay at 3 % or less (R33); for the other bay a choice point from RESERVOIR (R30) or a re-examination point (R34). -/
def Power.polledFeed (p : Power) (l : Loads) (b : Bay) (k : PackState) : Power :=
  if p.feed.kind = feedOf b then (if k.soc ≤ 3 then p.seekChangeover l b else p)
  else if p.feed.kind = .reservoir then (if (p.bay b).state.isStandby then p.choicePoint else p)
  else p.reexamine l

/-- The failed polls after a successful poll: 0, but 3 stays once the link is declared lost (R9). -/
def pollsAfterGood (n : Nat) : Nat := if n = 3 then 3 else 0

/-- The value of a level event of a temperature: a negative one as 0 (Table 8-2). -/
def heatValue (t : Int) : Nat := t.toNat

/-- The PACK_HOT event of a bay (Table 8-2). -/
def packHot (b : Bay) (t : Int) : Occurrence :=
  ⟨.packHot, match b with
    | .A => 1
    | .B => 2, some (heatValue t)⟩

/-- A poll succeeds: the record replaced and stamped, PACK_HOT, the findings (R9, R11). Where the findings fault the target of a switchover
in flight, the switchover is reverted by them (`judgePoll`, R36), and only then is the poll itself a re-examination point (`polledFeed`,
R34), which examines the pending move that the reversion has just recorded, at this same event. That order, and that the move is examined
again at once, is the model's choice (DESIGN CHOICE, log entry 35). Where one poll of the feed bay both adds a standing fault and reads 3 %
or less, R11, R12, R33 and R34 give no order: the fault move is sought first, and the changeover after it, so that a switchover that starts
is a FAULT_MOVE and LOW_CHARGE waits as pending. That order is the model's choice (DESIGN CHOICE, log entry 40). -/
def Power.pollGood (p : Power) (l : Loads) (b : Bay) (k : PackState) : Power :=
  let q := p.setBay b { p.bay b with
    packState := some { k with polledAt := some p.tmb.uptime }
    failedPolls := pollsAfterGood (p.bay b).failedPolls }
  let q := q.setLink b { q.link b with activity := .idle }
  (({ q with toFront := q.toFront.sendEvent (packHot b k.temperature) }).judgePoll l b k).polledFeed l b k

/-- The link of a bay is declared lost (Table 1-6, R12, R13). -/
def Power.linkLost (p : Power) (l : Loads) (b : Bay) : Power :=
  if p.feed.kind = feedOf b then p.addStanding l b .link
  else
    match (p.bay b).state with
    | .standby => p.toFault l b .link
    | .fault .thermal => p.toFault l b .link
    | .releaseWait r => p.noteFormer b r .link
    | _ => p

/-- A poll fails: the count rises to 3 at most; reaching 3 declares the link lost (R9). -/
def Power.pollBad (p : Power) (l : Loads) (b : Bay) : Power :=
  let n := (p.bay b).failedPolls
  let q := (p.setBay b { p.bay b with failedPolls := if n < 3 then n + 1 else n }).setLink b { p.link b with activity := .idle }
  if n = 2 then q.linkLost l b else q

/-! ## Identification (R6 to R8) -/

/-- Blocks 0 and 1 as an identity record (Table 1-5). -/
def decodeIdentity (b0 b1 : BitVec 128) : Identity where
  serial := b0.extractLsb' 0 64
  chemistry := b0.extractLsb' 64 8
  cells := blockByte b0 9
  designCapacity := blockField b0 10 3
  packMax := blockField b0 13 3
  maxCharge := blockField b1 0 3
  chargeVoltage := blockField b1 3 2
  week := blockField b1 5 2

/-- Blocks 2 and 3 as a pack state record (Table 1-5). -/
def decodePackState (b2 b3 : BitVec 128) (at? : Option Nat) : PackState where
  voltage := blockField b2 0 2
  current := signed16 (blockField b2 2 2)
  temperature := signed16 (blockField b2 4 2)
  soc := blockByte b2 6
  remaining := blockField b2 7 3
  cycles := blockField b3 0 2
  faultFlags := b3.extractLsb' 16 8
  polledAt := at?

/-- Identity validity (R7). -/
def Identity.valid (i : Identity) : Bool :=
  decide (1 ≤ i.cells) && decide (i.cells ≤ 6) && decide (1000 ≤ i.designCapacity) && decide (i.designCapacity ≤ 200000)
    && decide (5000 ≤ i.packMax) && decide (i.packMax ≤ 150000)

/-- All four blocks are held: the pack state is judged and the bay leaves SEATED; the poll period starts (R8). -/
def Power.identified (p : Power) (l : Loads) (b : Bay) (k : PackState) : Power :=
  let q := (p.setBay b { p.bay b with packState := some k, failedPolls := 0 }).setLink b
    { p.link b with activity := .idle, pollAt := some (p.tmb.uptime + 250) }
  if k.faulty then q.toFault l b .pack
  else if 600 ≤ k.temperature then q.toFault l b .thermal
  else if q.feed.kind = .reservoir ∧ 5 ≤ k.soc then q.moveFeed (feedOf b) .ordinary false
  else (q.setState b .standby).enteredStandby l b

/-! ## Starting and cancelling a release -/

/-- The former state that a release records, where one may start (R14, R15). -/
def BayState.former : BayState → Option FormerState
  | .seated _ => some .seated
  | .standby => some .standby
  | .feeding _ => some .feeding
  | .fault r => some (.fault r)
  | .empty => none
  | .opened _ => none
  | .releaseWait _ => none

/-- A release starts on a bay in a state with a former state (R15): HELD, TRANSFER or UNLATCHING first. Where the bay is the target of
a switchover in flight, R36 reverts at this event; that the reversion, with what it records and completes for the other bay, comes
before this bay's first sub-state is the model's choice (DESIGN CHOICE, log entry 9). -/
def Power.startRelease (p : Power) (l : Loads) (b : Bay) (former : FormerState) (origin : Origin) : Power :=
  let old := (p.bay b).state
  let r : Release :=
    { sub := .held, former, standing := old.standing, origin, slotOpen := decide (origin ≠ .button)
      requestAt := p.tmb.uptime, limitAt := p.tmb.uptime + p.bayPolicy.releaseLimit * 1000, takeover := none }
  let p0 := p.setBlink b none
  let p1 := if former = .seated then p0.setBay b { p0.bay b with identity := none, packState := none } else p0
  let p2 := p1.setState b (.releaseWait r)
  let p3 := if old.isStandby then p2.leftStandby l b else p2
  if p3.hld.demand b then p3 else p3.moveOn l b r

/-- A release is cancelled by its sub-state (R20). -/
def Power.cancelRelease (p : Power) (l : Loads) (b : Bay) (r : Release) : Power :=
  match r.sub with
  | .transfer _ => p.setBay b { p.bay b with state := .releaseWait { r with sub := .transfer true } }
  | .held => p.endCancelled l b r
  | .unlatching _ => p.endCancelled l b r

/-! ## The hold table reaches the bays (R16, R58) -/

/-- A bay's reaction to its latch demand after a change of the table. -/
def Power.reactToDemand (p : Power) (l : Loads) (b : Bay) : Power :=
  match (p.bay b).state with
  | .opened _ => if p.hld.demand b then (p.enterSeated b).makeRecord (.releaseUndoneByHold b) else p
  | .releaseWait r =>
    match r.sub with
    | .held => if p.hld.demand b then p else p.moveOn l b r
    | .unlatching _ => if p.hld.demand b then p.enterHeld l b r else p
    | .transfer _ => p
  | _ => p

/-- A change of the hold table: HLD's outputs, then the bays A and B (R57, R58). -/
def Power.changeTable (p : Power) (l : Loads) (es : List (Option HoldEntry)) : Power :=
  ((p.putTable es).reactToDemand l .A).reactToDemand l .B

/-- A removal of entries; without effect it changes nothing (R55). -/
def Power.removeHolds (p : Power) (l : Loads) (gone : HoldEntry → Bool) : Power :=
  let es := removeEntries gone p.hld.entries
  if es = p.hld.entries then p else p.changeTable l es

/-! ## Presence and the charger -/

/-- Presence opens on a bay that is not EMPTY (R3, Table 1-4). -/
def Power.unseat (p : Power) (l : Loads) (b : Bay) : Power :=
  let old := (p.bay b).state
  let q := (p.setBay b { p.bay b with
      state := .empty
      identity := none
      packState := none
      failedPolls := 0
      blinkEnd := none
      presence := false }).setLink b idleLink
  let q := match old with
    | .releaseWait r => q.completeRelease b r .nothingToRelease false
    | _ => q
  if q.feed.kind = feedOf b then q.loss l .presence
  else if old.isStandby then q.leftStandby l b
  else q

/-- A bay is eligible for the charger (R23). -/
def BayRec.eligible (r : BayRec) (chargeLimit : Nat) : Bool :=
  r.state.isStandby && r.packState.isSome && decide (r.soc < chargeLimit)

/-- The bay is eligible under the charge limit in force. -/
def Power.eligible (p : Power) (b : Bay) : Bool := (p.bay b).eligible p.bayPolicy.chargeLimit

/-- The eligible bay with the lower state of charge, A when equal (R24, step 3). -/
def Power.freshAssignment (p : Power) : Option Bay :=
  if p.eligible .A then (if p.eligible .B && decide (p.bayB.soc < p.bayA.soc) then some .B else some .A)
  else if p.eligible .B then some .B
  else none

/-- The charger assignment evaluated (R24). -/
def Power.assign (p : Power) : Option Bay :=
  if p.feed.kind = .dc then
    match p.assignment with
    | some b => if p.eligible b then some b else p.freshAssignment
    | none => p.freshAssignment
  else none

/-- The assignment re-evaluated (R24). -/
def Power.reassign (p : Power) : Power := { p with assignment := p.assign }

end Sys2Proof.Machine
end

