-- ==== Sys2Proof/Machine/Light.lean ====
section
/-! DEFINITION. BLC's arithmetic and the light record's own operations: the ambient filter, the curve, the target duty, the application point (chapter 5). -/

namespace Sys2Proof.Machine

/-- One step of the ambient filter toward `L`: the gap times the gain over 256, truncated, at least 1 (R80). -/
def filterStep (kUp kDown filtered lux : Nat) : Nat :=
  if filtered < lux then filtered + max 1 ((lux - filtered) * kUp / 256)
  else if lux < filtered then filtered - max 1 ((filtered - lux) * kDown / 256)
  else filtered

/-- The curve at an illuminance (R83). -/
def evalCurve : List CurvePoint → Nat → Nat
  | [], _ => 0
  | [p], _ => p.nits
  | p :: q :: ps, x =>
    if x < p.lux then p.nits
    else if x < q.lux then p.nits + (q.nits - p.nits) * (x - p.lux) / (q.lux - p.lux)
    else evalCurve (q :: ps) x

/-- N_b before clamping (R87). -/
def requestedNits (mode : LightMode) (nc : Nat) (bias : Int) (level : Nat) : Nat :=
  match mode with
  | .auto => ((nc : Int) * (100 + bias)).toNat / 100
  | .manual => level

/-- The target duty: N_b × 1024 / N_max, rounded up (R88). -/
def targetDuty (nb nMax : Nat) : Nat := (nb * 1024 + (nMax - 1)) / nMax

/-- N_c, N_b and d_target formed anew from the values that stand (R83, R87, R88). -/
def LightRec.retarget (l : LightRec) : LightRec :=
  let nc := evalCurve l.curve l.filtered
  let nb := clampNat l.panel.nMin l.panel.nMax (requestedNits l.mode nc l.bias l.manualLevel)
  { l with nc := nc, nb := nb, dTarget := targetDuty nb l.panel.nMax }

/-- An ambient sample: stored, filtered (a first one seeds the filter), the target formed anew (R79). -/
def LightRec.sample (l : LightRec) (lux now : Nat) : LightRec :=
  LightRec.retarget { l with
    ambient := .valid
    lastL := lux
    lastSampleAt := some now
    filtered := if l.ambient = .none then lux else filterStep l.panel.kUp l.panel.kDown l.filtered lux }

/-- The uptime from which the 500 ms of an ambient loss are measured (R81). -/
def LightRec.ambientFrom (l : LightRec) : Nat := l.lastSampleAt.getD 0

/-- The three duty steps of an ordinary application point, not applied while the panel enable line is low (R93). -/
def LightRec.stepDuty (l : LightRec) : LightRec :=
  if l.panelEnable then
    let d := min l.liveDuty l.ceiling
    { l with liveDuty :=
        if d < l.pendingDuty then min l.pendingDuty (d + l.panel.sUp)
        else if l.pendingDuty < d then max l.pendingDuty (d - l.panel.sDown)
        else d }
  else l

/-- The ceiling step alone, at an emergency point (R95). -/
def LightRec.cutDuty (l : LightRec) : LightRec := { l with liveDuty := min l.liveDuty l.ceiling }

/-- The pass's results are taken: the pending duty and the ceiling in force (R91). -/
def LightRec.takePass (l : LightRec) (dCmd ceiling : Nat) : LightRec := { l with pendingDuty := dCmd, ceiling := ceiling }

/-- The points at `n` staging positions from position `off` (R84, Table 10-7). -/
def readPoints (m : Mem) (off : Nat) : Nat → List CurvePoint
  | 0 => []
  | n + 1 => ⟨readField m (0x80 + 8 * off) 4, readField m (0x80 + 8 * off + 4) 2⟩ :: readPoints m (off + 1) n

/-- Why a curve is refused (R84). -/
inductive CurveError where
  | luxOrder | nitsOrder | nitsRange
  deriving DecidableEq, Repr

/-- The codes of Table 10-8. -/
def curveErrorCode : CurveError → Byte
  | .luxOrder => 0
  | .nitsOrder => 1
  | .nitsRange => 2

/-- The checks of one point in the order of R84, against the point before it if there is one. -/
def checkPoint (nMax : Nat) (prev : Option CurvePoint) (c : CurvePoint) : Option CurveError :=
  match prev with
  | some q =>
    if c.lux ≤ q.lux then some .luxOrder
    else if c.nits < q.nits then some .nitsOrder
    else if nMax < c.nits then some .nitsRange
    else none
  | none => if nMax < c.nits then some .nitsRange else none

/-- The first point, from index `i` on, that fails a check (R84). -/
def checkCurve (nMax : Nat) : Nat → Option CurvePoint → List CurvePoint → Option (Nat × CurveError)
  | _, _, [] => none
  | i, prev, c :: cs =>
    match checkPoint nMax prev c with
    | some e => some (i, e)
    | none => checkCurve nMax (i + 1) (some c) cs

end Sys2Proof.Machine
end

