-- ==== Sys2Proof/Machine/Budget.lean ====
section
/-! DEFINITION. BUD: the stages of the budget pass and what the pass hands on (chapter 4). -/

namespace Sys2Proof.Machine

/-- What FHU's plans read (R37, R43). -/
def Blocks.loads (s : Blocks) : Loads := ⟨s.sfe.power.pSys, s.sfe.power.pBl, s.blc.panel.pBlMax, s.blc.panel.dFloor⟩

/-- A change of the bays, FHU or HLD. -/
def Blocks.withPower (s : Blocks) (p : Power) : Blocks := { s with toPower := p }

/-- A change of the host-facing blocks. -/
def Blocks.withFront (s : Blocks) (f : Front) : Blocks := { s with toPower := { s.toPower with toFront := f } }

/-! ## The stages -/

/-- Stage 1 on DC_INPUT (R66). -/
def dcCapacity (pAdapter vDc : Nat) : Nat := min pAdapter (vDc * Config.dcCurrentLimit / 1000)

/-- The factors of a feed bay: 70 and 50 while LINK stands, else from its pack state record (R67). -/
def factorsOf (r : BayRec) : Nat × Nat :=
  if r.state.standing.link then (70, 50)
  else
    match r.packState with
    | some k => (tFactor k.temperature, sFactor k.soc)
    | none => (0, 0)

/-- The factors of the present feed, present when it is a bay (R67). -/
def Blocks.feedFactors (s : Blocks) : Option (Nat × Nat) := s.feed.kind.bay.map fun b => factorsOf (s.bay b)

/-- P_feed (R66 to R68). -/
def Blocks.feedCapacity (s : Blocks) : Nat :=
  match s.feed.kind with
  | .dc => dcCapacity s.feed.pAdapter s.sfe.power.vDc
  | .reservoir => s.feed.pResLimit
  | .bayA => packPower ((s.bayA.identity.map fun i => i.packMax).getD 0) (factorsOf s.bayA).1 (factorsOf s.bayA).2
  | .bayB => packPower ((s.bayB.identity.map fun i => i.packMax).getD 0) (factorsOf s.bayB).1 (factorsOf s.bayB).2

/-- U (R69, stage 2). -/
def usablePower (pFeed margin : Nat) : Nat := pFeed * (100 - margin) / 100

/-- P_plat (R69, stage 3): never below 0. -/
def platformDraw (pSys pBl : Nat) : Nat := pSys - pBl

/-- A_raw (R70). -/
def rawAllowance (usable pPlat rProt : Nat) : Int := (usable : Int) - pPlat - rProt

/-- A_bl (R70, R65). -/
def allowance (powerLost : Bool) (aRaw : Int) (pBlMax : Nat) : Nat := if powerLost then 0 else min aRaw.toNat pBlMax

/-- d_allow (R70, stage 6). -/
def allowedDuty (aBl pBlMax : Nat) : Nat := aBl * 1024 / pBlMax

/-- d_therm of a temperature (R71). -/
def thermalDuty (t : Int) : Nat := if t < 650 then 1024 else if t < 750 then 1024 - (t - 650).toNat * 512 / 100 else 512

/-- The ceiling (R72). -/
def ceilingOf (dFloor dAllow dTherm : Nat) : Nat := max dFloor (min dAllow dTherm)

/-- d_cmd (R73). -/
def commandedDuty (dFloor dTarget ceiling : Nat) : Nat := max dFloor (min dTarget ceiling)

/-- The backlight term B (R74). -/
def backlightTerm (panelEnable : Bool) (pBlMax dCmd : Nat) : Nat := if panelEnable then pBlMax * dCmd / 1024 else 0

/-- P_chg (R74). -/
def chargerLimit (dcFeed powerLost : Bool) (aRaw : Int) (b : Nat) : Nat :=
  if dcFeed && !powerLost then (aRaw - b).toNat else 0

/-- LINK stands on the feed bay (R67). -/
def Blocks.linkStands (s : Blocks) : Bool :=
  match s.feed.kind.bay with
  | some b => (s.bay b).state.standing.link
  | none => false

/-- The record of a pass taken now, with these causes (Table 4-2, stages 1 to 10). -/
def Blocks.computePass (s : Blocks) (causes : PassCauses) : BudgetRec :=
  let powerLost := decide (s.sfe.powerHealth = .lost)
  let thermLost := decide (s.sfe.thermHealth = .lost)
  let n := s.blc.panel
  let pFeed := s.feedCapacity
  let usable := usablePower pFeed s.feed.margin
  let pPlat := platformDraw s.sfe.power.pSys s.sfe.power.pBl
  let rProt := s.hld.rProt
  let aRaw := rawAllowance usable pPlat rProt
  let aBl := allowance powerLost aRaw n.pBlMax
  let dAllow := allowedDuty aBl n.pBlMax
  let dTherm := if thermLost then 512 else thermalDuty s.sfe.panelTemp
  let ceiling := ceilingOf n.dFloor dAllow dTherm
  let dCmd := commandedDuty n.dFloor s.blc.dTarget ceiling
  { passCount := s.bud.passCount + 1
    passUptime := s.tmb.uptime
    causes := causes
    feedUsed := s.feed.kind
    factors := s.feedFactors
    conditions := ⟨powerLost, thermLost, s.linkStands⟩
    pFeed := pFeed
    usable := usable
    pPlat := pPlat
    rProt := rProt
    aRaw := aRaw
    aBl := aBl
    dAllow := dAllow
    dTherm := dTherm
    dTarget := s.blc.dTarget
    ceiling := ceiling
    dCmd := dCmd
    pChg := chargerLimit (decide (s.feed.kind = .dc)) powerLost aRaw (backlightTerm s.blc.panelEnable n.pBlMax dCmd)
    deficit := deficitFlag dAllow n.dFloor
    capped := cappedFlag ceiling s.blc.dTarget dAllow dTherm }

/-! ## The pass -/

/-- The qualifier bits and value of PASS_CAPPED (R76). -/
def cappedEvent (b : BudgetRec) : Occurrence :=
  match b.capped with
  | none => ⟨.passCapped, 0, some 0⟩
  | some .budget => ⟨.passCapped, 1, some (b.dTarget - b.ceiling)⟩
  | some .thermal => ⟨.passCapped, 2, some (b.dTarget - b.ceiling)⟩

/-- The four events of a pass in the order of Table 8-2 (R76). -/
def passEvents (s : Blocks) : List Occurrence :=
  [⟨.passDeficit, if s.bud.deficit then 1 else 0, some s.bud.aBl⟩, cappedEvent s.bud, ⟨.passAmbient, 0, some s.blc.filtered⟩,
    ⟨.panelHot, 0, some (heatValue s.sfe.panelTemp)⟩]

/-- The pass's results stored and taken by BLC; at an emergency pass the live duty is cut at once (R75, R77, R91, R95). -/
def Blocks.takeResults (s : Blocks) (b : BudgetRec) : Blocks :=
  let l := s.blc.takePass b.dCmd b.ceiling
  { s with bud := b, blc := if b.causes.emergency then l.cutDuty else l }

/-- The light page is republished (R75). -/
def Blocks.publishLight (s : Blocks) : Blocks := s.withFront (s.toFront.publish .light (lightPage s))

/-- The pass's four events, then the monitor page (R76, R142). -/
def Blocks.sendPassEvents (s : Blocks) : Blocks :=
  s.withFront ((passEvents s).foldl Front.sendEvent s.toFront).publishMonitors

/-- A budget pass with these causes: the monitor boundary, the stages, the hand-offs (R62 to R76). -/
def Blocks.pass (s : Blocks) (causes : PassCauses) : Blocks :=
  let s1 := s.withFront s.toFront.adoptMonitors
  let s2 := s1.takeResults (s1.computePass causes)
  let s3 := s2.withPower (s2.toPower.reexamine s2.loads)
  s3.publishLight.sendPassEvents

/-- Some trigger of a pass was raised (R63). -/
def PassCauses.any (c : PassCauses) : Bool := c.periodic || c.feed || c.hold || c.light || c.emergency

/-- The one pass that serves all the triggers an event has raised (R64). -/
def Blocks.runDuePass (s : Blocks) : Blocks :=
  if s.due.any then (s.withPower { s.toPower with due := noCauses }).pass s.due else s

end Sys2Proof.Machine
end

