-- ==== Sys2Proof/Machine/Trace.lean ====
section
/-! DEFINITION. TRC: the capture of a fall trace into the trace area, its end and its release (chapter 7). -/

namespace Sys2Proof.Machine

/-- The next serial: from 4,294,967,295 to 1 (R123). -/
def serialSucc (n : Word) : Word := if n = 0xFFFFFFFF then 1 else n + 1

/-- The trace record changes and its header is rewritten (R122). -/
def Front.putTrace (f : Front) (t : TraceRec) : Front := ({ f with trc := t }).putTraceHeader

/-- The group of the newest ring entry at the sample `idx`, times 4, less 1,020 (R123, step 4): the sample's own group if the
sample completed it, else the group before. -/
def captureBase (idx : Word) : Word :=
  let g := idx.toNat / 4
  BitVec.ofNat 32 (4 * (if idx.toNat % 4 = 3 then g else g + (2 ^ 30 - 1))) - 1020

/-- Entries 0..255 from a ring given newest first: the missing early ones as no-data entries (R123, step 3). -/
def ringEntries (ring : List RingEntry) : List RingEntry :=
  List.replicate (Config.ringEntries - ring.length) noData ++ ring.reverse

/-- A capture starts at the confirmation of a fall (R123). -/
def Front.startCapture (f : Front) (ring : List RingEntry) (idx fallStart : Word) : Front :=
  (f.write (traceEntryAt 0) ((ringEntries ring).flatMap traceEntryBytes)).putTrace
    { state := .filling
      serial := serialSucc f.trc.serial
      written := Config.ringEntries
      base := captureBase idx
      fallStart := fallStart
      startUptime := f.tmb.uptime
      sharedFalls := 0
      endCause := .none
      linked := 0xFFFFFFFF }

/-- A capture becomes READY with its end cause, and TRACE_READY is raised (R124, R125). -/
def Front.finishCapture (f : Front) (c : EndCause) : Front :=
  (f.putTrace { f.trc with state := .ready, written := Config.traceEntries, endCause := c }).raise .traceReady

/-- A completed group while FILLING: written at the next position; the 1,016th completes the capture (R124). -/
def Front.appendTrace (f : Front) (e : RingEntry) : Front :=
  if f.trc.state = .filling then
    let g := f.write (traceEntryAt f.trc.written) (traceEntryBytes e)
    if f.trc.written + 1 < Config.traceEntries then g.putTrace { f.trc with written := f.trc.written + 1 }
    else g.finishCapture .complete
  else f

/-- The accelerometer is declared lost while FILLING: the rest no-data entries, READY (R125). -/
def Front.endCapture (f : Front) : Front :=
  if f.trc.state = .filling then
    (f.write (traceEntryAt f.trc.written)
      ((List.replicate (Config.traceEntries - f.trc.written) noData).flatMap traceEntryBytes)).finishCapture .sensorLost
  else f

/-- A fall joins the capture in progress (R126). -/
def Front.shareCapture (f : Front) : Front :=
  f.putTrace { f.trc with sharedFalls := if f.trc.sharedFalls < 255 then f.trc.sharedFalls + 1 else f.trc.sharedFalls }

/-- The host releases a READY trace (R128). -/
def Front.releaseTrace (f : Front) : Front :=
  if f.trc.state = .ready then f.putTrace { f.trc with state := .free } else f

/-- What TRC answers to a confirmed fall: its state, the episode's trace status and serial (R115). -/
structure TraceAnswer where
  front  : Front
  status : TraceStatus
  serial : Option Word
  deriving DecidableEq, Repr

/-- TRC settles a fall's trace status at its confirmation (R115, R123, R126). -/
def Front.settleTrace (f : Front) (on : Bool) (ring : List RingEntry) (idx fallStart : Word) : TraceAnswer :=
  if on then
    match f.trc.state with
    | .free => ⟨f.startCapture ring idx fallStart, .captured, some (serialSucc f.trc.serial)⟩
    | .filling => ⟨f.shareCapture, .shared, some f.trc.serial⟩
    | .ready => ⟨f, .traceBusy, none⟩
  else ⟨f, .off, none⟩

end Sys2Proof.Machine
end

