-- ==== Sys2Proof/Machine/Motion.lean ====
section
/-! DEFINITION. MOT: the intake of a sample, the runs, the transitions of the motion state, the loss and return of the accelerometer (chapter 6), and the pre-trigger ring (R121). -/

namespace Sys2Proof.Machine

/-! ## One sample's arithmetic -/

/-- m² of a sample (R100). -/
def Axes.m2 (a : Axes) : Nat := a.x.natAbs * a.x.natAbs + a.y.natAbs * a.y.natAbs + a.z.natAbs * a.z.natAbs

/-- An axis beyond ±16,000 mg reads as the end of its range (5.1, note 3; log entry 13). -/
def clampAxis (a : Int) : Int := clampInt (-16000) 16000 a

/-- The sign of an axis, + for 0. -/
def signed (v : Int) (plus minus : Orientation) : Orientation := if v < 0 then minus else plus

/-- The axis with the largest absolute value, x before y before z on a tie, with its sign (R103). -/
def dominantAxis (a : Axes) : Orientation :=
  if a.y.natAbs ≤ a.x.natAbs ∧ a.z.natAbs ≤ a.x.natAbs then signed a.x .plusX .minusX
  else if a.z.natAbs ≤ a.y.natAbs then signed a.y .plusY .minusY
  else signed a.z .plusZ .minusZ

/-- The sum of one axis over a window. -/
def sumAxis (f : Axes → Int) : List Axes → Int
  | [] => 0
  | a :: as => f a + sumAxis f as

/-- The averages of a full window, truncated toward zero (R103). -/
def windowAverages (w : List Axes) : Axes :=
  ⟨(sumAxis Axes.x w).tdiv 16, (sumAxis Axes.y w).tdiv 16, (sumAxis Axes.z w).tdiv 16⟩

/-- A reading joins the orientation window and the orientation is recomputed; UNKNOWN below 16 samples (R103). R103 forms the three
averages at 16 samples and gives them no value before; that they are held and published as 0, 0, 0 while the window holds fewer, here and
wherever the window is emptied (power-on, a loss, a return), is the model's choice (DESIGN CHOICE, log entry 36). -/
def MotionRec.orient (m : MotionRec) (a : Axes) : MotionRec :=
  let w := (a :: m.window).take 16
  if w.length < 16 then { m with window := w, orientation := .unknown, averages := ⟨0, 0, 0⟩ }
  else { m with window := w, orientation := dominantAxis (windowAverages w), averages := windowAverages w }

/-- n × 5 / 8 ms (R108, R112). -/
def fallTime (n : Nat) : Nat := n * 5 / 8

/-- The fall height in mm (R112). -/
def fallHeight (ms : Nat) : Nat := 9807 * ms * ms / 2000000

/-! ## The ring (R121) -/

/-- The group's largest m² once the sample has joined: a group opens at an index that is a multiple of 4. -/
def joinGroup (group : Option Nat) (idx : Word) (m2 : Nat) : Option Nat :=
  if idx.toNat % 4 = 0 then some m2 else group.map fun g => max g m2

/-- The ring entry of a group whose largest m² is `g` and whose last sample is `a`. -/
def ringEntry (a : Axes) (g : Nat) : RingEntry := ⟨a, floorSqrt g / 16⟩

/-- The sample joins its group; a completed group gives the entry that enters the ring. -/
def MotionRec.history (m : MotionRec) (a : Axes) : MotionRec × Option RingEntry :=
  match joinGroup m.group m.index a.m2 with
  | none => ({ m with group := none }, none)
  | some g =>
    if m.index.toNat % 4 = 3 then
      ({ m with group := none, ring := (ringEntry a g :: m.ring).take Config.ringEntries }, some (ringEntry a g))
    else ({ m with group := some g }, none)

/-! ## Runs (R105) -/

/-- A counting sample adds to the free-fall run, storing its index and the orientation before it as the candidates at the first. -/
def FreeFallRun.step (r : FreeFallRun) (hit : Bool) (idx : Word) (before : Orientation) : FreeFallRun :=
  if hit then (if r.count = 0 then ⟨1, idx, before⟩ else { r with count := min 160 (r.count + 1) }) else ⟨0, 0, .unknown⟩

/-- A counting sample adds to the caught run, storing its index at the first. -/
def CaughtRun.step (r : CaughtRun) (hit : Bool) (idx : Word) : CaughtRun :=
  if hit then (if r.count = 0 then ⟨1, idx⟩ else { r with count := min 160 (r.count + 1) }) else ⟨0, 0⟩

/-- A counting sample adds to the settle run. -/
def settleStep (n : Nat) (hit : Bool) : Nat := if hit then min 3200 (n + 1) else 0

/-- Every run at 0. -/
def MotionRec.clearRuns (m : MotionRec) : MotionRec :=
  { m with freeFall := ⟨0, 0, .unknown⟩, caught := ⟨0, 0⟩, settleRun := 0 }

/-- A sample below the free-fall threshold (Table 6-4). -/
def MotionConfig.weightless (c : MotionConfig) (m2 : Nat) : Bool := decide (m2 < c.tFf * c.tFf)

/-- A sample above the impact threshold. -/
def MotionConfig.impact (c : MotionConfig) (m2 : Nat) : Bool := decide (c.tImp * c.tImp < m2)

/-- A sample inside the settle band. -/
def MotionConfig.inBand (c : MotionConfig) (m2 : Nat) : Bool :=
  decide (c.bandLow * c.bandLow ≤ m2) && decide (m2 ≤ c.bandHigh * c.bandHigh)

/-- The sample updates the runs of the present state (R105). -/
def MotionRec.countRuns (m : MotionRec) (m2 : Nat) (before : Orientation) : MotionRec :=
  match m.state with
  | .normal => { m with freeFall := m.freeFall.step (m.config.weightless m2) m.index before }
  | .settle _ =>
    { m with
      freeFall := m.freeFall.step (m.config.weightless m2) m.index before
      settleRun := settleStep m.settleRun (m.config.inBand m2) }
  | .falling _ => { m with caught := m.caught.step (!m.config.weightless m2 && !m.config.impact m2) m.index }
  | .impactDrop _ _ => m
  | .impactShock _ _ => m
  | .sensorLost => m

/-! ## The impact window (R110) -/

/-- The window that a sample opens. -/
def openWindow (idx : Word) (a : Axes) (sat : Bool) : ImpactWindow := ⟨idx, 1, a.m2, a, sat⟩

/-- A further sample of the window; on equal m² the earlier is kept. -/
def ImpactWindow.add (w : ImpactWindow) (a : Axes) (sat : Bool) : ImpactWindow :=
  { w with
    counted := w.counted + 1
    maxM2 := max w.maxM2 a.m2
    maxAxes := if w.maxM2 < a.m2 then a else w.maxAxes
    saturated := w.saturated || sat }

/-- The values derived at a window's end. -/
def ImpactWindow.result (w : ImpactWindow) : LastImpact := ⟨floorSqrt w.maxM2, w.saturated, dominantAxis w.maxAxes⟩

/-- The band of a SHOCK event (R111). -/
def shockBand (i : LastImpact) : Byte := if i.saturated then 4 else if i.peak < 8000 then 1 else 2

/-! ## Transitions -/

/-- MOT's record replaced. -/
def Blocks.withMot (s : Blocks) (m : MotionRec) : Blocks := { s with mot := m }

/-- MOT enters a state with every run at 0 (R105). -/
def Blocks.enterMotion (s : Blocks) (st : MotionState) : Blocks := s.withMot { s.mot.clearRuns with state := st }

/-- Entry to SETTLE, with its 5 s limit (R113). -/
def Blocks.enterSettle (s : Blocks) : Blocks := s.enterMotion (.settle (s.tmb.uptime + 5000))

/-- MOT lifts every MOTION hold present (R117). -/
def Blocks.liftMotion (s : Blocks) : Blocks :=
  s.withPower (s.toPower.removeHolds s.loads fun e => decide (e.holder = .motion))

/-- MOT places its three holds in one event, target by target (R55). -/
def Blocks.placeMotion (s : Blocks) : Blocks :=
  let e (t : Target) (r : Nat) : HoldEntry := ⟨.motion, t, r, s.tmb.uptime, none⟩
  let c := s.mot.config
  s.withPower (s.toPower.changeTable s.loads
    (placeEntry (e .storage c.storageReserve)
      (placeEntry (e .latchB c.latchReserve) (placeEntry (e .latchA c.latchReserve) s.hld.entries))))

/-- A fall is confirmed: episode, state, holds, flag and event, trace (R106). -/
def Blocks.confirmFall (s : Blocks) : Blocks :=
  let run := s.mot.freeFall
  let on := s.mot.config.protect
  let ep : Episode :=
    { fallStart := run.start, feedAtStart := s.feed.kind, orientBefore := run.orient, holdsPlaced := ⟨on, on, on⟩
      traceStatus := .off, traceSerial := none, fallMs := 0, height := 0 }
  let s1 := s.enterMotion (.falling ep)
  let s2 := if on then s1.placeMotion else s1
  let f := (s2.toFront.raise .fall).sendEvent (plainEvent .fall)
  let t := f.settleTrace s.mot.config.trace s.mot.ring s.mot.index run.start
  (s2.withFront t.front).withMot { s2.mot with state := .falling { ep with traceStatus := t.status, traceSerial := t.serial } }

/-- The impact of a fall: time and height, the window opened (R107, R112). -/
def Blocks.impactFall (s : Blocks) (e : Episode) (a : Axes) (sat : Bool) : Blocks :=
  let ms := fallTime (s.mot.index - e.fallStart).toNat
  let h := fallHeight ms
  let s1 := s.enterMotion (.impactDrop { e with fallMs := ms, height := h } (openWindow s.mot.index a sat))
  s1.withMot { s1.mot with lastFallMs := ms, lastHeight := h }

/-- A fall ends without impact: the record, SETTLE (R108). -/
def Blocks.endFall (s : Blocks) (e : Episode) (long : Bool) (ms : Nat) : Blocks :=
  let s1 := s.withFront (s.toFront.makeFallRecord (.fallNoImpact long ms e.traceStatus e.traceSerial) e.traceStatus e.traceSerial)
  let s2 := s1.enterSettle
  s2.withMot { s2.mot with lastFallMs := ms, lastHeight := 0 }

/-- The DROP record as it falls due (R111). -/
def dropData (e : Episode) (i : LastImpact) : DropData :=
  { fallMs := e.fallMs, height := e.height, peak := i.peak, saturated := i.saturated, axis := i.axis
    orientBefore := e.orientBefore, traceStatus := e.traceStatus, traceSerial := e.traceSerial
    holdsPlaced := e.holdsPlaced, feedAtStart := e.feedAtStart }

/-- A DROP record is made, or deferred to the end of a running acknowledgement wait (R111, R116). -/
def Power.makeDrop (p : Power) (d : DropData) : Power :=
  if p.hld.wait.isSome then { p with drops := p.drops ++ [d] }
  else { p with toFront := p.toFront.writeDrop d p.hld.outcome p.bayA.state p.bayB.state }

/-- The last impact of the motion record. -/
def Blocks.setLastImpact (s : Blocks) (i : LastImpact) : Blocks := s.withMot { s.mot with lastImpact := i }

/-- A DROP window ends with these samples (R110, R111). -/
def Blocks.endDrop (s : Blocks) (e : Episode) (w : ImpactWindow) : Blocks :=
  (s.setLastImpact w.result).withPower (s.toPower.makeDrop (dropData e w.result))

/-- A SHOCK window ends with these samples: the record and its event (R110, R111). -/
def Blocks.endShock (s : Blocks) (ret : ReturnState) (w : ImpactWindow) : Blocks :=
  let i := w.result
  (s.setLastImpact i).withFront
    (s.toFront.makeTied (.shock i.peak i.saturated i.axis ret) ⟨.shock, shockBand i, some i.peak⟩)

/-- The return from a SHOCK window (R111). -/
def Blocks.returnShock (s : Blocks) : ReturnState → Blocks
  | .normal => s.enterMotion .normal
  | .settle => s.enterSettle

/-- A shock opens a window from NORMAL or SETTLE (R109). -/
def Blocks.openShock (s : Blocks) (ret : ReturnState) (a : Axes) (sat : Bool) : Blocks :=
  s.enterMotion (.impactShock ret (openWindow s.mot.index a sat))

/-- The settle completes: NORMAL, holds lifted (R113). -/
def Blocks.completeSettle (s : Blocks) : Blocks := (s.enterMotion .normal).liftMotion

/-- The transitions of the present state on a sample, in the order of Table 6-6. -/
def Blocks.judgeSample (s : Blocks) (a : Axes) (sat : Bool) : Blocks :=
  let m := s.mot
  let hit := m.config.impact a.m2
  match m.state with
  | .normal =>
    if hit then s.openShock .normal a sat
    else if m.config.nFf ≤ m.freeFall.count then s.confirmFall
    else s
  | .falling e =>
    if hit then s.impactFall e a sat
    else if m.config.nFf ≤ m.caught.count then s.endFall e false (fallTime (m.caught.first - e.fallStart).toNat)
    else if 2400 ≤ (m.index - e.fallStart).toNat then s.endFall e true 1500
    else s
  | .impactDrop e w =>
    let w' := w.add a sat
    if 32 ≤ w'.counted then (s.endDrop e w').enterSettle else s.withMot { m with state := .impactDrop e w' }
  | .impactShock ret w =>
    let w' := w.add a sat
    if 32 ≤ w'.counted then (s.endShock ret w').returnShock ret else s.withMot { m with state := .impactShock ret w' }
  | .settle _ =>
    if hit then s.openShock .settle a sat
    else if m.config.nFf ≤ m.freeFall.count then s.confirmFall
    else if m.config.tSettle ≤ m.settleRun then s.completeSettle
    else s
  | .sensorLost => s

/-! ## A sample, a loss, the deadlines -/

/-- Step 1 of R100: the index, the last sample, the watch deadline. The last sample's saturated flag and m² are formed here for every
sample, the returning one too, for which step 2 is not taken and R102 says nothing of them: the model's choice (DESIGN CHOICE, log
entry 31). -/
def MotionRec.take (m : MotionRec) (a : Axes) (now : Nat) : MotionRec :=
  { m with index := m.index + 1, lastSample := some ⟨a, a.saturated, a.m2⟩, watchDeadline := now + 10 }

/-- A sample that ends a loss, or the first (R102). -/
def Blocks.returnSample (s : Blocks) (a : Axes) : Blocks :=
  let m := s.mot.clearRuns
  (s.withMot { m with
    health := .valid
    state := .normal
    window := [a]
    orientation := .unknown
    averages := ⟨0, 0, 0⟩
    liftDeadline := none
    group := none }).liftMotion

/-- Steps 2 to 5 of R100. -/
def Blocks.judgedSample (s : Blocks) (a : Axes) : Blocks :=
  let before := s.mot.orientation
  let h := (s.mot.orient a).history a
  let s1 := s.withMot h.1
  let s2 := match h.2 with
    | none => s1
    | some e => s1.withFront (s1.toFront.appendTrace e)
  (s2.withMot (s2.mot.countRuns a.m2 before)).judgeSample a a.saturated

/-- MOT takes one sample (R100, R102). -/
def Blocks.takeSample (s : Blocks) (a : Axes) : Blocks :=
  let s1 := s.withMot (s.mot.take a s.tmb.uptime)
  if s.mot.health = .valid then s1.judgedSample a else s1.returnSample a

/-- An impact window that ends early at a loss makes its record (R101, R110). -/
def Blocks.endWindowEarly (s : Blocks) : Blocks :=
  match s.mot.state with
  | .impactDrop e w => s.endDrop e w
  | .impactShock ret w => s.endShock ret w
  | _ => s

/-- The accelerometer is declared lost: the SENSOR_FAULT record, the window's record, SENSOR_LOST with everything cleared, the lift deadline, the capture's end (R101, R121, R125). -/
def Blocks.loseAccel (s : Blocks) : Blocks :=
  let s1 := (s.withFront (s.toFront.makeRecord (.sensorFault .accel))).endWindowEarly
  let m := s1.mot.clearRuns
  let s2 := s1.withMot { m with
    health := .lost
    state := .sensorLost
    window := []
    orientation := .unknown
    averages := ⟨0, 0, 0⟩
    liftDeadline := some (s.tmb.uptime + 5000)
    ring := []
    group := none }
  s2.withFront s2.toFront.endCapture

/-- The settle limit: NORMAL with the free-fall run kept and the holds lifted (R114). -/
def Blocks.settleLimit (s : Blocks) : Blocks :=
  (s.withMot { s.mot with state := .normal, settleRun := 0 }).liftMotion

/-- The lift deadline after a loss: the holds lifted, the deadline discarded (R101). -/
def Blocks.liftAfterLoss (s : Blocks) : Blocks := (s.withMot { s.mot with liftDeadline := none }).liftMotion

end Sys2Proof.Machine
end

