-- ==== Sys2Proof/Machine/State.lean ====
section
/-! DEFINITION. The machine's state: every block's record, the output signals and the queue of waiting commands; the reasons a step can stop; the state after reset. -/

namespace Sys2Proof.Machine

/-- The state of the ZT31. `pins` are the output signals as driven (Table 11-2); `pending` is the queue of commands that wait, first in, first out. -/
structure State extends Blocks where
  pins    : Pins
  pending : List Instr
  deriving DecidableEq, Repr

/-- Why a command stops with a fault. -/
inductive Fault where
  /-- HOST_MEMORY_WRITE outside the exchange area's 16,384 bytes: an address that does not exist (Table 10-1). No byte is written. Safe. -/
  | outsideExchangeArea
  deriving DecidableEq, Repr

/-- Why a command is refused. -/
inductive Refusal where
  /-- An arm of `exec` without a meaning. No arm of this model answers it. Safe. -/
  | notModelled (mnemonic : String)
  deriving DecidableEq, Repr

/-- The machine right after power-on reset at uptime 0 (R175), no command waiting. The latch senses are read as closed (log entry 1). -/
def State.reset : State :=
  let s := powerOnBlocks false false
  { s with pins := derivePins s, pending := [] }

end Sys2Proof.Machine
end

