-- ==== Sys2Proof/Machine/Ops.lean ====
section
/-! DEFINITION. The frame of every event: what follows an event's own changes (the charger assignment, the one budget pass, the pages), the output signals, the periodic timers and the clock. -/

namespace Sys2Proof.Machine

/-- FHU and BAY republish the energy page (R158). -/
def Blocks.publishEnergy (s : Blocks) : Blocks := s.withFront (s.toFront.publish .energy (energyPage s))

/-- MOT republishes the motion page (R120). -/
def Blocks.publishMotion (s : Blocks) : Blocks := s.withFront (s.toFront.publish .motion (motionPage s.mot))

/-- The fields of Table 1-2 of a bay record. The model's own `slotOpen` is none of them, so it is cleared here. -/
def BayRec.listed (r : BayRec) : BayRec :=
  match r.state with
  | .releaseWait x => { r with state := .releaseWait { x with slotOpen := false } }
  | _ => r

/-- A feed record field, a bay record field of Table 1-2 (the charging flags among them) or the charger assignment has changed (R158, Table 10-2). A change of `slotOpen` alone is no occasion of the energy page. -/
def energyChanged (a b : Blocks) : Bool :=
  decide (a.feed ≠ b.feed) || decide (a.bayA.listed ≠ b.bayA.listed) || decide (a.bayB.listed ≠ b.bayB.listed)
    || decide (a.assignment ≠ b.assignment) || decide (a.charging .A ≠ b.charging .A) || decide (a.charging .B ≠ b.charging .B)

/-- The page updates that the changes of an event bring (R120, R158). -/
def Blocks.publishChanges (s old : Blocks) : Blocks :=
  let s1 := if motionCode old.mot.state = motionCode s.mot.state then s else s.publishMotion
  if energyChanged old s1 then s1.publishEnergy else s1

/-- One event: its own changes of state, the charger assignment, the one budget pass for all its triggers, what follows the pass, the pages (R24, R64, R158). -/
def Blocks.runEvent (s : Blocks) (core : Blocks → Blocks) (post : Front → Front) : Blocks :=
  let s1 := core s
  let s2 := (s1.withPower s1.toPower.reassign).runDuePass
  (s2.withFront (post s2.toFront)).publishChanges s

/-- An event that brings no pass and changes no bay, feed or motion record: its changes alone. -/
def Blocks.quiet (s : Blocks) (core : Front → Front) : Blocks := s.withFront (core s.toFront)

/-- The blocks after an event, and the output signals with them (Table 11-2). -/
def State.withBlocks (s : State) (b : Blocks) : State := { s with toBlocks := b, pins := derivePins b }

/-- A command reaches a powered part; an unpowered one does nothing (R174; log entry 4). -/
def State.whilePowered (s : State) (f : Blocks → Blocks) : Host.Outcome State Fault Refusal :=
  .next (if s.powered then s.withBlocks (f s.toBlocks) else s)

/-- A deadline or period acts once uptime has reached it, else not at all (log entry 2). -/
def Blocks.whenDue (s : Blocks) (deadline : Option Nat) (f : Blocks → Blocks) : Blocks :=
  match deadline with
  | none => s
  | some d => if d ≤ s.tmb.uptime then f s else s

/-- The timers replaced. -/
def Blocks.withTimers (s : Blocks) (t : Timers) : Blocks := { s with timers := t }

/-- One millisecond of uptime passes, the commands' queue empty (R143; log entry 5). -/
def State.tick (s : State) : State :=
  if s.powered then { s with tmb := { s.tmb with uptime := s.tmb.uptime + 1 } } else s

end Sys2Proof.Machine
end

