-- ==== Sys2Proof/Machine/Requests.lean ====
section
/-! DEFINITION. What each request does at its take (10.4 and the owners' rules), the take of a slot, the sweep, and the exchange restart. Every `Blocks.do…` is the owner's part and XIF's completion; the event frame of Ops.lean surrounds it. -/

namespace Sys2Proof.Machine

/-- A request completes at XIF. -/
def Blocks.finish (s : Blocks) (slot : Fin 32) (c : Completion) : Blocks := s.withFront (s.toFront.complete slot c)

/-- Some field was taken to the end of its range (R164). -/
def anyClamped (pairs : List (Nat × Nat)) : Bool := pairs.any fun q => decide (q.1 ≠ q.2)

/-- OK, with CLAMPED where a field was clamped (R164). -/
def Completion.adopted (clamped : Bool) (data : List Byte) : Completion := ⟨.ok, clamped, false, data⟩

/-! ## BAY and FHU -/

/-- RELEASE_BAY (R14, Table 1-7). -/
def Blocks.doReleaseBay (s : Blocks) (slot : Fin 32) (bay : Byte) : Blocks :=
  match bayOfCode bay with
  | none => s.finish slot (.plain .badArgument)
  | some b =>
    match (s.bay b).state with
    | .empty => s.finish slot (.plain .nothingToRelease)
    | .opened _ => s.finish slot (.adopted false [bayCode b, 0xFF])
    | .releaseWait _ => s.finish slot (.plain .busy)
    | st =>
      match st.former with
      | none => s
      | some f => s.withPower (s.toPower.startRelease s.loads b f (.software slot))

/-- CANCEL_RELEASE (R14, R20). -/
def Blocks.doCancelRelease (s : Blocks) (slot : Fin 32) (bay : Byte) : Blocks :=
  match bayOfCode bay with
  | none => s.finish slot (.plain .badArgument)
  | some b =>
    match (s.bay b).state with
    | .releaseWait r => (s.withPower (s.toPower.cancelRelease s.loads b r)).finish slot (.plain .ok)
    | _ => s.finish slot (.plain .nothingToRelease)

/-- SET_ENERGY_POLICY (R49; ranges of Tables 2-2, 1-3 and R23). -/
def Blocks.doSetEnergyPolicy (s : Blocks) (slot : Fin 32) (preference chargeLimit : Byte) (tSwap : Half) (margin : Byte)
    (releaseLimit openWindow : Half) (pAdapter : Word) : Blocks :=
  let p := clampNat 0 2 preference.toNat
  let c := clampNat 50 100 chargeLimit.toNat
  let t := clampNat 5 120 tSwap.toNat
  let m := clampNat 0 50 margin.toNat
  let r := clampNat 5 60 releaseLimit.toNat
  let o := clampNat 3 30 openWindow.toNat
  let a := clampNat 0 150000 pAdapter.toNat
  let s1 := s.withPower { s.toPower with
    feed := { s.feed with preference := preferenceOfCode p, tSwap := t, margin := m, pAdapter := a }
    bayPolicy := ⟨c, r, o⟩ }
  s1.finish slot (.adopted (anyClamped [(p, preference.toNat), (c, chargeLimit.toNat), (t, tSwap.toNat), (m, margin.toNat),
    (r, releaseLimit.toNat), (o, openWindow.toNat), (a, pAdapter.toNat)]) [])

/-- SET_RESERVOIR; a change is a re-examination point (R49, R34). -/
def Blocks.doSetReservoir (s : Blocks) (slot : Fin 32) (c vMin eShut pResLimit : Word) : Blocks :=
  let c' := clampNat 1000 60000 c.toNat
  let v := clampNat 3000 9000 vMin.toNat
  let e := clampNat 0 500000 eShut.toNat
  let l := clampNat 5000 60000 pResLimit.toNat
  let f := { s.feed with resC := c', vMin := v, eShut := e, pResLimit := l }
  let p := { s.toPower with feed := f }
  (s.withPower (if f = s.feed then p else p.reexamine s.loads)).finish slot
    (.adopted (anyClamped [(c', c.toNat), (v, vMin.toNat), (e, eShut.toNat), (l, pResLimit.toNat)]) [])

/-! ## BLC -/

/-- The light record replaced. -/
def Blocks.withLight (s : Blocks) (l : LightRec) : Blocks := { s with blc := l }

/-- The LIGHT trigger of a pass (R63). -/
def Blocks.dueLight (s : Blocks) : Blocks := s.withPower { s.toPower with due := { s.due with light := true } }

/-- The slot of a curve that is replaced completes SUPERSEDED (R86). -/
def Blocks.supersede (s : Blocks) : Blocks :=
  match s.blc.pendingCurve with
  | none => s
  | some c => s.finish c.slot ⟨.superseded, c.clamped, false, []⟩

/-- LOAD_CURVE (R84, R86). -/
def Blocks.doLoadCurve (s : Blocks) (slot : Fin 32) (offset count : Byte) : Blocks :=
  let o := clampNat 0 32 offset.toNat
  let n := clampNat 2 16 count.toNat
  let clamped := anyClamped [(o, offset.toNat), (n, count.toNat)]
  let points := readPoints s.mem o n
  match checkCurve s.blc.panel.nMax 0 none points with
  | some (i, e) => s.finish slot ⟨.badArgument, clamped, false, [BitVec.ofNat 8 i, curveErrorCode e]⟩
  | none =>
    let s1 := s.supersede
    s1.withLight { s1.blc with pendingCurve := some ⟨points, slot, clamped⟩ }

/-- SET_LIGHT_MODE: adopted at the start of the LIGHT pass it triggers (R89). -/
def Blocks.doSetLightMode (s : Blocks) (slot : Fin 32) (mode : Byte) (value : Half) : Blocks :=
  let m := clampNat 0 1 mode.toNat
  let bias := clampInt (-50) 50 value.toInt
  let level := clampInt 0 3000 value.toInt
  let v := if m = 0 then bias else level
  let l := if m = 0 then { s.blc with mode := .auto, bias := bias } else { s.blc with mode := .manual, manualLevel := level.toNat }
  ((s.withLight l.retarget).dueLight).finish slot
    (.adopted (anyClamped [(m, mode.toNat)] || decide (v ≠ value.toInt)) ([BitVec.ofNat 8 m, 0] ++ leSigned 2 v))

/-- SET_PANEL: adopted whole at the start of the LIGHT pass it triggers (R90). -/
def Blocks.doSetPanel (s : Blocks) (slot : Fin 32) (nMin nMax pBlMax dFloor sUp sDown kUp kDown : Half) : Blocks :=
  let hi := clampNat 100 3000 nMax.toNat
  let lo := min (clampNat 0 500 nMin.toNat) hi
  let c : PanelConfig :=
    { nMin := lo, nMax := hi, pBlMax := clampNat 1000 30000 pBlMax.toNat, dFloor := clampNat 0 256 dFloor.toNat
      sUp := clampNat 1 128 sUp.toNat, sDown := clampNat 1 128 sDown.toNat
      kUp := clampNat 1 256 kUp.toNat, kDown := clampNat 1 256 kDown.toNat }
  ((s.withLight { s.blc with panel := c }.retarget).dueLight).finish slot
    (.adopted (anyClamped [(c.nMin, nMin.toNat), (c.nMax, nMax.toNat), (c.pBlMax, pBlMax.toNat), (c.dFloor, dFloor.toNat),
      (c.sUp, sUp.toNat), (c.sDown, sDown.toNat), (c.kUp, kUp.toNat), (c.kDown, kDown.toNat)]) (w16 lo ++ w16 hi))

/-! ## MOT -/

/-- SET_MOTION (R104). -/
def Blocks.doSetMotion (s : Blocks) (slot : Fin 32) (tFf nFf tImp bandLow bandHigh tSettle latchReserve storageReserve : Half)
    (protect trace : Byte) : Blocks :=
  let p := clampNat 0 1 protect.toNat
  let t := clampNat 0 1 trace.toNat
  let c : MotionConfig :=
    { tFf := clampNat 100 800 tFf.toNat, nFf := clampNat 16 160 nFf.toNat, tImp := clampNat 1500 15000 tImp.toNat
      bandLow := clampNat 600 1000 bandLow.toNat, bandHigh := clampNat 1000 1400 bandHigh.toNat
      tSettle := clampNat 160 3200 tSettle.toNat
      latchReserve := clampNat 0 10000 latchReserve.toNat, storageReserve := clampNat 0 10000 storageReserve.toNat
      protect := decide (p = 1), trace := decide (t = 1) }
  (s.withMot { s.mot with config := c }).finish slot
    (.adopted (anyClamped [(c.tFf, tFf.toNat), (c.nFf, nFf.toNat), (c.tImp, tImp.toNat), (c.bandLow, bandLow.toNat),
      (c.bandHigh, bandHigh.toNat), (c.tSettle, tSettle.toNat), (c.latchReserve, latchReserve.toNat),
      (c.storageReserve, storageReserve.toNat), (p, protect.toNat), (t, trace.toNat)]) (w16 c.tFf ++ w16 c.nFf ++ w16 c.tImp))

/-! ## HLD -/

/-- PLACE_HOLD (R51, R52). A target out of range completes BAD_ARGUMENT before the reserve and the duration are looked at; that CLAMPED is
then clear, whatever they are, is the model's choice (DESIGN CHOICE, log entry 37). -/
def Blocks.doPlaceHold (s : Blocks) (slot : Fin 32) (target : Byte) (reserve duration : Half) : Blocks :=
  match targetOfCode target with
  | none => s.finish slot (.plain .badArgument)
  | some t =>
    let r := clampNat 0 10000 reserve.toNat
    let d := clampNat 1 600 duration.toNat
    let clamped := anyClamped [(r, reserve.toNat), (d, duration.toNat)]
    let expiry := s.tmb.uptime + d * 1000
    let e : HoldEntry := ⟨.software, t, r, s.tmb.uptime, some expiry⟩
    let place := s.withPower (s.toPower.changeTable s.loads (placeEntry e s.hld.entries))
    match decidePlacement e s.hld.entries with
    | .new n => place.finish slot (.adopted clamped ([BitVec.ofNat 8 n, 0, 0, 0] ++ leBytes 8 expiry))
    | .refreshed n => place.finish slot (.adopted clamped ([BitVec.ofNat 8 n, 1, 0, 0] ++ leBytes 8 expiry))
    | .refused => s.finish slot ⟨.tableFull, clamped, false, [BitVec.ofNat 8 (softwareCount s.hld.entries)]⟩

/-- The SOFTWARE entry on a target. -/
def isSoftwareOn (t : Target) (e : HoldEntry) : Bool := decide (e.holder = .software) && decide (e.target = t)

/-- LIFT_HOLD (R53). -/
def Blocks.doLiftHold (s : Blocks) (slot : Fin 32) (target : Byte) : Blocks :=
  match targetOfCode target with
  | none => s.finish slot (.plain .badArgument)
  | some t =>
    match positionOf .software t s.hld.entries with
    | none => s.finish slot (.plain .noSuchHold)
    | some n =>
      (s.withPower (s.toPower.removeHolds s.loads (isSoftwareOn t))).finish slot
        (.adopted false ([BitVec.ofNat 8 n, 0, 0, 0] ++ leBytes 8 (placedAtOf s.hld.entries n 0)))

/-! ## CMU -/

/-- The monitors replaced. -/
def Blocks.withMonitors (s : Blocks) (ms : List Monitor) : Blocks := s.withFront { s.toFront with monitors := ms }

/-- The configuration of a SET_MONITOR with its coded fields clamped (R138). -/
def monitorConfigOf (kind mask edge enable alert group : Byte) (threshold : Word) : MonitorConfig where
  kind := eventOfCode (clampNat 0 13 kind.toNat)
  mask := mask
  threshold := threshold.toNat
  edge := decide (1 ≤ edge.toNat)
  enable := decide (1 ≤ enable.toNat)
  alert := decide (1 ≤ alert.toNat)
  group := groupOfCode (clampNat 0 2 group.toNat)

/-- SET_MONITOR (R138). An index out of range completes BAD_ARGUMENT with CLAMPED clear, whatever the other arguments are: the model's
choice (DESIGN CHOICE, log entry 37). -/
def Blocks.doSetMonitor (s : Blocks) (slot : Fin 32) (index kind mask edge enable alert group preloadFlag : Byte)
    (threshold preload : Word) : Blocks :=
  match s.monitors[index.toNat]? with
  | none => s.finish slot (.plain .badArgument)
  | some m =>
    let q : PendingConfig :=
      ⟨monitorConfigOf kind mask edge enable alert group threshold, if 1 ≤ preloadFlag.toNat then some preload else none⟩
    let clamped := decide (13 < kind.toNat) || decide (1 < edge.toNat) || decide (1 < enable.toNat) || decide (1 < alert.toNat)
      || decide (2 < group.toNat) || decide (1 < preloadFlag.toNat)
    (s.withMonitors (s.monitors.set index.toNat { m with pending := some q })).finish slot
      (.adopted clamped [index, eventCode q.config.kind, boolByte m.pending.isSome])

/-- A cleared monitor (R140). -/
def Monitor.clear (m : Monitor) : Monitor := { m with count := 0, wrapped := false, frozen := false, edgeMemory := false }

/-- The monitors with those that a mask names, from index `n` on, changed. -/
def changeNamed (mask : Byte) (g : Monitor → Monitor) : Nat → List Monitor → List Monitor
  | _, [] => []
  | n, m :: ms => (if mask.getLsbD n then g m else m) :: changeNamed mask g (n + 1) ms

/-- CLEAR_MONITORS (R140). -/
def Blocks.doClearMonitors (s : Blocks) (slot : Fin 32) (mask : Byte) : Blocks :=
  let s1 := s.withMonitors (changeNamed mask Monitor.clear 0 s.monitors)
  (if mask = 0 then s1 else s1.withFront s1.toFront.publishMonitors).finish slot (.adopted false [mask])

/-- The monitor's freeze group is named by a group mask (R141). -/
def inGroups (groups : Byte) (m : Monitor) : Bool :=
  match m.config.group with
  | .none => false
  | .g1 => groups.getLsbD 0
  | .g2 => groups.getLsbD 1

/-- The monitors that a thaw unfreezes, as a set of indices (R141). -/
def thawedSet (groups : Byte) (ms : List Monitor) : Byte := BitVec.ofNat 8 (packBits (ms.map fun m => m.frozen && inGroups groups m))

/-- THAW_MONITORS (R141). -/
def Blocks.doThawMonitors (s : Blocks) (slot : Fin 32) (groups : Byte) : Blocks :=
  let s1 := s.withMonitors (s.monitors.map fun m => if inGroups groups m then { m with frozen := false } else m)
  let set := thawedSet groups s.monitors
  (if set = 0 then s1 else s1.withFront s1.toFront.publishMonitors).finish slot (.adopted false [set])

/-! ## TMB -/

/-- The timebase after a SET_TIME (R145, step 2). -/
def Timebase.setTime (t : Timebase) (v : Word) : Timebase :=
  { t with calendar := v, timeValid := true, nextSecond := some (t.uptime + 1000), lastSet := some t.uptime }

/-- SET_TIME (R145). The old seconds are 0 while the old time is not valid. -/
def Blocks.doSetTime (s : Blocks) (slot : Fin 32) (seconds : Word) : Blocks :=
  let old := s.tmb
  let f := ({ s.toFront with tmb := old.setTime seconds }).publishTime.makeRecord (.timeSet old.timeValid old.calendar seconds)
  (s.withFront f).finish slot (.adopted false (leBytes 4 old.calendar.toNat ++ [boolByte old.timeValid]))

/-! ## The take and the sweep -/

/-- The owning block acts on a request (R161, step 4). -/
def Blocks.perform (s : Blocks) (slot : Fin 32) : Request → Blocks
  | .releaseBay b => s.doReleaseBay slot b
  | .cancelRelease b => s.doCancelRelease slot b
  | .setEnergyPolicy p c t m r o a => s.doSetEnergyPolicy slot p c t m r o a
  | .setReservoir c v e l => s.doSetReservoir slot c v e l
  | .loadCurve o n => s.doLoadCurve slot o n
  | .setLightMode m v => s.doSetLightMode slot m v
  | .setPanel a b c d e f g h => s.doSetPanel slot a b c d e f g h
  | .setMotion a b c d e f g h p t => s.doSetMotion slot a b c d e f g h p t
  | .placeHold t r d => s.doPlaceHold slot t r d
  | .liftHold t => s.doLiftHold slot t
  | .setMonitor i k m e n a g f t p => s.doSetMonitor slot i k m e n a g f t p
  | .clearMonitors m => s.doClearMonitors slot m
  | .thawMonitors g => s.doThawMonitors slot g
  | .setTime v => s.doSetTime slot v
  | .unknown _ => s.finish slot (.plain .unknownRequest)

/-- The slot's state byte reads POSTED (Table 10-3). -/
def Front.posted (f : Front) (slot : Fin 32) : Bool := decide (readByte f.mem (slotAt slot) = 1)

/-- The slot is in flight (R159). -/
def Front.flying (f : Front) (slot : Fin 32) : Bool := (f.entryOf slot).isSome

/-- The request in a slot's bytes. -/
def Front.requestIn (f : Front) (slot : Fin 32) : Request :=
  decodeRequest (readByte f.mem (slotAt slot + 1)) (readBytes f.mem (slotAt slot + 8) 40)

/-- The slot's kind, notify flag and tag as they stand. -/
def Front.copyOf (f : Front) (slot : Fin 32) : InFlight :=
  { slot := slot
    kind := readByte f.mem (slotAt slot + 1)
    notify := (readByte f.mem (slotAt slot + 2)).getLsbD 0
    tag := readByte f.mem (slotAt slot + 5) ++ readByte f.mem (slotAt slot + 4) }

/-- Steps 1 to 3 of a take: the copy joins the in-flight list, TAKEN is written, the slot is the last taken (R161). -/
def Front.markTaken (f : Front) (slot : Fin 32) : Front :=
  ({ f with inFlight := f.inFlight ++ [f.copyOf slot], lastSlot := slot }).write (slotAt slot) [2]

/-- The take of a slot (R161). -/
def Blocks.takeSlot (s : Blocks) (slot : Fin 32) : Blocks :=
  s.runEvent (fun b => (b.withFront (b.toFront.markTaken slot)).perform slot (s.toFront.requestIn slot)) id

/-- The slots in scan order, from the one after the last taken (R160). -/
def scanOrder (last : Fin 32) : List (Fin 32) := (List.finRange 32).map fun i => last + 1 + i

/-- One slot of a scan: taken if it reads POSTED and is not in flight (R160). -/
def Blocks.scanSlot (s : Blocks) (slot : Fin 32) : Blocks :=
  if s.toFront.posted slot && !s.toFront.flying slot then s.takeSlot slot else s

/-- A sweep: the log re-read, then, if EXCHANGE_ENABLE is set, the scan (R160). -/
def Blocks.sweep (s : Blocks) : Blocks :=
  let s1 := s.withFront s.toFront.reReadIndex
  if s1.exchangeEnable then (scanOrder s1.lastSlot).foldl Blocks.scanSlot s1 else s1

/-- The host writes a request into a slot, the state byte POSTED last; byte 3 and the result are left as they are (10.4.1). -/
def Front.post (f : Front) (p : Posting) (r : Request) : Front :=
  ((f.write (slotAt p.slot + 8) r.args).write (slotAt p.slot + 4) (leBytes 2 p.tag.toNat)).write (slotAt p.slot)
    [1, r.kind, boolByte p.notify]

/-- A request row: the host posts the request, and XIF takes that slot unless EXCHANGE_ENABLE is clear or the slot is in flight (R163, R168; log entry 6). -/
def Blocks.hostPosts (s : Blocks) (p : Posting) (r : Request) : Blocks :=
  let s1 := s.withFront (s.toFront.post p r)
  if s1.exchangeEnable && !s1.toFront.flying p.slot then s1.takeSlot p.slot else s1

/-! ## Exchange restart (R170) -/

/-- Step 1 on one slot: an in-flight one with its copy, a POSTED one with its bytes, completes ABORTED without REQ_DONE. -/
def Front.abortSlot (f : Front) (slot : Fin 32) : Front :=
  match f.entryOf slot with
  | some e => f.writeResult slot e.kind e.notify e.tag (.plain .aborted)
  | none =>
    if f.posted slot then
      let e := f.copyOf slot
      f.writeResult slot e.kind e.notify e.tag (.plain .aborted)
    else f

/-- Step 1: every in-flight and every POSTED slot, and the list is empty. -/
def Front.abortAll (f : Front) : Front :=
  { (List.finRange 32).foldl Front.abortSlot f with inFlight := [] }

/-- Step 2 on one bay: a software-started release is cancelled, its slot completed in step 1 (R20, R25). One in TRANSFER with cancel already pending changes in no field of Table 1-2: its slot alone is no longer open. -/
def Power.abortRelease (p : Power) (l : Loads) (b : Bay) : Power :=
  match (p.bay b).state with
  | .releaseWait r =>
    match r.origin with
    | .software _ => p.cancelRelease l b { r with slotOpen := false }
    | .button => p
  | _ => p

/-- Steps 1 to 4: the slots, the software releases, the pending curve, the SOFTWARE holds (R170). R170 names no order between the bays. Bay A's software release is cancelled before bay B's, so of two bays that return to STANDBY at one restart with the feed on RESERVOIR, bay A meets the choice point first and becomes the feed; R30 lets either be first (DESIGN CHOICE, unsafe, log entry 38). -/
def Blocks.restartJobs (s : Blocks) : Blocks :=
  let s1 := s.withFront s.toFront.abortAll
  let s2 := s1.withPower ((s1.toPower.abortRelease s1.loads .A).abortRelease s1.loads .B)
  let s3 := s2.withLight { s2.blc with pendingCurve := none }
  s3.withPower (s3.toPower.removeHolds s3.loads fun e => decide (e.holder = .software))

/-- Steps 5 and 6: the registers, the restart count, the RESTART record (R170). Whether the flags that step 6 raises survive beside RESTART is free (log entry 3). -/
def Front.restartRegisters (f : Front) : Front :=
  let n := f.restartCount + 1
  let g := ({ f with summary := flagBit .restart, summaryEnable := 0, exchangeEnable := false, restartCount := n }).write 0x04
    (leBytes 4 n.toNat)
  let h := g.makeRecord (.restart true n)
  if Config.restartRecordFlagsSurvive then h else { h with summary := flagBit .restart }

/-- An exchange restart is one event (R170). -/
def Blocks.exchangeRestart (s : Blocks) : Blocks := s.runEvent Blocks.restartJobs Front.restartRegisters

end Sys2Proof.Machine
end

