-- ==== Sys2Proof/Machine/Backlight.lean ====
section
/-! DEFINITION. The commands of the backlight: application points and the panel enable line (chapter 5). -/

namespace Sys2Proof.Machine

/-- A pending curve is adopted: active, the version incremented, the target formed anew, the slot OK (R85). -/
def Blocks.adoptCurve (s : Blocks) : Blocks :=
  match s.blc.pendingCurve with
  | none => s
  | some c =>
    let v := s.blc.curveVersion + 1
    let l := { s.blc with curve := c.points, curveVersion := v, pendingCurve := none }
    (s.withLight l.retarget).finish c.slot (.adopted c.clamped (h16 v ++ [BitVec.ofNat 8 c.points.length]))

/-- An ordinary application point: the curve's adoption and the duty steps (R85, R93). -/
def Blocks.applyPoint (s : Blocks) : Blocks :=
  let t := s.adoptCurve
  t.withLight t.blc.stepDuty

/-- BLC's application mode replaced. -/
def Blocks.withAppMode (s : Blocks) (m : AppMode) : Blocks := s.withLight { s.blc with appMode := m }

/-- The next free-run point, in FREE_RUN (Table 5-2). -/
def AppMode.nextPoint : AppMode → Option Nat
  | .freeRun n => some n
  | .frame _ => none

/-- The frame watch deadline, in FRAME (Table 5-2). -/
def AppMode.watchDeadline : AppMode → Option Nat
  | .frame d => some d
  | .freeRun _ => none

/-- FRAME_START (R92). -/
def execFrameStart (s : State) : Host.Outcome State Fault Refusal :=
  s.whilePowered fun x => x.applyPoint.withAppMode (.frame (x.tmb.uptime + 100))

/-- FREE_RUN_POINT (R92): the next point is 16 ms after this one. -/
def execFreeRunPoint (s : State) : Host.Outcome State Fault Refusal :=
  s.whilePowered fun x =>
    x.whenDue x.blc.appMode.nextPoint fun y => y.applyPoint.withAppMode (.freeRun (y.blc.appMode.nextPoint.getD 0 + 16))

/-- FRAME_WATCH_DEADLINE (R92): FREE_RUN, the expiry itself a point, the next 16 ms after it. -/
def execFrameWatchDeadline (s : State) : Host.Outcome State Fault Refusal :=
  s.whilePowered fun x =>
    x.whenDue x.blc.appMode.watchDeadline fun y => y.applyPoint.withAppMode (.freeRun (y.blc.appMode.watchDeadline.getD 0 + 16))

/-- PANEL_ENABLE_FALL (R96): the live duty becomes 0, the driver off. -/
def execPanelEnableFall (s : State) : Host.Outcome State Fault Refusal :=
  s.whilePowered fun x => x.withLight { x.blc with panelEnable := false, liveDuty := 0 }

/-- PANEL_ENABLE_RISE (R96): the driver enabled at duty 0. A rise of a line already high is none. -/
def execPanelEnableRise (s : State) : Host.Outcome State Fault Refusal :=
  s.whilePowered fun x => if x.blc.panelEnable then x else x.withLight { x.blc with panelEnable := true, liveDuty := 0 }

end Sys2Proof.Machine
end

