-- ==== Sys2Proof/Machine/Link.lean ====
section
/-! DEFINITION. The pack link: transactions, their repeat, the reads of identification and polls (R5 to R9). -/

namespace Sys2Proof.Machine

/-- The sum of the first `n` bytes of a reply. -/
def byteSum (bytes : BitVec 136) : Nat → Nat
  | 0 => 0
  | n + 1 => byteSum bytes n + blockByte bytes n

/-- All 17 bytes sum to 0 modulo 256 (R5). -/
def checksumGood (bytes : BitVec 136) : Bool := decide (byteSum bytes 17 % 256 = 0)

/-- The 16-byte block of a reply. -/
def blockOf (bytes : BitVec 136) : BitVec 128 := bytes.extractLsb' 0 128

/-- The link does something else. -/
def Power.setActivity (p : Power) (b : Bay) (a : LinkActivity) : Power := p.setLink b { p.link b with activity := a }

/-- When the transaction in progress began, if there is one. -/
def LinkActivity.startedAt : LinkActivity → Option Nat
  | .identRead _ _ t => some t
  | .pollRead _ _ t => some t
  | .idle => none
  | .identWait _ _ => none

/-- A bad transaction: the first is repeated at once; after the repeat the read has failed, and identification waits 100 ms, or the poll fails (R5, R7, R9). -/
def Power.badTransaction (p : Power) (l : Loads) (b : Bay) : Power :=
  match (p.link b).activity with
  | .identRead k again _ =>
    p.setActivity b (if again then .identWait k (p.tmb.uptime + 100) else .identRead k true p.tmb.uptime)
  | .pollRead k again _ =>
    if again then p.pollBad l b else p.setActivity b (.pollRead k true p.tmb.uptime)
  | .idle => p
  | .identWait _ _ => p

/-- A read that breaks the range check of R6: the state of charge of block 2 above 100. -/
def rangeBroken (k : Nat) (d : BitVec 128) : Bool := decide (k = 2) && decide (100 < blockByte d 6)

/-- Identity validity is judged as soon as blocks 0 and 1 are held (R7). -/
def Power.judgeIdentity (p : Power) (l : Loads) (b : Bay) (i : Identity) : Power :=
  let q := p.setBay b { p.bay b with identity := some i }
  if i.valid then q.setActivity b (.identRead 2 false q.tmb.uptime) else q.toFault l b .ident

/-- Identification has read block `k` (R7). -/
def Power.identBlock (p : Power) (l : Loads) (b : Bay) (k : Nat) (d : BitVec 128) : Power :=
  let n := p.link b
  match k with
  | 0 => p.setLink b { n with block0 := d, activity := .identRead 1 false p.tmb.uptime }
  | 1 => (p.setLink b { n with block1 := d }).judgeIdentity l b (decodeIdentity n.block0 d)
  | 2 => p.setLink b { n with block2 := d, activity := .identRead 3 false p.tmb.uptime }
  | _ => p.identified l b (decodePackState n.block2 d none)

/-- A poll has read block `k`: block 3 follows block 2, and ends it (R9). -/
def Power.pollBlock (p : Power) (l : Loads) (b : Bay) (k : Nat) (d : BitVec 128) : Power :=
  let n := p.link b
  if k = 2 then p.setLink b { n with block2 := d, activity := .pollRead 3 false p.tmb.uptime }
  else p.pollGood l b (decodePackState n.block2 d none)

/-- A transaction succeeded; a read that breaks a range check counts as failed (R5, R6). -/
def Power.goodTransaction (p : Power) (l : Loads) (b : Bay) (d : BitVec 128) : Power :=
  match (p.link b).activity with
  | .identRead k _ _ => if rangeBroken k d then p.setActivity b (.identWait k (p.tmb.uptime + 100)) else p.identBlock l b k d
  | .pollRead k _ _ => if rangeBroken k d then p.pollBad l b else p.pollBlock l b k d
  | .idle => p
  | .identWait _ _ => p

/-- All 17 bytes have arrived; they count within 10 ms of the index write (R5). -/
def Power.linkReply (p : Power) (l : Loads) (b : Bay) (bytes : BitVec 136) : Power :=
  match (p.link b).activity.startedAt with
  | none => p
  | some t =>
    if t + 10 < p.tmb.uptime then p
    else if checksumGood bytes then p.goodTransaction l b (blockOf bytes)
    else p.badTransaction l b

/-- 10 ms have passed since the index write with fewer than 17 bytes (R5). -/
def Power.linkTimeout (p : Power) (l : Loads) (b : Bay) : Power :=
  match (p.link b).activity.startedAt with
  | none => p
  | some t => if t + 10 ≤ p.tmb.uptime then p.badTransaction l b else p

/-- 100 ms after a failed identification read the missing block is read again (R7). -/
def Power.identRetry (p : Power) (b : Bay) : Power :=
  match (p.link b).activity with
  | .identWait k t => if t ≤ p.tmb.uptime then p.setActivity b (.identRead k false p.tmb.uptime) else p
  | _ => p

/-- The identification deadline passes in SEATED (R7). -/
def Power.identDeadline (p : Power) (l : Loads) (b : Bay) : Power :=
  match (p.bay b).state with
  | .seated d => if d ≤ p.tmb.uptime then p.toFault l b .ident else p
  | _ => p

/-- The poll period expires: a poll begins with block 2, and the next is due 250 ms on (R9). -/
def Power.pollDue (p : Power) (b : Bay) : Power :=
  let n := p.link b
  match n.pollAt with
  | none => p
  | some t =>
    if t ≤ p.tmb.uptime then
      p.setLink b { n with
        pollAt := some (t + 250)
        activity := if n.activity = .idle then .pollRead 2 false p.tmb.uptime else n.activity }
    else p

end Sys2Proof.Machine
end

