-- ==== Sys2Proof/Machine/Sources.lean ====
section
/-! DEFINITION. The feed's own events: DC arrival and departure, collapse, the power-sense sample with the reservoir arithmetic, exhaustion and confirmation, and the losses of the power sense and thermistor (R28 to R46, R171 to R173). -/

namespace Sys2Proof.Machine

/-- A change of the bays, FHU or HLD that reads SFE and BLC through the loads. -/
def Blocks.onPower (s : Blocks) (f : Power → Loads → Power) : Blocks := s.withPower (f s.toPower s.loads)

/-- The FEED_LOST event of a lost source (Table 8-2). -/
def feedLostEvent (lost : FeedKind) : Occurrence :=
  ⟨.feedLost, match lost with
    | .dc => 1
    | .bayA => 2
    | .bayB => 4
    | .reservoir => 0, none⟩

/-- An unplanned loss as a whole event: the FEED_LOST event follows the emergency pass (R40). -/
def Blocks.lossEvent (s : Blocks) (core : Power → Loads → Power) : Blocks :=
  s.runEvent (fun b => b.onPower core) fun f => f.sendEvent (feedLostEvent s.feed.kind)

/-- DC is present, or no longer. -/
def Power.setDc (p : Power) (present : Bool) : Power := { p with feed := { p.feed with dcPresent := present } }

/-- DC arrival: the feed moves at once, or waits for the switchover in flight (R31). -/
def Power.arriveDc (p : Power) : Power :=
  let q := p.setDc true
  if q.feed.switchover.isSome ∨ q.feed.kind = .dc then q else q.moveFeed .dc .ordinary false

/-- DC departure while DC is not the feed: a switchover to DC is not confirmed (R32, R36). -/
def Power.departDc (p : Power) (l : Loads) : Power :=
  let q := p.setDc false
  match q.feed.switchover with
  | some w => if w.target = .dc then q.failSwitchover l else q
  | none => q

/-- E_avail from a reservoir voltage (R42). -/
def availableEnergy (c vMin vRes : Nat) : Nat := if vRes ≤ vMin then 0 else c * (vRes * vRes - vMin * vMin) / 2000000

/-- The remaining holdover in seconds (R42). -/
def remainingHoldover (eAvail eShut pSys : Nat) : Nat :=
  if eAvail ≤ eShut then 0 else if pSys = 0 then 65535 else min 65535 ((eAvail - eShut) / pSys)

/-- FHU recomputes E_avail and the remaining holdover (R42). -/
def FeedRec.recompute (f : FeedRec) (r : PowerReading) : FeedRec :=
  let e := availableEnergy f.resC f.vMin r.vRes
  { f with eAvail := e, remaining := remainingHoldover e f.eShut r.pSys }

/-- A recomputation at FHU: the adopted C, V_min and E_shut come into force (R42, R49). -/
def Power.recompute (p : Power) (r : PowerReading) : Power :=
  { p with feed := p.feed.recompute r, fhu := { p.fhu with eShutInForce := p.feed.eShut } }

/-- The qualifier bits of HOLDOVER_EXHAUSTED (Table 8-2). -/
def exhaustedEvent (planned : Bool) : Occurrence := ⟨.holdoverExhausted, if planned then 1 else 2, none⟩

/-- The record of an exhaustion: written at once, or deferred while an acknowledgement wait runs (R46, step 5). -/
def Power.recordExhaustion (p : Power) (h : Holdover) : Power :=
  let d := (p.tmb.uptime - h.start) / 1000
  if p.hld.wait.isSome then { p with fhu := { p.fhu with deferredEnd := some ⟨d, h.planned⟩ } }
  else p.makeRecord (.holdoverEnd .exhausted d h.planned p.hld.outcome)

/-- Exhaustion is declared (R46). -/
def Power.exhaust (p : Power) (h : Holdover) : Power :=
  let q := ({ p with feed := { p.feed with holdover := some { h with exhausted := true } } }).placeEnergy
  let q := { q with
    feed := { q.feed with causes := { q.feed.causes with exhausted := true } }
    toFront := q.toFront.sendEvent (exhaustedEvent h.planned) }
  q.recordExhaustion h

/-- Exhaustion is judged at a recomputation of E_avail (R46). -/
def Power.judgeExhaustion (p : Power) : Power :=
  match p.feed.holdover with
  | none => p
  | some h => if !h.exhausted && decide (p.feed.eAvail ≤ p.feed.eShut) then p.exhaust h else p

/-- The target reads at or above its acceptance level (R35, step 2). -/
def accepts (r : PowerReading) (vMin : Nat) : FeedKind → Bool
  | .dc => decide (9000 ≤ r.vDc)
  | .bayA => decide (5500 ≤ r.vA) && decide (0 < r.iA)
  | .bayB => decide (5500 ≤ r.vB) && decide (0 < r.iB)
  | .reservoir => decide (vMin < r.vRes)

/-- A good sample before the deadline confirms a switchover whose target delivers (R35, step 2). -/
def Power.judgeSwitchover (p : Power) (l : Loads) (r : PowerReading) : Power :=
  match p.feed.switchover with
  | none => p
  | some w => if p.tmb.uptime < w.deadline ∧ accepts r p.feed.vMin w.target then p.confirmSwitchover l else p

/-- A good sample at FHU: E_avail, exhaustion, the switchover in flight (R171). -/
def Power.goodSample (p : Power) (l : Loads) (r : PowerReading) : Power :=
  ((p.recompute r).judgeExhaustion).judgeSwitchover l r

/-- SFE's latest readings replaced; a loss ends (R171). -/
def SfeRec.takePower (f : SfeRec) (r : PowerReading) (now : Nat) : SfeRec :=
  { f with power := r, powerHealth := .valid, powerGoodAt := now }

/-- A good power-sense sample (R171). -/
def Blocks.goodSample (s : Blocks) (r : PowerReading) : Blocks :=
  let s1 := { s with sfe := s.sfe.takePower r s.tmb.uptime }
  s1.onPower fun p l => p.goodSample l r

/-- A sensor is declared lost: one SENSOR_FAULT record. -/
def Blocks.sensorFault (s : Blocks) (x : Sensor) : Blocks := s.withFront (s.toFront.makeRecord (.sensorFault x))

/-- The power sense is declared lost, once (R171). -/
def Blocks.losePower (s : Blocks) : Blocks :=
  if s.sfe.powerHealth = .lost then s else ({ s with sfe := { s.sfe with powerHealth := .lost } }).sensorFault .powerSense

/-- The thermistor is declared lost, once (R173). -/
def Blocks.loseTherm (s : Blocks) : Blocks :=
  if s.sfe.thermHealth = .lost then s else ({ s with sfe := { s.sfe with thermHealth := .lost } }).sensorFault .thermistor

/-- A conversion neither open nor short (R173). -/
def goodTherm (t : Int) : Bool := decide (-400 ≤ t) && decide (t ≤ 1500)

/-- A thermistor conversion (R173). -/
def Blocks.readTherm (s : Blocks) (t : Int) : Blocks :=
  if goodTherm t then { s with sfe := { s.sfe with panelTemp := t, thermHealth := .valid, thermGoodAt := s.tmb.uptime } }
  else s.loseTherm

/-- The ambient sensor is declared lost, once (R81). -/
def Blocks.loseAmbient (s : Blocks) : Blocks :=
  if s.blc.ambient = .stale then s else ({ s with blc := { s.blc with ambient := .stale } }).sensorFault .ambient

end Sys2Proof.Machine
end

