-- ==== Sys2Proof/Machine/Bays.lean ====
section
/-! DEFINITION. The commands of the battery bays and their pack links (chapter 1). -/

namespace Sys2Proof.Machine

/-- An event of the bays, FHU or HLD, with the frame of every event. -/
def Blocks.powerEvent (s : Blocks) (core : Power → Loads → Power) : Blocks := s.runEvent (fun b => b.onPower core) id

/-- Presence closes (R3). -/
def Power.seat (p : Power) (b : Bay) : Power :=
  let q := p.setBay b { p.bay b with presence := true }
  match (p.bay b).state with
  | .empty => q.enterSeated b
  | _ => q

/-- The earliest uptime of a presence closing: the contact starts as open and is debounced for 200 ms (R3, R175). -/
def earliestPresence : Nat := 200

/-- PRESENCE_CLOSED (R3), no sooner than 200 ms after power-on reset (R175; log entry 8). -/
def execPresenceClosed (b : Bay) (s : State) : Host.Outcome State Fault Refusal :=
  s.whilePowered fun x => x.whenDue (some earliestPresence) fun y => y.powerEvent fun p _ => p.seat b

/-- PRESENCE_OPENED (R3, Table 1-4); a feed bay is an unplanned loss (R39). -/
def execPresenceOpened (b : Bay) (s : State) : Host.Outcome State Fault Refusal :=
  s.whilePowered fun x =>
    if (x.bay b).state = .empty then x.powerEvent fun p _ => p.setBay b { p.bay b with presence := false }
    else if x.feed.kind = feedOf b then x.lossEvent fun p l => p.unseat l b
    else x.powerEvent fun p l => p.unseat l b

/-- The debounced latch sense changes; open confirms an unlatch (R4, R19). -/
def Power.senseLatch (p : Power) (b : Bay) (isOpen : Bool) : Power :=
  let q := p.setBay b { p.bay b with latchOpen := isOpen }
  match (p.bay b).state with
  | .releaseWait r =>
    match r.sub with
    | .unlatching _ => if isOpen then q.confirmOpen b r else q
    | _ => q
  | _ => q

/-- LATCH_SENSE_CHANGE (R19, R4). -/
def execLatchSenseChange (b : Bay) (isOpen : Bool) (s : State) : Host.Outcome State Fault Refusal :=
  s.whilePowered fun x => x.powerEvent fun p _ => p.senseLatch b isOpen

/-- A button press, decided by the bay's state (R14, Table 1-7). -/
def Power.pressButton (p : Power) (l : Loads) (b : Bay) : Power :=
  match (p.bay b).state with
  | .releaseWait r => p.cancelRelease l b r
  | st =>
    match st.former with
    | some f => p.startRelease l b f .button
    | none => p

/-- BUTTON_PRESS (R14). -/
def execButtonPress (b : Bay) (s : State) : Host.Outcome State Fault Refusal :=
  s.whilePowered fun x => x.powerEvent fun p l => p.pressButton l b

/-- PACK_LINK_REPLY (R5). -/
def execPackLinkReply (b : Bay) (bytes : BitVec 136) (s : State) : Host.Outcome State Fault Refusal :=
  s.whilePowered fun x => x.powerEvent fun p l => p.linkReply l b bytes

/-- PACK_LINK_TIMEOUT (R5). -/
def execPackLinkTimeout (b : Bay) (s : State) : Host.Outcome State Fault Refusal :=
  s.whilePowered fun x => x.powerEvent fun p l => p.linkTimeout l b

/-- IDENTIFICATION_RETRY (R7). -/
def execIdentificationRetry (b : Bay) (s : State) : Host.Outcome State Fault Refusal :=
  s.whilePowered fun x => x.powerEvent fun p _ => p.identRetry b

/-- IDENTIFICATION_DEADLINE (R7). -/
def execIdentificationDeadline (b : Bay) (s : State) : Host.Outcome State Fault Refusal :=
  s.whilePowered fun x => x.powerEvent fun p l => p.identDeadline l b

/-- POLL_DUE (R9). -/
def execPollDue (b : Bay) (s : State) : Host.Outcome State Fault Refusal :=
  s.whilePowered fun x => x.powerEvent fun p _ => p.pollDue b

/-- The release-wait limit expires; only a HELD bay's release ends (R16). -/
def Power.waitLimit (p : Power) (l : Loads) (b : Bay) : Power :=
  match (p.bay b).state with
  | .releaseWait r =>
    if r.sub = .held ∧ r.limitAt ≤ p.tmb.uptime then p.endRefused l b r .holdTimeout false else p
  | _ => p

/-- RELEASE_WAIT_LIMIT (R16). -/
def execReleaseWaitLimit (b : Bay) (s : State) : Host.Outcome State Fault Refusal :=
  s.whilePowered fun x => x.powerEvent fun p l => p.waitLimit l b

/-- The unlatch wait expires: LATCH_STUCK with the sense closed, confirmed with it open (R19; log entry 24). -/
def Power.unlatchExpires (p : Power) (b : Bay) : Power :=
  match (p.bay b).state with
  | .releaseWait r =>
    match r.sub with
    | .unlatching t =>
      if t ≤ p.tmb.uptime then (if (p.bay b).latchOpen then p.confirmOpen b r else p.endStuck b r) else p
    | _ => p
  | _ => p

/-- UNLATCH_WAIT (R19). -/
def execUnlatchWait (b : Bay) (s : State) : Host.Outcome State Fault Refusal :=
  s.whilePowered fun x => x.powerEvent fun p _ => p.unlatchExpires b

/-- The OPEN window expires: relocked and identified again (R21). -/
def Power.openExpires (p : Power) (b : Bay) : Power :=
  match (p.bay b).state with
  | .opened t => if t ≤ p.tmb.uptime then p.enterSeated b else p
  | _ => p

/-- OPEN_WINDOW (R21). -/
def execOpenWindow (b : Bay) (s : State) : Host.Outcome State Fault Refusal :=
  s.whilePowered fun x => x.powerEvent fun p _ => p.openExpires b

/-- The refusal blink ends (R22). -/
def Power.blinkEnds (p : Power) (b : Bay) : Power :=
  match (p.bay b).blinkEnd with
  | none => p
  | some t => if t ≤ p.tmb.uptime then p.setBlink b none else p

/-- REFUSAL_BLINK_END (R22). -/
def execRefusalBlinkEnd (b : Bay) (s : State) : Host.Outcome State Fault Refusal :=
  s.whilePowered fun x => x.powerEvent fun p _ => p.blinkEnds b

end Sys2Proof.Machine
end

