-- ==== Sys2Proof/Machine/Feeds.lean ====
section
/-! DEFINITION. The commands of the feed: DC, collapse, switchover (chapter 2). -/

namespace Sys2Proof.Machine

/-- The earliest uptime of a DC arrival: DC present starts clear and the comparator must hold for 50 ms (R28, R175). -/
def earliestArrival : Nat := 50

/-- DC_ARRIVAL (R31), no sooner than 50 ms after power-on reset (R175; log entry 8). -/
def execDcArrival (s : State) : Host.Outcome State Fault Refusal :=
  s.whilePowered fun x => x.whenDue (some earliestArrival) fun y => y.powerEvent fun p _ => p.arriveDc

/-- DC_DEPARTURE (R32): an unplanned loss while DC is the feed. -/
def execDcDeparture (s : State) : Host.Outcome State Fault Refusal :=
  s.whilePowered fun x =>
    if x.feed.kind = .dc then x.lossEvent fun p l => (p.setDc false).loss l .dcDeparture
    else x.powerEvent fun p l => p.departDc l

/-- PACK_COLLAPSE (R28): judged on the feed bay alone, no sooner than 5 ms after it became the feed. -/
def execPackCollapse (b : Bay) (s : State) : Host.Outcome State Fault Refusal :=
  s.whilePowered fun x =>
    if x.feed.kind = feedOf b ∧ x.fhu.collapseFrom + 5 ≤ x.tmb.uptime then x.lossEvent fun p l => p.loss l .voltage else x

/-- SWITCHOVER_DEADLINE (R35). -/
def execSwitchoverDeadline (s : State) : Host.Outcome State Fault Refusal :=
  s.whilePowered fun x =>
    x.whenDue (x.feed.switchover.map fun w => w.deadline) fun y => y.powerEvent fun p l => p.failSwitchover l

end Sys2Proof.Machine
end

