-- ==== Sys2Proof/Machine/Holds.lean ====
section
/-! DEFINITION. The hold table's own commands: expiry and storage acknowledgement (chapter 3). -/

namespace Sys2Proof.Machine

/-- The expiry of the SOFTWARE entry on a target, if it stands (R54). -/
def HoldTable.expiryOf (h : HoldTable) (t : Target) : Option Nat :=
  (h.software.find? fun e => decide (e.target = t)).bind fun e => e.expiry

/-- HOLD_EXPIRY (R54). -/
def execHoldExpiry (t : Target) (s : State) : Host.Outcome State Fault Refusal :=
  s.whilePowered fun x =>
    x.whenDue (x.hld.expiryOf t) fun y => y.powerEvent fun p l => p.removeHolds l (isSoftwareOn t)

/-- The acknowledge line takes a level; asserted during a wait it ends the wait ACKED (R60). -/
def Power.setAckLine (p : Power) (asserted : Bool) : Power :=
  let q := { p with hld := { p.hld with ackLine := asserted } }
  if asserted && p.hld.wait.isSome then q.endWait .acked else q

/-- STORAGE_ACKNOWLEDGE (R60). -/
def execStorageAcknowledge (asserted : Bool) (s : State) : Host.Outcome State Fault Refusal :=
  s.whilePowered fun x => x.powerEvent fun p _ => p.setAckLine asserted

/-- ACK_DEADLINE (R60). -/
def execAckDeadline (s : State) : Host.Outcome State Fault Refusal :=
  s.whilePowered fun x => x.whenDue x.hld.wait fun y => y.powerEvent fun p _ => p.endWait .notAcked

end Sys2Proof.Machine
end

