-- ==== Sys2Proof/Machine/Posted.lean ====
section
/-! DEFINITION. The request commands: the host posts the request into a slot, and XIF takes the slot (10.3, 10.4). -/

namespace Sys2Proof.Machine

/-- RELEASE_BAY (R14). -/
def execReleaseBay (p : Posting) (bay : Byte) (s : State) : Host.Outcome State Fault Refusal :=
  s.whilePowered fun x => x.hostPosts p (.releaseBay bay)

/-- CANCEL_RELEASE (R14, R20). -/
def execCancelRelease (p : Posting) (bay : Byte) (s : State) : Host.Outcome State Fault Refusal :=
  s.whilePowered fun x => x.hostPosts p (.cancelRelease bay)

/-- SET_ENERGY_POLICY (R49). -/
def execSetEnergyPolicy (p : Posting) (preference chargeLimit : Byte) (tSwap : Half) (margin : Byte) (releaseLimit openWindow : Half)
    (pAdapter : Word) (s : State) : Host.Outcome State Fault Refusal :=
  s.whilePowered fun x => x.hostPosts p (.setEnergyPolicy preference chargeLimit tSwap margin releaseLimit openWindow pAdapter)

/-- SET_RESERVOIR (R49). -/
def execSetReservoir (p : Posting) (c vMin eShut pResLimit : Word) (s : State) : Host.Outcome State Fault Refusal :=
  s.whilePowered fun x => x.hostPosts p (.setReservoir c vMin eShut pResLimit)

/-- LOAD_CURVE (R84). -/
def execLoadCurve (p : Posting) (offset count : Byte) (s : State) : Host.Outcome State Fault Refusal :=
  s.whilePowered fun x => x.hostPosts p (.loadCurve offset count)

/-- SET_LIGHT_MODE (R89). -/
def execSetLightMode (p : Posting) (mode : Byte) (value : Half) (s : State) : Host.Outcome State Fault Refusal :=
  s.whilePowered fun x => x.hostPosts p (.setLightMode mode value)

/-- SET_PANEL (R90). -/
def execSetPanel (p : Posting) (nMin nMax pBlMax dFloor sUp sDown kUp kDown : Half) (s : State) : Host.Outcome State Fault Refusal :=
  s.whilePowered fun x => x.hostPosts p (.setPanel nMin nMax pBlMax dFloor sUp sDown kUp kDown)

/-- SET_MOTION (R104). -/
def execSetMotion (p : Posting) (tFf nFf tImp bandLow bandHigh tSettle latchReserve storageReserve : Half) (protect trace : Byte)
    (s : State) : Host.Outcome State Fault Refusal :=
  s.whilePowered fun x => x.hostPosts p (.setMotion tFf nFf tImp bandLow bandHigh tSettle latchReserve storageReserve protect trace)

/-- PLACE_HOLD (R52). -/
def execPlaceHold (p : Posting) (target : Byte) (reserve duration : Half) (s : State) : Host.Outcome State Fault Refusal :=
  s.whilePowered fun x => x.hostPosts p (.placeHold target reserve duration)

/-- LIFT_HOLD (R53). -/
def execLiftHold (p : Posting) (target : Byte) (s : State) : Host.Outcome State Fault Refusal :=
  s.whilePowered fun x => x.hostPosts p (.liftHold target)

/-- SET_MONITOR (R138). -/
def execSetMonitor (p : Posting) (index kind mask edge enable alert group preloadFlag : Byte) (threshold preload : Word)
    (s : State) : Host.Outcome State Fault Refusal :=
  s.whilePowered fun x => x.hostPosts p (.setMonitor index kind mask edge enable alert group preloadFlag threshold preload)

/-- CLEAR_MONITORS (R140). -/
def execClearMonitors (p : Posting) (mask : Byte) (s : State) : Host.Outcome State Fault Refusal :=
  s.whilePowered fun x => x.hostPosts p (.clearMonitors mask)

/-- THAW_MONITORS (R141). -/
def execThawMonitors (p : Posting) (groups : Byte) (s : State) : Host.Outcome State Fault Refusal :=
  s.whilePowered fun x => x.hostPosts p (.thawMonitors groups)

/-- SET_TIME (R145). -/
def execSetTime (p : Posting) (seconds : Word) (s : State) : Host.Outcome State Fault Refusal :=
  s.whilePowered fun x => x.hostPosts p (.setTime seconds)

/-- UNKNOWN_REQUEST (R161). -/
def execUnknownRequest (p : Posting) (kind : Byte) (s : State) : Host.Outcome State Fault Refusal :=
  s.whilePowered fun x => x.hostPosts p (.unknown kind)

end Sys2Proof.Machine
end

