-- ==== Sys2Proof/Machine/Registers.lean ====
section
/-! DEFINITION. The commands of the register window and of the exchange area as the host writes them (10.1, 10.5, 10.6). -/

namespace Sys2Proof.Machine

/-- ATTENTION_REQUESTS (R167, R160). -/
def execAttentionRequests (s : State) : Host.Outcome State Fault Refusal := s.whilePowered Blocks.sweep

/-- ATTENTION_LOG (R167, R148). -/
def execAttentionLog (s : State) : Host.Outcome State Fault Refusal := s.whilePowered fun x => x.quiet Front.reReadIndex

/-- ATTENTION_TRACE (R167, R128). -/
def execAttentionTrace (s : State) : Host.Outcome State Fault Refusal := s.whilePowered fun x => x.quiet Front.releaseTrace

/-- EXCHANGE_ENABLE is set or cleared; setting it from clear takes a sweep (R168). -/
def Blocks.writeEnable (s : Blocks) (on : Bool) : Blocks :=
  let t := s.quiet fun f => { f with exchangeEnable := on }
  if on && !s.exchangeEnable then t.sweep else t

/-- EXCHANGE_ENABLE (R168). -/
def execExchangeEnable (on : Bool) (s : State) : Host.Outcome State Fault Refusal := s.whilePowered fun x => x.writeEnable on

/-- EXCHANGE_RESTART: a CONTROL write with RESTART set, whatever its EXCHANGE_ENABLE bit (R168, R170). -/
def execExchangeRestart (_enableBit : Bool) (s : State) : Host.Outcome State Fault Refusal := s.whilePowered Blocks.exchangeRestart

/-- HOST_LINK_RESET: an exchange restart with the same effects (R170, R176). -/
def execHostLinkReset (s : State) : Host.Outcome State Fault Refusal := s.whilePowered fun x => x.exchangeRestart

/-- SUMMARY_WRITE (R165). -/
def execSummaryWrite (w : RegWrite) (s : State) : Host.Outcome State Fault Refusal :=
  s.whilePowered fun x => x.quiet fun f => { f with summary := clearedSummary f.summary w }

/-- SUMMARY_ENABLE_WRITE (R166). -/
def execSummaryEnableWrite (w : RegWrite) (s : State) : Host.Outcome State Fault Refusal :=
  s.whilePowered fun x => x.quiet fun f => { f with summaryEnable := writtenEnable f.summaryEnable w }

/-- REGISTER_WRITE_IGNORED (R169). -/
def execRegisterWriteIgnored (_o : IgnoredOffset) (_w : RegWrite) (s : State) : Host.Outcome State Fault Refusal := .next s

/-! ## What the host reads

A host read changes no state of the part (R155), so no command stands for one; these are the values it gives. -/

/-- The word that each register reads, by its offset over 4: SUMMARY, SUMMARY_ENABLE, ATTENTION as 0, CONTROL with RESTART as 0,
IDENT, and 0 from 0x14 on (Table 10-5, R167 to R169). -/
def Front.register (f : Front) : Nat → Word
  | 0 => f.summary &&& summaryMask
  | 1 => f.summaryEnable &&& summaryMask
  | 2 => 0
  | 3 => if f.exchangeEnable then 1 else 0
  | 4 => identValue
  | _ => 0

/-- The byte at an offset of the register window, registers little-endian (5.3, R169). -/
def Front.windowByte (f : Front) (offset : Nat) : Byte := (f.register (offset / 4)).extractLsb' (8 * (offset % 4)) 8

/-- What a host read of `n` bytes at an offset of the register window gives (R155, R169). -/
def Front.readWindow (f : Front) (offset : Nat) : Nat → List Byte
  | 0 => []
  | n + 1 => f.windowByte offset :: f.readWindow (offset + 1) n

/-- What a host read of `n` bytes of the exchange area gives (R155, Table 10-1). -/
def Front.readArea (f : Front) (offset n : Nat) : List Byte := readBytes f.mem offset n

/-! ## What the host writes into the area -/

/-- The bytes of a host write, least significant first (5.3). -/
def writeDataBytes : WriteData → List Byte
  | .one v => [v]
  | .two v => leBytes 2 v.toNat
  | .four v => leBytes 4 v.toNat

/-- HOST_MEMORY_WRITE (R155): the bytes named, and nothing else; outside the area a fault. -/
def execHostMemoryWrite (offset : Nat) (data : WriteData) (s : State) : Host.Outcome State Fault Refusal :=
  if Config.areaSize < offset + (writeDataBytes data).length then .fault .outsideExchangeArea
  else s.whilePowered fun x => x.quiet fun f => f.write offset (writeDataBytes data)

end Sys2Proof.Machine
end

