-- ==== Sys2Proof/Machine/Sensors.lean ====
section
/-! DEFINITION. The commands of the sensors: power sense, thermistor, ambient light, accelerometer (chapters 5, 6, 11). -/

namespace Sys2Proof.Machine

/-- A conversion of the power sense; the next is 10 ms on. A bad sample changes no reading (R171). -/
def Blocks.convertPower (s : Blocks) (reading : Option PowerReading) : Blocks :=
  let t := s.withTimers { s.timers with powerSense := s.timers.powerSense + 10 }
  match reading with
  | none => t
  | some r => t.runEvent (fun y => y.goodSample r) id

/-- POWER_SENSE_SAMPLE (R171): one each 10 ms of uptime, the first at 10 ms. -/
def execPowerSenseSample (reading : Option PowerReading) (s : State) : Host.Outcome State Fault Refusal :=
  s.whilePowered fun x => x.whenDue (some x.timers.powerSense) fun y => y.convertPower reading

/-- POWER_SENSE_LOST (R171): 50 ms without a good sample. -/
def execPowerSenseLost (s : State) : Host.Outcome State Fault Refusal :=
  s.whilePowered fun x => x.whenDue (some (x.sfe.powerGoodAt + 50)) Blocks.losePower

/-- THERMISTOR_READING (R173): one each 100 ms of uptime, the first at 100 ms. -/
def execThermistorReading (t : Int) (s : State) : Host.Outcome State Fault Refusal :=
  s.whilePowered fun x =>
    x.whenDue (some x.timers.thermistor) fun y => (y.withTimers { y.timers with thermistor := y.timers.thermistor + 100 }).readTherm t

/-- THERMISTOR_LOST (R173): 1 s without a good reading. -/
def execThermistorLost (s : State) : Host.Outcome State Fault Refusal :=
  s.whilePowered fun x => x.whenDue (some (x.sfe.thermGoodAt + 1000)) Blocks.loseTherm

/-- AMBIENT_SAMPLE (R79); the sensor reports 120,000 for any brighter light (5.2). -/
def execAmbientSample (lux : Nat) (s : State) : Host.Outcome State Fault Refusal :=
  s.whilePowered fun x => { x with blc := x.blc.sample (min 120000 lux) x.tmb.uptime }

/-- AMBIENT_LOST (R81): 500 ms without a sample. -/
def execAmbientLost (s : State) : Host.Outcome State Fault Refusal :=
  s.whilePowered fun x => x.whenDue (some (x.blc.ambientFrom + 500)) Blocks.loseAmbient

/-- ACCEL_SAMPLE (R100). -/
def execAccelSample (x y z : Int) (s : State) : Host.Outcome State Fault Refusal :=
  s.whilePowered fun b => b.runEvent (fun c => c.takeSample ⟨clampAxis x, clampAxis y, clampAxis z⟩) id

/-- SAMPLE_WATCH (R101): not rearmed while the accelerometer is lost. -/
def execSampleWatch (s : State) : Host.Outcome State Fault Refusal :=
  s.whilePowered fun x =>
    if x.mot.health = .lost then x
    else x.whenDue (some x.mot.watchDeadline) fun y => y.runEvent Blocks.loseAccel id

/-- LIFT_DEADLINE (R101). -/
def execLiftDeadline (s : State) : Host.Outcome State Fault Refusal :=
  s.whilePowered fun x => x.whenDue x.mot.liftDeadline fun y => y.runEvent Blocks.liftAfterLoss id

/-- The settle deadline, present in SETTLE (Table 6-2). -/
def MotionState.settleDeadline : MotionState → Option Nat
  | .settle d => some d
  | _ => none

/-- SETTLE_DEADLINE (R114). -/
def execSettleDeadline (s : State) : Host.Outcome State Fault Refusal :=
  s.whilePowered fun x => x.whenDue x.mot.state.settleDeadline fun y => y.runEvent Blocks.settleLimit id

end Sys2Proof.Machine
end

