-- ==== Sys2Proof/Machine/Supply.lean ====
section
/-! DEFINITION. The commands of the keep-alive supply (R174, R175). -/

namespace Sys2Proof.Machine

/-- POWER_ON_RESET: every block at its power-on state, the latch senses as read; the commands that wait, wait on (R175). -/
def execPowerOnReset (latchOpenA latchOpenB : Bool) (s : State) : Host.Outcome State Fault Refusal :=
  let b := powerOnBlocks latchOpenA latchOpenB
  .next { b with pins := derivePins b, pending := s.pending }

/-- KEEP_ALIVE_FAIL: the part stops, keeps no state, and its outputs take their unpowered levels (R174; log entry 4). -/
def execKeepAliveFail (s : State) : Host.Outcome State Fault Refusal :=
  .next { powerOnBlocks false false with powered := false, pins := unpoweredPins, pending := s.pending }

end Sys2Proof.Machine
end

