-- ==== Sys2Proof/Machine/Timing.lean ====
section
/-! DEFINITION. The commands of the periodic timers and the calendar (R63, R120, R143, R144, R158, R160). -/

namespace Sys2Proof.Machine

/-- The PERIODIC trigger, and the timer's next expiry 100 ms on (R63). -/
def Blocks.duePeriodic (s : Blocks) : Blocks :=
  (s.withTimers { s.timers with pass := s.timers.pass + 100 }).withPower { s.toPower with due := { s.due with periodic := true } }

/-- PERIODIC_TIMER (R63). -/
def execPeriodicTimer (s : State) : Host.Outcome State Fault Refusal :=
  s.whilePowered fun x => x.whenDue (some x.timers.pass) fun y => y.runEvent Blocks.duePeriodic id

/-- SWEEP_TIMER (R160). -/
def execSweepTimer (s : State) : Host.Outcome State Fault Refusal :=
  s.whilePowered fun x => x.whenDue (some x.timers.sweep) fun y => (y.withTimers { y.timers with sweep := y.timers.sweep + 20 }).sweep

/-- ENERGY_PAGE_PERIODIC (R158). -/
def execEnergyPagePeriodic (s : State) : Host.Outcome State Fault Refusal :=
  s.whilePowered fun x =>
    x.whenDue (some x.timers.energyPage) fun y =>
      (y.withTimers { y.timers with energyPage := y.timers.energyPage + 250 }).publishEnergy

/-- MOTION_PAGE_PERIODIC (R120). -/
def execMotionPagePeriodic (s : State) : Host.Outcome State Fault Refusal :=
  s.whilePowered fun x =>
    x.whenDue (some x.timers.motionPage) fun y =>
      (y.withTimers { y.timers with motionPage := y.timers.motionPage + 50 }).publishMotion

/-- TIME_PAGE_PERIODIC (R143). -/
def execTimePagePeriodic (s : State) : Host.Outcome State Fault Refusal :=
  s.whilePowered fun x =>
    x.whenDue (some x.timers.timePage) fun y =>
      (y.withTimers { y.timers with timePage := y.timers.timePage + 1000 }).quiet Front.publishTime

/-- The calendar advances by one second, wrapping; the next step is 1,000 ms on (R144). -/
def Timebase.stepCalendar (t : Timebase) : Timebase :=
  { t with calendar := t.calendar + 1, nextSecond := t.nextSecond.map fun n => n + 1000 }

/-- CALENDAR_STEP (R144). -/
def execCalendarStep (s : State) : Host.Outcome State Fault Refusal :=
  s.whilePowered fun x => x.whenDue x.tmb.nextSecond fun y => y.quiet fun f => { f with tmb := f.tmb.stepCalendar }

end Sys2Proof.Machine
end

