-- ==== Sys2Proof/Machine/Dispatch.lean ====
section
/-! DEFINITION. The dispatch: one arm per command, each one call of that command's meaning. -/

namespace Sys2Proof.Machine

def exec (i : Instr) (s : State) : Host.Outcome State Fault Refusal :=
  match i with
  | .powerOnReset latchOpenA latchOpenB => Sys2Proof.Machine.execPowerOnReset latchOpenA latchOpenB s
  | .keepAliveFail => Sys2Proof.Machine.execKeepAliveFail s
  | .presenceClosed b => Sys2Proof.Machine.execPresenceClosed b s
  | .presenceOpened b => Sys2Proof.Machine.execPresenceOpened b s
  | .latchSenseChange b isOpen => Sys2Proof.Machine.execLatchSenseChange b isOpen s
  | .buttonPress b => Sys2Proof.Machine.execButtonPress b s
  | .packLinkReply b bytes => Sys2Proof.Machine.execPackLinkReply b bytes s
  | .packLinkTimeout b => Sys2Proof.Machine.execPackLinkTimeout b s
  | .identificationRetry b => Sys2Proof.Machine.execIdentificationRetry b s
  | .identificationDeadline b => Sys2Proof.Machine.execIdentificationDeadline b s
  | .pollDue b => Sys2Proof.Machine.execPollDue b s
  | .releaseWaitLimit b => Sys2Proof.Machine.execReleaseWaitLimit b s
  | .unlatchWait b => Sys2Proof.Machine.execUnlatchWait b s
  | .openWindow b => Sys2Proof.Machine.execOpenWindow b s
  | .refusalBlinkEnd b => Sys2Proof.Machine.execRefusalBlinkEnd b s
  | .dcArrival => Sys2Proof.Machine.execDcArrival s
  | .dcDeparture => Sys2Proof.Machine.execDcDeparture s
  | .packCollapse b => Sys2Proof.Machine.execPackCollapse b s
  | .switchoverDeadline => Sys2Proof.Machine.execSwitchoverDeadline s
  | .powerSenseSample reading => Sys2Proof.Machine.execPowerSenseSample reading s
  | .powerSenseLost => Sys2Proof.Machine.execPowerSenseLost s
  | .thermistorReading t => Sys2Proof.Machine.execThermistorReading t s
  | .thermistorLost => Sys2Proof.Machine.execThermistorLost s
  | .ambientSample lux => Sys2Proof.Machine.execAmbientSample lux s
  | .ambientLost => Sys2Proof.Machine.execAmbientLost s
  | .accelSample x y z => Sys2Proof.Machine.execAccelSample x y z s
  | .sampleWatch => Sys2Proof.Machine.execSampleWatch s
  | .liftDeadline => Sys2Proof.Machine.execLiftDeadline s
  | .settleDeadline => Sys2Proof.Machine.execSettleDeadline s
  | .holdExpiry t => Sys2Proof.Machine.execHoldExpiry t s
  | .storageAcknowledge asserted => Sys2Proof.Machine.execStorageAcknowledge asserted s
  | .ackDeadline => Sys2Proof.Machine.execAckDeadline s
  | .periodicTimer => Sys2Proof.Machine.execPeriodicTimer s
  | .frameStart => Sys2Proof.Machine.execFrameStart s
  | .freeRunPoint => Sys2Proof.Machine.execFreeRunPoint s
  | .frameWatchDeadline => Sys2Proof.Machine.execFrameWatchDeadline s
  | .panelEnableFall => Sys2Proof.Machine.execPanelEnableFall s
  | .panelEnableRise => Sys2Proof.Machine.execPanelEnableRise s
  | .sweepTimer => Sys2Proof.Machine.execSweepTimer s
  | .energyPagePeriodic => Sys2Proof.Machine.execEnergyPagePeriodic s
  | .motionPagePeriodic => Sys2Proof.Machine.execMotionPagePeriodic s
  | .timePagePeriodic => Sys2Proof.Machine.execTimePagePeriodic s
  | .calendarStep => Sys2Proof.Machine.execCalendarStep s
  | .attentionRequests => Sys2Proof.Machine.execAttentionRequests s
  | .attentionLog => Sys2Proof.Machine.execAttentionLog s
  | .attentionTrace => Sys2Proof.Machine.execAttentionTrace s
  | .exchangeEnable on => Sys2Proof.Machine.execExchangeEnable on s
  | .exchangeRestart enableBit => Sys2Proof.Machine.execExchangeRestart enableBit s
  | .hostLinkReset => Sys2Proof.Machine.execHostLinkReset s
  | .summaryWrite w => Sys2Proof.Machine.execSummaryWrite w s
  | .summaryEnableWrite w => Sys2Proof.Machine.execSummaryEnableWrite w s
  | .registerWriteIgnored o w => Sys2Proof.Machine.execRegisterWriteIgnored o w s
  | .hostMemoryWrite offset data => Sys2Proof.Machine.execHostMemoryWrite offset data s
  | .releaseBay p bay => Sys2Proof.Machine.execReleaseBay p bay s
  | .cancelRelease p bay => Sys2Proof.Machine.execCancelRelease p bay s
  | .setEnergyPolicy p preference chargeLimit tSwap margin releaseLimit openWindow pAdapter => Sys2Proof.Machine.execSetEnergyPolicy p preference chargeLimit tSwap margin releaseLimit openWindow pAdapter s
  | .setReservoir p c vMin eShut pResLimit => Sys2Proof.Machine.execSetReservoir p c vMin eShut pResLimit s
  | .loadCurve p offset count => Sys2Proof.Machine.execLoadCurve p offset count s
  | .setLightMode p mode value => Sys2Proof.Machine.execSetLightMode p mode value s
  | .setPanel p nMin nMax pBlMax dFloor sUp sDown kUp kDown => Sys2Proof.Machine.execSetPanel p nMin nMax pBlMax dFloor sUp sDown kUp kDown s
  | .setMotion p tFf nFf tImp bandLow bandHigh tSettle latchReserve storageReserve protect trace => Sys2Proof.Machine.execSetMotion p tFf nFf tImp bandLow bandHigh tSettle latchReserve storageReserve protect trace s
  | .placeHold p target reserve duration => Sys2Proof.Machine.execPlaceHold p target reserve duration s
  | .liftHold p target => Sys2Proof.Machine.execLiftHold p target s
  | .setMonitor p index kind mask edge enable alert group preloadFlag threshold preload => Sys2Proof.Machine.execSetMonitor p index kind mask edge enable alert group preloadFlag threshold preload s
  | .clearMonitors p mask => Sys2Proof.Machine.execClearMonitors p mask s
  | .thawMonitors p groups => Sys2Proof.Machine.execThawMonitors p groups s
  | .setTime p seconds => Sys2Proof.Machine.execSetTime p seconds s
  | .unknownRequest p kind => Sys2Proof.Machine.execUnknownRequest p kind s

end Sys2Proof.Machine
end

