-- ==== Sys2Proof/WellFormed.lean ====
section
/-! DEFINITION. Which terms of `Instr` are commands the outside can send: the operand ranges that the manual states for the sensors, the exchange area and the request kinds. -/

namespace Sys2Proof

/-- A reading fits the 32-bit fields of the energy page (Table 10-9). -/
def PowerReading.fits (r : PowerReading) : Bool :=
  decide (r.pSys < 2 ^ 32) && decide (r.pBl < 2 ^ 32) && decide (r.vDc < 2 ^ 32) && decide (r.vRes < 2 ^ 32)

/-- An accelerometer axis spans −16,000..+16,000 mg (5.1, note 3). -/
def axisInRange (a : Int) : Bool := decide (-16000 ≤ a) && decide (a ≤ 16000)

/-- Bytes a host write covers. -/
def WriteData.size : WriteData → Nat
  | .one _ => 1
  | .two _ => 2
  | .four _ => 4

/-- The command is one the outside can send. -/
def Instr.wellFormed : Instr → Bool
  | .powerSenseSample (some r) => r.fits
  | .ambientSample lux => decide (lux ≤ 120000)
  | .accelSample x y z => axisInRange x && axisInRange y && axisInRange z
  | .hostMemoryWrite offset data => decide (offset + data.size ≤ Config.areaSize)
  | .unknownRequest _ kind => decide (kind.toNat = 0) || decide (15 ≤ kind.toNat)
  | _ => true

end Sys2Proof
end

