-- ==== Sys2Proof/Safety.lean ====
section
/-! DEFINITION. What a reachable state looks like between two commands: the invariants that every step keeps, each in the terms of the rules it comes from, and the vocabulary of frames. -/

namespace Sys2Proof.Safety

open Sys2Proof.Machine

/-! ## Frames over the exchange area -/

/-- A range of offsets, the first in it and the first past it. -/
abbrev Range := Nat × Nat

/-- The offset lies in the range. -/
def Range.holds (r : Range) (a : Nat) : Prop := r.1 ≤ a ∧ a < r.2

/-- Every byte outside the ranges reads as before. -/
def keepsOutside (rs : List Range) (m m' : Mem) : Prop :=
  ∀ a, (∀ r ∈ rs, ¬ Range.holds r a) → readByte m' a = readByte m a

/-- The 256 bytes of a page (Table 10-1). -/
def pageRange (p : PageId) : Range := (p.offset, p.offset + 256)

/-- The 64 bytes of a slot (Table 10-1). -/
def slotRange (i : Fin 32) : Range := (slotAt i, slotAt i + 64)

/-- The 64 log entries (Table 10-1). -/
def logRange : Range := (0x1000, 0x2000)

/-- The write index and the missed count, which the part writes; the read index between them is the host's (Table 10-5). -/
def indexRange : Range := (0x08, 0x0C)

/-- The missed count. -/
def missedRange : Range := (0x10, 0x14)

/-- What a record and CMU's answer to it may write. -/
def recordRanges : List Range := [indexRange, missedRange, logRange, pageRange .monitor]

/-- What BAY's and FHU's page may write beside that (Table 10-1). -/
def energyRanges : List Range := [pageRange .energy]

/-- What a budget pass may write: its page, the records it leads to and the pages of the event around it. -/
def passRanges : List Range := pageRange .light :: pageRange .energy :: pageRange .motion :: pageRange .mirror :: recordRanges

/-! ## Between two commands -/

/-- The part runs, and no pass trigger is left over from an earlier event (R64). -/
def Ready (s : State) : Prop := s.powered = true ∧ s.due = noCauses

/-- The exchange area is in its canonical form (Machine/Memory.lean). -/
def MemCanonical (s : State) : Prop := Memory.wf s.mem = true

/-- The output signals are those of the records, or those of an unpowered part (Table 11-2). -/
def PinsDriven (s : State) : Prop := s.pins = if s.powered then derivePins s.toBlocks else unpoweredPins

/-- No trigger waits (R64). -/
def Settled (s : State) : Prop := s.due = noCauses

/-- A page is never left half written: every generation is even (R157). -/
def GensEven (g : Generations) : Prop := ∀ p : PageId, (g.get p).toNat % 2 = 0

/-- At most 64 entries are unread, and records are missed only while all 64 are (R148 to R151). -/
def LogAccounted (l : LogRec) : Prop :=
  (l.writeIndex - l.effRead).toNat ≤ 64 ∧ (l.missed ≠ 0 → (l.writeIndex - l.effRead).toNat = 64)

/-- With the panel enable line low the live duty is 0 (R96). -/
def DarkWhenOff (l : LightRec) : Prop := l.panelEnable = false → l.liveDuty = 0

/-- The charger assignment is what R24 gives it: it needs no re-evaluation. -/
def ChargerSettled (p : Power) : Prop := p.assignment = p.assign

/-- The bay is unlocked by BAY itself: OPEN, or RELEASE_WAIT(UNLATCHING) (R4). -/
def unlocked (st : BayState) : Bool := !st.lockDemand

/-- A hold beats a release: no bay stands unlocked while an entry targets its latch (R16, R58). -/
def HoldsBeatReleases (p : Power) : Prop := ∀ b, unlocked (p.bay b).state = true → p.hld.demand b = false

/-- The bay record says that it feeds: FEEDING, or RELEASE_WAIT with former FEEDING (Tables 1-1, 1-2). -/
def feeds : BayState → Bool
  | .feeding _ => true
  | .releaseWait r => decide (r.former = .feeding)
  | _ => false

/-- A release that is UNLATCHING has left the feed behind (R18). -/
def unlatchedFeeds : BayState → Bool
  | .releaseWait r =>
    match r.sub with
    | .unlatching _ => decide (r.former = .feeding)
    | _ => false
  | _ => false

/-- The link reads for an identification (R7). -/
def identifies : LinkActivity → Bool
  | .identRead _ _ _ => true
  | .identWait _ _ => true
  | _ => false

/-- A SEATED state (Table 1-1). -/
def isSeated : BayState → Bool
  | .seated _ => true
  | _ => false

/-- One source feeds, and the bays agree with the feed kind (R2, R27): the feed bay and no other feeds; a switchover runs from a
feed bay to DC while present, a STANDBY other bay, or the reservoir (R35, R36); holdover and lean stand together, on the reservoir (R44). -/
structure OneFeed (p : Power) : Prop where
  agrees   : ∀ b, p.feed.kind = feedOf b ↔ feeds (p.bay b).state = true
  unlatch  : ∀ b, unlatchedFeeds (p.bay b).state = false
  identify : ∀ b, identifies (p.link b).activity = true → isSeated (p.bay b).state = true
  fromBay  : p.feed.switchover.isSome = true → p.feed.kind.bay.isSome = true
  target   : ∀ w, p.feed.switchover = some w →
    match w.target with
    | .dc => p.feed.dcPresent = true
    | .bayA => p.bayA.state = .standby
    | .bayB => p.bayB.state = .standby
    | .reservoir => True
  holdover : p.feed.holdover.isSome = true → p.feed.kind = .reservoir
  lean     : p.feed.lean = p.feed.holdover.isSome
  dcFeed   : p.feed.kind = .dc → p.feed.dcPresent = true
  dcWaits  : p.feed.dcPresent = true → p.feed.kind = .dc ∨ p.feed.switchover.isSome = true

/-- The pair of a hold entry. -/
def pairOf (e : HoldEntry) : Holder × Target := (e.holder, e.target)

/-- The hold table has its 16 positions, and each pair of holder and target stands at most once (R50, R51). -/
def HoldsDistinct (h : HoldTable) : Prop :=
  h.entries.length = Config.holdPositions ∧ ((h.entries.filterMap id).map pairOf).Nodup

/-- The wait runs only while the quiesce line is up, and shows PENDING (R60). -/
def WaitRuns (h : HoldTable) : Prop := h.wait.isSome = true → h.quiesce = true ∧ h.outcome = .pending

/-- The value lies in the range. -/
def within (lo hi n : Nat) : Prop := lo ≤ n ∧ n ≤ hi

/-- The same as a test. -/
def inRange (lo hi n : Nat) : Bool := decide (lo ≤ n) && decide (n ≤ hi)

/-- Every field of the panel configuration is in its range (R90, Table 5-3). -/
def PanelInRange (c : PanelConfig) : Prop :=
  within 0 500 c.nMin ∧ within 100 3000 c.nMax ∧ c.nMin ≤ c.nMax ∧ within 1000 30000 c.pBlMax ∧ within 0 256 c.dFloor
    ∧ within 1 128 c.sUp ∧ within 1 128 c.sDown ∧ within 1 256 c.kUp ∧ within 1 256 c.kDown

/-- Every duty is at most 1,024 (5.3). -/
def DutiesInRange (l : LightRec) : Prop := l.dTarget ≤ 1024 ∧ l.pendingDuty ≤ 1024 ∧ l.ceiling ≤ 1024 ∧ l.liveDuty ≤ 1024

/-- Every field of the motion configuration is in its range (R104, Table 6-4). -/
def MotionInRange (c : MotionConfig) : Prop :=
  within 100 800 c.tFf ∧ within 16 160 c.nFf ∧ within 1500 15000 c.tImp ∧ within 600 1000 c.bandLow
    ∧ within 1000 1400 c.bandHigh ∧ within 160 3200 c.tSettle ∧ within 0 10000 c.latchReserve ∧ within 0 10000 c.storageReserve

/-- Every policy field is in its range (R49, R23, Tables 1-3 and 2-2). -/
def PolicyInRange (f : FeedRec) (b : BayPolicy) : Prop :=
  within 50 100 b.chargeLimit ∧ within 5 60 b.releaseLimit ∧ within 3 30 b.openWindow ∧ within 5 120 f.tSwap
    ∧ within 0 50 f.margin ∧ within 0 150000 f.pAdapter ∧ within 1000 60000 f.resC ∧ within 3000 9000 f.vMin
    ∧ within 0 500000 f.eShut ∧ within 5000 60000 f.pResLimit

/-- The bay's release is to complete this slot (R14). -/
def releaseOwes (st : BayState) (slot : Fin 32) : Prop :=
  match st with
  | .releaseWait r => r.origin = .software slot ∧ r.slotOpen = true
  | _ => False

/-- The pending curve is to complete this slot (R85). -/
def curveOwes (l : LightRec) (slot : Fin 32) : Prop := ∃ c, l.pendingCurve = some c ∧ c.slot = slot

/-- A slot is in flight exactly while a release or the pending curve is to complete it, and only one of them is (R159). -/
structure SlotsOwed (s : Blocks) : Prop where
  owed   : ∀ slot, s.flying slot = true ↔ releaseOwes s.bayA.state slot ∨ releaseOwes s.bayB.state slot ∨ curveOwes s.blc slot
  bays   : ∀ slot, ¬ (releaseOwes s.bayA.state slot ∧ releaseOwes s.bayB.state slot)
  curveA : ∀ slot, ¬ (releaseOwes s.bayA.state slot ∧ curveOwes s.blc slot)
  curveB : ∀ slot, ¬ (releaseOwes s.bayB.state slot ∧ curveOwes s.blc slot)

/-! ## Requests -/

/-- The rows that post a request, with the posting and the request (Table 10-8). -/
def requestOf : Instr → Option (Posting × Request)
  | .releaseBay p b => some (p, .releaseBay b)
  | .cancelRelease p b => some (p, .cancelRelease b)
  | .setEnergyPolicy p a c t m r o w => some (p, .setEnergyPolicy a c t m r o w)
  | .setReservoir p c v e l => some (p, .setReservoir c v e l)
  | .loadCurve p o n => some (p, .loadCurve o n)
  | .setLightMode p m v => some (p, .setLightMode m v)
  | .setPanel p a b c d e f g h => some (p, .setPanel a b c d e f g h)
  | .setMotion p a b c d e f g h x y => some (p, .setMotion a b c d e f g h x y)
  | .placeHold p t r d => some (p, .placeHold t r d)
  | .liftHold p t => some (p, .liftHold t)
  | .setMonitor p i k m e n a g f t w => some (p, .setMonitor i k m e n a g f t w)
  | .clearMonitors p m => some (p, .clearMonitors m)
  | .thawMonitors p g => some (p, .thawMonitors g)
  | .setTime p v => some (p, .setTime v)
  | .unknownRequest p k => some (p, .unknown k)
  | _ => none

/-- The part takes a request that is posted now: it runs, the exchange is enabled, the slot is not in flight (R160, R163). -/
def Taken (s : State) (p : Posting) : Prop := Ready s ∧ s.exchangeEnable = true ∧ s.flying p.slot = false

/-- The posting that the bytes of a slot spell (Table 10-7). -/
def copied (s : State) (i : Fin 32) : Posting :=
  ⟨i, (readByte s.mem (slotAt i + 2)).getLsbD 0, readByte s.mem (slotAt i + 5) ++ readByte s.mem (slotAt i + 4)⟩

/-- The slot reads DONE with this result and these flags: bytes 0 to 7, then the 12 bytes of data (R162, Table 10-7). -/
def answeredFlags (m : Mem) (p : Posting) (kind flags : Byte) (code : ResultCode) (data : List Byte) : Prop :=
  readBytes m (slotAt p.slot) 8
      = [3, kind, boolByte p.notify, flags] ++ leBytes 2 p.tag.toNat ++ leBytes 2 (resultCode code)
    ∧ readBytes m (slotAt p.slot + 48) 12 = padTo 12 data

/-- The same with CLAMPED alone of the flags. -/
def answered (m : Mem) (p : Posting) (kind : Byte) (code : ResultCode) (clamped : Bool) (data : List Byte) : Prop :=
  answeredFlags m p kind (boolByte clamped) code data

/-- SUMMARY after a completion: REQ_DONE where the notify flag is set (R162). -/
def doneSummary (summary : Word) (p : Posting) : Word := if p.notify then summary ||| 0x01 else summary

/-! ## Events -/

/-- A record made from the log as it stood is in its entry, or, where there was no room, counted missed (R149, R150). -/
def Logged (f g : Front) (r : LogRecord) (time : Timebase) : Prop :=
  if f.log.full then g.log.writeIndex = f.log.writeIndex ∧ g.log.missed ≠ 0
  else readBytes g.mem (logEntryAt (f.log.writeIndex.toNat % 64)) 64 = r.bytes f.log.writeIndex time
    ∧ g.log.writeIndex ≠ f.log.writeIndex

/-- An event of bay `b` that makes no record: beside the bay and its link, the charger assignment by R24 and the energy page, once
(log entry 10); `rs` are the slots that it completes. -/
def BayEventOver (rs : List Range) (b : Bay) (s t : State) : Prop :=
  t = { s with
    bayA := t.bayA, bayB := t.bayB, linkA := t.linkA, linkB := t.linkB, assignment := t.assignment
    mem := t.mem, gens := { s.gens with energy := s.gens.energy + 2 }, pins := derivePins t.toBlocks }
  ∧ t.bay (otherBay b) = s.bay (otherBay b) ∧ t.link (otherBay b) = s.link (otherBay b)
  ∧ ChargerSettled t.toPower ∧ keepsOutside (energyRanges ++ rs) s.mem t.mem

/-- An event of bay `b` that makes no record and completes no slot. -/
def BayEvent (b : Bay) (s t : State) : Prop := BayEventOver [] b s t

/-- An event of bay `b` that makes records: beside those of `BayEventOver`, the log, the flags it raises and CMU's monitors. -/
def BayRecordEventOver (rs : List Range) (b : Bay) (s t : State) : Prop :=
  t = { s with
    bayA := t.bayA, bayB := t.bayB, linkA := t.linkA, linkB := t.linkB, assignment := t.assignment
    mem := t.mem, gens := { s.gens with energy := s.gens.energy + 2, monitor := t.gens.monitor }
    summary := t.summary, log := { t.log with effRead := s.log.effRead }, monitors := t.monitors
    pins := derivePins t.toBlocks }
  ∧ t.bay (otherBay b) = s.bay (otherBay b) ∧ t.link (otherBay b) = s.link (otherBay b)
  ∧ ChargerSettled t.toPower ∧ keepsOutside (pageRange .energy :: recordRanges ++ rs) s.mem t.mem

/-- An event of bay `b` that makes records and completes no slot. -/
def BayRecordEvent (b : Bay) (s t : State) : Prop := BayRecordEventOver [] b s t

/-- An event of the bays and FHU that makes records and brings no budget pass: the other blocks are as before. -/
def FeedEvent (s t : State) : Prop :=
  t = { s with
    bayA := t.bayA, bayB := t.bayB, linkA := t.linkA, linkB := t.linkB, assignment := t.assignment, feed := t.feed, fhu := t.fhu
    mem := t.mem, gens := { s.gens with energy := s.gens.energy + 2, monitor := t.gens.monitor }
    summary := t.summary, log := { t.log with effRead := s.log.effRead }, monitors := t.monitors
    pins := derivePins t.toBlocks }
  ∧ ChargerSettled t.toPower

/-! ## The end of a release -/

/-- The posting of a slot, as its in-flight entry copies it (R159). -/
def postingOf (e : InFlight) : Posting := ⟨e.slot, e.notify, e.tag⟩

/-- The in-flight entry that the end of a release completes: that of its software slot, none for a button's release (R14). -/
def owedBy (s : State) (r : Release) : Option InFlight :=
  match r.origin with
  | .button => none
  | .software slot => if r.slotOpen then s.entryOf slot else none

/-- The in-flight list once that entry has completed (R162). -/
def listWithout (s : State) : Option InFlight → List InFlight
  | none => s.inFlight
  | some e => s.inFlight.filter fun x => decide (x.slot ≠ e.slot)

/-- SUMMARY once that entry has completed. -/
def summaryAfter (summary : Word) : Option InFlight → Word
  | none => summary
  | some e => doneSummary summary (postingOf e)

/-- The bytes that its completion writes. -/
def endRanges : Option InFlight → List Range
  | none => []
  | some e => [slotRange e.slot]

/-- The release's slot, where it has one to complete, is DONE with the bay, the takeover source and the wait (Table 10-8; log entry 11),
is off the in-flight list, and raised REQ_DONE if it was to (R162). -/
def ReleaseEnds (b : Bay) (r : Release) (code : ResultCode) (failed : Bool) (s t : State) : Prop :=
  t.inFlight = listWithout s (owedBy s r)
  ∧ ∀ e, owedBy s r = some e → (e.notify = true → t.summary &&& 0x01 ≠ 0)
    ∧ answeredFlags t.mem (postingOf e) e.kind (if failed then 2 else 0) code
        ([bayCode b, takeoverCode r.takeover, 0, 0] ++ leBytes 4 (s.tmb.uptime - r.requestAt))

/-- An event of bay `b` that ends a release without a record. -/
def ReleaseEvent (b : Bay) (r : Release) (s t : State) : Prop :=
  BayEventOver (endRanges (owedBy s r)) b
    { s with inFlight := listWithout s (owedBy s r), summary := summaryAfter s.summary (owedBy s r) } t

/-- An event of bay `b` that ends a release and makes records. -/
def ReleaseRecordEvent (b : Bay) (r : Release) (s t : State) : Prop :=
  BayRecordEventOver (endRanges (owedBy s r)) b { s with inFlight := t.inFlight } t

/-- A release as its start records it (R15), on a bay that is not the feed: HELD under a hold, else UNLATCHING. -/
def startedRelease (s : State) (b : Bay) (f : FormerState) (o : Origin) : Release :=
  { sub := if s.hld.demand b then .held else .unlatching (s.tmb.uptime + 500)
    former := f, standing := (s.bay b).state.standing, origin := o, slotOpen := decide (o ≠ .button)
    requestAt := s.tmb.uptime, limitAt := s.tmb.uptime + s.bayPolicy.releaseLimit * 1000, takeover := none }

/-- The bay record once such a release has started (R15). -/
def startedBay (s : State) (b : Bay) (f : FormerState) (o : Origin) : BayRec :=
  { s.bay b with
    state := .releaseWait (startedRelease s b f o), blinkEnd := none
    identity := if f = .seated then none else (s.bay b).identity
    packState := if f = .seated then none else (s.bay b).packState }

/-- The bay record on entry to SEATED (R3, R7, R21). -/
def seatedBay (s : State) (b : Bay) : BayRec :=
  { s.bay b with state := .seated (s.tmb.uptime + 2000), identity := none, packState := none, failedPolls := 0 }

/-- The link on entry to SEATED: identification reads block 0 (R7). -/
def seatedLink (s : State) (b : Bay) : Link :=
  { s.link b with activity := .identRead 0 false s.tmb.uptime, pollAt := none }

/-- The bay record and link of an EMPTY bay whose presence is open (R3, Table 1-4). -/
def emptiedBay (s : State) (b : Bay) : BayRec := ⟨.empty, none, none, 0, none, false, (s.bay b).latchOpen⟩

/-- The bay record once a release has returned to its former state, SEATED entered afresh (R13). -/
def formerBay (s : State) (b : Bay) (r : Release) : BayRec :=
  match r.former with
  | .seated => seatedBay s b
  | .standby => { s.bay b with state := .standby }
  | .feeding => { s.bay b with state := .feeding r.standing }
  | .fault x => { s.bay b with state := .fault x }

/-- The link then: polls go on in STANDBY, FEEDING and FAULT(THERMAL) and end in the other faults (R9). -/
def formerLink (s : State) (b : Bay) (r : Release) : Link :=
  match r.former with
  | .seated => seatedLink s b
  | .standby => s.link b
  | .feeding => s.link b
  | .fault x => if x = .thermal then s.link b else { s.link b with activity := .idle, pollAt := none }

/-- Where a release returns to STANDBY, FHU finds nothing to do: no choice point from RESERVOIR (R30), no move pending (R34). -/
def settlesQuietly (s : State) (r : Release) : Prop :=
  r.former = .standby → s.feed.kind ≠ .reservoir ∧ s.feed.pending = ⟨false, false⟩

/-! ## FHU's plans -/

/-- P_lean (R43). -/
def leanPower (s : State) : Nat :=
  (s.sfe.power.pSys - s.sfe.power.pBl) + s.hld.rProt + s.blc.panel.pBlMax * s.blc.panel.dFloor / 1024

/-- The holdover plan test, with the E_shut in force (R43, R49). -/
def planOf (s : State) : PlanResult :=
  if s.feed.pResLimit < leanPower s then .failPower
  else if s.feed.eAvail < s.fhu.eShutInForce + leanPower s * s.feed.tSwap then .failEnergy else .pass

/-- The bay that is not `b` qualifies: STANDBY, its pack at 5 % or more, P_pack at P_sys or above (R29, R37). -/
def byOther (s : State) (b : Bay) : Bool :=
  let o := s.bay (otherBay b)
  o.state.isStandby && o.packState.isSome && decide (5 ≤ o.soc) && decide (s.sfe.power.pSys ≤ o.power)

/-- The first source that can take over from bay `b`: DC, the other bay, and where the list ends with it the reservoir (R34, R37). -/
def sourceFor (s : State) (b : Bay) (reservoir : Bool) : Option FeedKind :=
  if s.feed.dcPresent then some .dc
  else if byOther s b then some (feedOf (otherBay b))
  else if reservoir && decide (planOf s = .pass) then some .reservoir
  else none

/-- The last plan result once that source has been sought: the plan is tested only where the list comes to the reservoir. -/
def planAfter (s : State) (b : Bay) (reservoir : Bool) : PlanResult :=
  if s.feed.dcPresent || byOther s b || !reservoir then s.feed.lastPlan else planOf s

/-- The switches commanded for a switchover from bay `b` (R35, step 1). -/
def pathsTo (b : Bay) (k : FeedKind) : Switches :=
  if k = .reservoir then ⟨false, false, false⟩ else (switchesFor (feedOf b)).join (switchesFor k)

/-- The feed record with a switchover commanded now (R35). -/
def commanded (s : State) (k : FeedKind) (purpose : Purpose) (plan : PlanResult) : FeedRec :=
  { s.feed with switchover := some ⟨k, purpose, s.tmb.uptime + 20⟩, lastPlan := plan }

/-- The feed record once a fault move of bay `b` has been sought: commanded, or FAULTED_FEED pending and a shutdown cause (R34). -/
def faultSought (s : State) (b : Bay) (reservoir : Bool) : FeedRec :=
  match sourceFor s b reservoir with
  | some k => commanded s k .faultMove (planAfter s b reservoir)
  | none =>
    { s.feed with
      lastPlan := planAfter s b reservoir, pending := { s.feed.pending with faulted := true }
      causes := { s.feed.causes with faulted := true } }

/-- FHU's state then. -/
def faultPaths (s : State) (b : Bay) (reservoir : Bool) : FhuState :=
  match sourceFor s b reservoir with
  | some k => { s.fhu with switches := pathsTo b k }
  | none => s.fhu

/-- The release of the feed bay that asks for a takeover (R15, R18). -/
def transferRelease (s : State) (f : FaultSet) (o : Origin) : Release :=
  ⟨.transfer false, .feeding, f, o, decide (o ≠ .button), s.tmb.uptime, s.tmb.uptime + s.bayPolicy.releaseLimit * 1000, none⟩

/-- The reason with which the feed leaves a bay: PACK, LINK, THERMAL in this order (R2). -/
def leftWith (f : FaultSet) : Option FaultReason :=
  if f.pack then some .pack else if f.link then some .link else if f.thermal then some .thermal else none

/-- The bay state of a bay the feed has left, outside a release (R2). -/
def leftState (f : FaultSet) : BayState :=
  match leftWith f with
  | none => .standby
  | some x => .fault x

/-- The former state of a bay the feed has left beneath its release (R2). -/
def leftFormer (f : FaultSet) : FormerState :=
  match leftWith f with
  | none => .standby
  | some x => .fault x

/-- A sample shows the target of a switchover at its acceptance level (R35, step 2). -/
def delivers (x : PowerReading) (vMin : Nat) : FeedKind → Prop
  | .dc => 9000 ≤ x.vDc
  | .bayA => 5500 ≤ x.vA ∧ 0 < x.iA
  | .bayB => 5500 ≤ x.vB ∧ 0 < x.iB
  | .reservoir => vMin < x.vRes

/-- The bay record once the feed has gone to `k`: FEEDING where it is the new feed (R2). -/
def fedBay (s : State) (b : Bay) (k : FeedKind) : BayRec :=
  if k = feedOf b then { s.bay b with state := .feeding noFaults } else s.bay b

/-- SFE and the period of the power sense once a good sample has been taken (R171). -/
def sampledPower (s : State) (x : PowerReading) : SfeRec :=
  { s.sfe with power := x, powerHealth := .valid, powerGoodAt := s.tmb.uptime }

/-- The timers once the power sense has converted (R171). -/
def convertedTimers (s : State) : Timers := { s.timers with powerSense := s.timers.powerSense + 10 }

/-- E_avail and the remaining holdover from a sample (R42). -/
def energyOf (s : State) (x : PowerReading) : Nat :=
  if x.vRes ≤ s.feed.vMin then 0 else s.feed.resC * (x.vRes * x.vRes - s.feed.vMin * s.feed.vMin) / 2000000

/-- The remaining holdover from it (R42). -/
def remainingOf (s : State) (x : PowerReading) : Nat :=
  if energyOf s x ≤ s.feed.eShut then 0
  else if x.pSys = 0 then 65535 else min 65535 ((energyOf s x - s.feed.eShut) / x.pSys)

/-- No monitor takes an occurrence (R132). -/
def monitorsOff (s : State) : Prop := ∀ m, m ∈ s.monitors → m.config.enable = false

/-- An ENERGY entry stands (R56). -/
def energyHeld (s : State) : Bool := s.hld.entries.any fun o => o.any fun e => decide (e.holder = .energy)

/-- A source has ended an exhausted holdover (R46, R47): a record still deferred is written first, with the outcome HLD holds; the holdover
and lean are cleared, the shutdown causes empty, the ENERGY entry lifted, a wait that its lift cuts short NOT_ACKED (R60), one pass. -/
def exhaustionOver (s t : State) : Prop :=
  (∀ d, s.fhu.deferredEnd = some d →
    Logged s.toFront t.toFront (.holdoverEnd .exhausted d.duration d.planned s.hld.outcome) s.tmb)
  ∧ (s.fhu.deferredEnd = none → monitorsOff s → (∀ m, m ∈ s.monitors → m.pending = none) → t.log = s.log)
  ∧ t.fhu.deferredEnd = none ∧ t.feed.holdover = none ∧ t.feed.lean = false ∧ t.feed.causes = ⟨false, false, false⟩
  ∧ t.pins.shutdownRequest = false
  ∧ t.hld.entries = s.hld.entries.map (fun o => o.filter fun e => decide (e.holder ≠ .energy))
  ∧ t.hld.wait = (if s.hld.quiesce && !t.hld.quiesce then none else s.hld.wait)
  ∧ t.hld.outcome = (if s.hld.quiesce && !t.hld.quiesce && s.hld.wait.isSome then .notAcked else s.hld.outcome)
  ∧ t.bud.causes = ⟨false, true, energyHeld s, false, false⟩

/-! ## What the statements assume or leave to a pass -/

/-- The bays stand outside RELEASE_WAIT and OPEN, where a changed latch demand does nothing (R58). -/
def baysCalm (s : State) : Prop := (∀ b r, (s.bay b).state ≠ .releaseWait r) ∧ ∀ b u, (s.bay b).state ≠ .opened u

/-- No switchover is in flight to bay `b`. -/
def notTarget (s : State) (b : Bay) : Prop := ∀ w, s.feed.switchover = some w → w.target ≠ feedOf b

/-- An event that a budget pass follows: the blocks that no pass and no event of the bays, FHU or HLD writes are as before.
MOT, the trace and the light record's own fields stand in the statements that use this. -/
def PassEvent (s t : State) : Prop :=
  t = { s with
    mem := t.mem, summary := t.summary, gens := { t.gens with time := s.gens.time }
    log := { t.log with effRead := s.log.effRead }, monitors := t.monitors
    bayA := t.bayA, bayB := t.bayB, linkA := t.linkA, linkB := t.linkB, assignment := t.assignment
    feed := t.feed, fhu := t.fhu, hld := t.hld, drops := t.drops
    bud := t.bud, blc := { s.blc with pendingDuty := t.bud.dCmd, ceiling := t.bud.ceiling, liveDuty := t.blc.liveDuty }
    mot := t.mot, trc := t.trc, timers := t.timers, sfe := t.sfe, pins := derivePins t.toBlocks }
  ∧ t.bud.passCount = s.bud.passCount + 1 ∧ t.bud.passUptime = s.tmb.uptime

/-! ## Samples of the accelerometer -/

/-- MOT's record once a sample has been taken, has joined the orientation window and the history ring, and the runs are still to be
counted; and the ring entry it completed (R100, R103, R121). -/
def joined (s : State) (a : Axes) : MotionRec × Option RingEntry := ((s.mot.take a s.tmb.uptime).orient a).history a

/-- The host's side once that entry has been offered to a filling capture (R124). -/
def traced (s : State) (a : Axes) : Front :=
  match (joined s a).2 with
  | none => s.toFront
  | some e => s.toFront.appendTrace e

/-- The free-fall run once a sample below the free-fall threshold has started it, storing its index and the orientation before it joined
the window, or added to it (R105). -/
def fallRun (s : State) : FreeFallRun :=
  if s.mot.freeFall.count = 0 then ⟨1, s.mot.index + 1, s.mot.orientation⟩
  else { s.mot.freeFall with count := min 160 (s.mot.freeFall.count + 1) }

/-- The trace area (Table 10-1). -/
def traceRange : Range := (0x2000, 0x4000)

/-- The runs at 0 and the motion state replaced (R105). -/
def motionIn (s : State) (a : Axes) (st : MotionState) : MotionRec :=
  { (joined s a).1 with state := st, freeFall := ⟨0, 0, .unknown⟩, caught := ⟨0, 0⟩, settleRun := 0 }

/-! ## Deadlines -/

/-- The deadline or period that a row's event is, where its command acts only once uptime has reached it (log entry 2); for the two
debounced inputs of R175 the earliest uptime of their first event (log entry 8). -/
def deadlineOf (s : State) : Instr → Option (Option Nat)
  | .identificationRetry b =>
    some (match (s.link b).activity with
      | .identWait _ t => some t
      | _ => none)
  | .identificationDeadline b =>
    some (match (s.bay b).state with
      | .seated d => some d
      | _ => none)
  | .pollDue b => some (s.link b).pollAt
  | .releaseWaitLimit b =>
    some (match (s.bay b).state with
      | .releaseWait r => if r.sub = .held then some r.limitAt else none
      | _ => none)
  | .unlatchWait b =>
    some (match (s.bay b).state with
      | .releaseWait r =>
        match r.sub with
        | .unlatching u => some u
        | _ => none
      | _ => none)
  | .openWindow b =>
    some (match (s.bay b).state with
      | .opened d => some d
      | _ => none)
  | .refusalBlinkEnd b => some (s.bay b).blinkEnd
  | .switchoverDeadline => some (s.feed.switchover.map fun w => w.deadline)
  | .powerSenseSample _ => some (some s.timers.powerSense)
  | .thermistorReading _ => some (some s.timers.thermistor)
  | .presenceClosed _ => some (some 200)
  | .dcArrival => some (some 50)
  | .powerSenseLost => some (some (s.sfe.powerGoodAt + 50))
  | .thermistorLost => some (some (s.sfe.thermGoodAt + 1000))
  | .ambientLost => some (some (s.blc.lastSampleAt.getD 0 + 500))
  | .sampleWatch => some (if s.mot.health = .lost then none else some s.mot.watchDeadline)
  | .liftDeadline => some s.mot.liftDeadline
  | .settleDeadline =>
    some (match s.mot.state with
      | .settle d => some d
      | _ => none)
  | .holdExpiry t => some (s.hld.expiryOf t)
  | .ackDeadline => some s.hld.wait
  | .periodicTimer => some (some s.timers.pass)
  | .freeRunPoint =>
    some (match s.blc.appMode with
      | .freeRun n => some n
      | .frame _ => none)
  | .frameWatchDeadline =>
    some (match s.blc.appMode with
      | .frame d => some d
      | .freeRun _ => none)
  | .sweepTimer => some (some s.timers.sweep)
  | .energyPagePeriodic => some (some s.timers.energyPage)
  | .motionPagePeriodic => some (some s.timers.motionPage)
  | .timePagePeriodic => some (some s.timers.timePage)
  | .calendarStep => some s.tmb.nextSecond
  | _ => none

end Sys2Proof.Safety
end

