-- ==== Sys2Proof/Certificates/Slice0/Obligations.lean ====
section
/-! DEFINITION. The statements about the ZT31 for the provers, family by family. `s` is the state before a command, `t` the state after. -/

open Sys2Proof Sys2Proof.Machine Sys2Proof.Safety

/-! ## The queue, the clock, the supply -/

/-- The model's own step (log entry 5) over R143 and R174: the command at the front of the queue is run on the queue's rest; with no command waiting, a running part's uptime counts one millisecond on and nothing else changes, and a stopped part stays as it is. -/
def Obligations.StepRunsTheQueueOrCountsTime : Prop :=
  (∀ (c : Instr) (cs : List Instr) (s : State), s.pending = c :: cs → step s = exec c { s with pending := cs })
  ∧ (∀ s : State, s.pending = [] →
      step s = .next (if s.powered then { s with tmb := { s.tmb with uptime := s.tmb.uptime + 1 } } else s))

/-- Every command that the outside can send completes and leaves the queue as it is. The only command that stops is a memory write outside the exchange area: Table 10-1 and R155 give the area 16,384 bytes and say nothing of addresses beyond it, so that the write stops there with a fault is the model's choice (DEDUCED, log entry 23). -/
def Obligations.EveryCommandCompletesInsideTheArea : Prop :=
  (∀ (c : Instr) (s : State), c.wellFormed = true → ∃ t, exec c s = .next t ∧ t.pending = s.pending)
  ∧ (∀ (c : Instr) (s : State), (∃ t, exec c s = .next t)
      ∨ (∃ offset data, c = .hostMemoryWrite offset data ∧ 16384 < offset + data.size ∧ exec c s = .fault .outsideExchangeArea))

/-- R175 with Table 11-3, R156, R147: power-on reset leaves every block in its power-on state whatever the state before, field by field: registers, log, monitors, timebase and trace, bays, links and policy with the latch senses as read, feed and switches, hold table, SFE, budget, light and motion records (Tables 1-2, 2-2, 4-2, 5-2, 6-2, 7-2, 8-1, 9-1), nothing deferred or pending, each periodic occasion first due at its time, the output signals. Every byte of the area follows: the header with layout version, part revision and the log control block after one record, the staging area and the slots 0, each page whole at generation 2 from its owner's state, RESTART(POWER_ON) alone in the log, the trace header and every trace entry no-data. Nothing of the state before is kept but the queue. The model's choices beside it: the command may come over any state and keeps the queue (DESIGN CHOICE, log entry 4), the blocks of an idle link stand at 0 (DESIGN CHOICE, log entry 26), the acknowledge line is low (DESIGN CHOICE, log entry 27), the averages of an empty window are 0 (DESIGN CHOICE, log entry 36). The fields that are the model's own bookkeeping (due, powered, fhu.dueInFlight, fhu.collapseFrom, powerGoodAt, thermGoodAt, mot.group) stand at rest. -/
def Obligations.PowerOnResetStartsAfresh : Prop :=
  ∀ a b : Bool, ∃ p : Blocks,
    (∀ s : State, exec (.powerOnReset a b) s = .next { p with
      pins := ⟨false, false, false, true, true, .off, .off, ⟨false, false, false⟩, none, none⟩, pending := s.pending })
    ∧ p = {
      mem := p.mem, summary := 0x80, summaryEnable := 0, exchangeEnable := false, lastSlot := 31, inFlight := [], restartCount := 0
      gens := ⟨2, 2, 2, 2, 2, 2⟩, log := ⟨1, 0, 0⟩
      monitors := List.replicate 8 ⟨⟨.fall, 0, 0, false, false, false, .none⟩, 0, false, false, false, none⟩
      tmb := ⟨0, 0, false, none, none⟩, trc := ⟨.free, 0, 0, 0, 0, 0, 0, .none, 0xFFFFFFFF⟩
      bayA := ⟨.empty, none, none, 0, none, false, a⟩, bayB := ⟨.empty, none, none, 0, none, false, b⟩
      linkA := ⟨.idle, 0, 0, 0, none⟩, linkB := ⟨.idle, 0, 0, 0, none⟩, bayPolicy := ⟨100, 15, 10⟩, assignment := none
      feed := ⟨.reservoir, false, none, false, 0, 0, none, ⟨false, false⟩, ⟨false, false, false⟩, .none, 0, .higherCharge,
        30, 10, 65000, 20000, 4500, 150000, 25000⟩
      fhu := { switches := ⟨false, false, false⟩, dueInFlight := ⟨false, false⟩, deferredEnd := none, collapseFrom := 0
               eShutInForce := 150000 }
      hld := ⟨List.replicate 16 none, none, .none, false⟩, drops := [], due := ⟨false, false, false, false, false⟩
      powered := true
      sfe := { power := ⟨0, 0, 0, 0, 0, 0, 0, 0, 0⟩, powerHealth := .none, powerGoodAt := 0, panelTemp := 0, thermHealth := .none
               thermGoodAt := 0 }
      bud := { passCount := 0, passUptime := 0, causes := ⟨false, false, false, false, false⟩, feedUsed := .reservoir
               factors := none, conditions := ⟨false, false, false⟩, pFeed := 0, usable := 0, pPlat := 0, rProt := 0, aRaw := 0
               aBl := 0, dAllow := 0, dTherm := 512, dTarget := 0, ceiling := 40, dCmd := 40, pChg := 0, deficit := false
               capped := none }
      blc := { ambient := .none, lastL := 0, lastSampleAt := none, filtered := 0
               curve := [⟨0, 80⟩, ⟨1000, 300⟩, ⟨20000, 800⟩, ⟨100000, 1400⟩], curveVersion := 0, pendingCurve := none
               mode := .auto, bias := 0, manualLevel := 400, panel := ⟨20, 1400, 9600, 40, 8, 2, 64, 8⟩, nc := 80, nb := 80
               dTarget := 59, pendingDuty := 40, ceiling := 40, liveDuty := 0, appMode := .freeRun 16, panelEnable := false }
      mot := { state := .sensorLost, health := .none, index := 0, lastSample := none, orientation := .unknown
               averages := ⟨0, 0, 0⟩, window := [], freeFall := ⟨0, 0, .unknown⟩, caught := ⟨0, 0⟩, settleRun := 0
               lastImpact := ⟨0, false, .unknown⟩, lastFallMs := 0, lastHeight := 0, liftDeadline := none, watchDeadline := 10
               config := ⟨350, 48, 4000, 900, 1100, 800, 1500, 4000, true, true⟩, ring := [], group := none }
      timers := ⟨100, 20, 250, 50, 1000, 10, 100⟩ }
    ∧ readBytes p.mem 0 128 = padTo 128 [1, 0, 1, 0, 0, 0, 0, 0, 1, 0, 0, 0]
    ∧ (∀ x, 0x0080 ≤ x → x < 0x0200 → readByte p.mem x = 0)
    ∧ readBytes p.mem 0x0200 256 = padTo 256 ([2, 0, 0, 0] ++ energyPage p)
    ∧ readBytes p.mem 0x0300 256 = padTo 256 ([2, 0, 0, 0] ++ lightPage p)
    ∧ readBytes p.mem 0x0400 256 = padTo 256 ([2, 0, 0, 0] ++ motionPage p.mot)
    ∧ readBytes p.mem 0x0500 256 = padTo 256 ([2, 0, 0, 0] ++ monitorPage p.monitors)
    ∧ readBytes p.mem 0x0600 256 = padTo 256 ([2, 0, 0, 0] ++ mirrorPage p.hld)
    ∧ readBytes p.mem 0x0700 256 = padTo 256 ([2, 0, 0, 0] ++ timePage p.tmb)
    ∧ (∀ x, 0x0800 ≤ x → x < 0x1000 → readByte p.mem x = 0)
    ∧ readBytes p.mem 0x1000 64 = padTo 64 [1] ∧ (∀ x, 0x1040 ≤ x → x < 0x2000 → readByte p.mem x = 0)
    ∧ readBytes p.mem 0x2000 64 = traceHeader p.trc
    ∧ (∀ n, n < 1016 → readBytes p.mem (traceEntryAt n) 8 = [0, 0, 0, 0, 0, 0, 0xFF, 0xFF])

/-- R174 and Table 11-2: when the keep-alive supply fails the part stops and its outputs take their unpowered levels; until power-on reset every command the outside can send then leaves the state as it is (log entry 4). -/
def Obligations.UnpoweredPartDoesNothing : Prop :=
  (∀ s : State, ∃ t, exec .keepAliveFail s = .next t ∧ t.powered = false ∧ t.pending = s.pending
      ∧ t.pins = ⟨false, false, false, true, true, .off, .off, ⟨false, false, false⟩, none, none⟩)
  ∧ (∀ (c : Instr) (s : State), s.powered = false → c.wellFormed = true → (∀ a b, c ≠ .powerOnReset a b) → c ≠ .keepAliveFail →
      exec c s = .next s)

/-- Every deadline and period acts only once uptime has reached it (R143), and the first debounced presence closing and DC arrival no sooner than 200 ms and 50 ms (R175): before that, or with the deadline not armed, the command changes nothing. That an early command does nothing, where the manual knows none, is the model's choice (DESIGN CHOICE, log entries 2 and 8). -/
def Obligations.DeadlinesWaitForTheirUptime : Prop :=
  ∀ (c : Instr) (s : State) (d : Option Nat), deadlineOf s c = some d → (∀ n, d = some n → s.tmb.uptime < n) →
    s.powered = true → Settled s → PinsDriven s → ChargerSettled s.toPower → exec c s = .next s

/-! ## Battery bays -/

/-- R3, R7, R21: presence closing on an EMPTY bay, and the OPEN window expiring, enter SEATED with both records cleared, the identification deadline 2 s on, block 0 being read and, after OPEN, the latch locked. That the energy page is republished exactly once, its generation 2 higher, is the model's choice (DESIGN CHOICE, log entry 10). -/
def Obligations.SeatedBaysAreIdentifiedAnew : Prop :=
  (∀ (b : Bay) (s : State), Ready s → (s.bay b).state = .empty → 200 ≤ s.tmb.uptime →
      ∃ t, exec (.presenceClosed b) s = .next t
        ∧ t.bay b = { seatedBay s b with presence := true } ∧ t.link b = seatedLink s b ∧ BayEvent b s t)
  ∧ (∀ (b : Bay) (d : Nat) (s : State), Ready s → (s.bay b).state = .opened d → d ≤ s.tmb.uptime →
      ∃ t, exec (.openWindow b) s = .next t ∧ t.bay b = seatedBay s b ∧ t.link b = seatedLink s b
        ∧ t.latchLock b = true ∧ BayEvent b s t)

/-- R3, Table 1-4, R14: presence opening on a bay that is not the feed and no switchover's target empties it: records, link and blink are cleared; a release that ran there ends, a software one completing NOTHING_TO_RELEASE. On an EMPTY bay it changes nothing but the presence. (The feed bay and a switchover's target: UnplannedLossesMoveTheFeedAtOnce, TakeoversAreConfirmedOrReverted.) The model's choices: the energy page once, its generation 2 higher (log entry 10), the link's blocks 0 (log entry 26), and the result data of the slot (log entry 11), each DESIGN CHOICE. Bits 1 to 7 of byte 2 of a DONE slot are 0 by the model's choice (DESIGN CHOICE, log entry 32). -/
def Obligations.PresenceOpeningEmptiesTheBay : Prop :=
  (∀ (b : Bay) (s : State), Ready s → s.feed.kind ≠ feedOf b → (s.bay b).state ≠ .empty →
    (∀ r, (s.bay b).state ≠ .releaseWait r) → notTarget s b →
    ∃ t, exec (.presenceOpened b) s = .next t ∧ t.bay b = emptiedBay s b ∧ t.link b = ⟨.idle, 0, 0, 0, none⟩ ∧ BayEvent b s t)
  ∧ (∀ (b : Bay) (r : Release) (s : State), Ready s → s.feed.kind ≠ feedOf b → (s.bay b).state = .releaseWait r →
    ∃ t, exec (.presenceOpened b) s = .next t ∧ t.bay b = emptiedBay s b ∧ t.link b = ⟨.idle, 0, 0, 0, none⟩
      ∧ ReleaseEnds b r .nothingToRelease false s t ∧ ReleaseEvent b r s t)
  ∧ (∀ (b : Bay) (s : State), Ready s → ChargerSettled s.toPower → PinsDriven s → (s.bay b).state = .empty →
    ((s.bay b).presence = false → exec (.presenceOpened b) s = .next s)
    ∧ ((s.bay b).presence = true → ∃ t, exec (.presenceOpened b) s = .next t ∧ t.bay b = { s.bay b with presence := false }
        ∧ t.link b = s.link b ∧ BayEvent b s t))

/-- R14, R15, R16, R18, R20: a press on a SEATED, STANDBY, FEEDING or FAULT bay starts a release: HELD while an entry targets its latch; else, on a bay that is not the feed, UNLATCHING with 500 ms to open, and OPEN at once where the sense already reads open (log entry 24, DEDUCED). A press on a bay in TRANSFER sets cancel pending and nothing else; a press on a HELD or UNLATCHING bay ends the release, whoever started it, CANCELLED in its former state. Where that is STANDBY and FHU has nothing to do the feed stays; on RESERVOIR it is a choice point (R30), here with this bay the only candidate, which takes the feed. (The feed bay without a hold: ButtonOnTheFeedPlansATakeover.) The model's choices: the energy page once, its generation 2 higher (log entry 10), the result data of the slot (log entry 11). Bits 1 to 7 of byte 2 of a DONE slot are 0 by the model's choice (DESIGN CHOICE, log entry 32). That a HOLDOVER_END record by a source takes the outcome HLD holds at that moment is the model's reading (DEDUCED, log entry 22). That a return to a FAULT former state writes no PACK_FAULT record is the model's choice (DESIGN CHOICE, log entry 34). -/
def Obligations.ButtonStartsAndCancelsReleases : Prop :=
  ((∀ (b : Bay) (f : FormerState) (s : State), Ready s → notTarget s b → (s.bay b).state.former = some f →
      s.hld.demand b = true ∨ s.feed.kind ≠ feedOf b ∧ (s.bay b).latchOpen = false →
      ∃ t, exec (.buttonPress b) s = .next t ∧ t.bay b = startedBay s b f .button ∧ BayEvent b s t)
    ∧ (∀ (b : Bay) (f : FormerState) (s : State), Ready s → notTarget s b → (s.bay b).state.former = some f →
      s.hld.demand b = false → s.feed.kind ≠ feedOf b → (s.bay b).latchOpen = true →
      ∃ t, exec (.buttonPress b) s = .next t
        ∧ t.bay b = { startedBay s b f .button with state := .opened (s.tmb.uptime + s.bayPolicy.openWindow * 1000) }
        ∧ BayEvent b s t))
  ∧ (∀ (b : Bay) (r : Release) (s : State), Ready s → (s.bay b).state = .releaseWait r → r.sub = .transfer false →
      ∃ t, exec (.buttonPress b) s = .next t
        ∧ t.bay b = { s.bay b with state := .releaseWait { r with sub := .transfer true } } ∧ BayEvent b s t)
  ∧ (∀ (b : Bay) (r : Release) (s : State), Ready s → (s.bay b).state = .releaseWait r → (∀ c, r.sub ≠ .transfer c) →
      (settlesQuietly s r →
        ∃ t, exec (.buttonPress b) s = .next t ∧ t.bay b = formerBay s b r ∧ t.link b = formerLink s b r
          ∧ ReleaseEnds b r .cancelled false s t ∧ ReleaseEvent b r s t)
      ∧ (r.former = .standby → s.feed.kind = .reservoir → s.feed.dcPresent = false → (s.bay (otherBay b)).candidate = false →
          (s.bay b).packState.isSome = true → 5 ≤ (s.bay b).soc → (∀ h, s.feed.holdover = some h → h.exhausted = false) →
        ∃ t, exec (.buttonPress b) s = .next t ∧ t.bay b = { s.bay b with state := .feeding noFaults }
          ∧ t.bay (otherBay b) = s.bay (otherBay b) ∧ t.feed.kind = feedOf b ∧ t.fhu.switches = switchesFor (feedOf b)
          ∧ t.feed.holdover = none ∧ t.feed.switchover = none
          ∧ (∀ h, s.feed.holdover = some h →
              Logged s.toFront t.toFront (.holdoverEnd .pack ((s.tmb.uptime - h.start) / 1000) h.planned s.hld.outcome) s.tmb)
          ∧ ReleaseEnds b r .cancelled false s t ∧ t.bud.causes = ⟨false, true, false, false, false⟩
          ∧ t.hld = s.hld ∧ t.mot = s.mot ∧ t.trc = s.trc ∧ t.sfe = s.sfe ∧ t.timers = s.timers
          ∧ PassEvent { s with inFlight := t.inFlight } t ∧ keepsOutside (passRanges ++ endRanges (owedBy s r)) s.mem t.mem))

/-- R19, R4, R14: an UNLATCHING bay whose latch sense opens is OPEN for the OPEN window; a SWAP record is made when the release had a takeover source, and a software release's slot completes OK. In any other state the sense alone changes. The model's choices: the energy page once, its generation 2 higher (log entry 10), the result data of the slot (log entry 11), each DESIGN CHOICE. Bits 1 to 7 of byte 2 of a DONE slot are 0 by the model's choice (DESIGN CHOICE, log entry 32). The slot index byte of SWAP for a button's release is 0 by the model's choice (DESIGN CHOICE, log entry 39). -/
def Obligations.LatchOpeningOpensTheBay : Prop :=
  (∀ (b : Bay) (r : Release) (u : Nat) (s : State), Ready s → (s.bay b).state = .releaseWait r → r.sub = .unlatching u →
    ∃ t, exec (.latchSenseChange b true) s = .next t
      ∧ t.bay b = { s.bay b with state := .opened (s.tmb.uptime + s.bayPolicy.openWindow * 1000), latchOpen := true }
      ∧ (∀ k, r.takeover = some k →
          Logged s.toFront t.toFront (.swap b k (s.tmb.uptime - r.requestAt) r.origin) s.tmb)
      ∧ ReleaseEnds b r .ok false s t ∧ (r.takeover = none → ReleaseEvent b r s t) ∧ ReleaseRecordEvent b r s t)
  ∧ (∀ (b : Bay) (v : Bool) (s : State), Ready s → (s.bay b).latchOpen ≠ v →
      (∀ r u, (s.bay b).state = .releaseWait r → r.sub ≠ .unlatching u) →
      ∃ t, exec (.latchSenseChange b v) s = .next t ∧ t.bay b = { s.bay b with latchOpen := v }
        ∧ t.link b = s.link b ∧ BayEvent b s t)

/-- R16, R19, R7, R10, R14, R22: a release still HELD at its limit ends HOLD_TIMEOUT in its former state; one still UNLATCHING with the latch closed when the unlatch wait expires ends LATCH_STUCK in FAULT(LATCH); each makes its RELEASE_REFUSED record and starts the 2 s blink, and a software release's slot completes with that code. A bay still SEATED at its identification deadline enters FAULT(IDENT) with a PACK_FAULT record. A refusal blink ends at its time. Stated where a return to STANDBY leaves FHU nothing to do. The model's choices: the energy page once, its generation 2 higher (log entry 10); RELEASE_REFUSED before the PACK_FAULT of the same stuck latch (log entry 9); the result data of the slot (log entry 11); each DESIGN CHOICE. Bits 1 to 7 of byte 2 of a DONE slot are 0 by the model's choice (DESIGN CHOICE, log entry 32). The slot index byte of RELEASE_REFUSED for a button's release is 0 by the model's choice (DESIGN CHOICE, log entry 39). -/
def Obligations.BayDeadlinesAct : Prop :=
  ((∀ (b : Bay) (r : Release) (s : State), Ready s → (s.bay b).state = .releaseWait r → r.sub = .held →
      r.limitAt ≤ s.tmb.uptime → settlesQuietly s r →
      ∃ t, exec (.releaseWaitLimit b) s = .next t
        ∧ t.bay b = { formerBay s b r with blinkEnd := some (s.tmb.uptime + 2000) } ∧ t.link b = formerLink s b r
        ∧ Logged s.toFront t.toFront (.releaseRefused b .holdTimeout false r.origin) s.tmb
        ∧ ReleaseEnds b r .holdTimeout false s t ∧ ReleaseRecordEvent b r s t)
    ∧ (∀ (b : Bay) (r : Release) (u : Nat) (s : State), Ready s → (s.bay b).state = .releaseWait r → r.sub = .unlatching u →
        u ≤ s.tmb.uptime → (s.bay b).latchOpen = false →
        ∃ t, exec (.unlatchWait b) s = .next t
          ∧ t.bay b = { s.bay b with state := .fault .latch, blinkEnd := some (s.tmb.uptime + 2000) }
          ∧ Logged s.toFront t.toFront (.releaseRefused b .latchStuck false r.origin) s.tmb
          ∧ ReleaseEnds b r .latchStuck false s t ∧ ReleaseRecordEvent b r s t))
  ∧ ((∀ (b : Bay) (d : Nat) (s : State), Ready s → (s.bay b).state = .seated d → d ≤ s.tmb.uptime →
      ∃ t, exec (.identificationDeadline b) s = .next t ∧ t.bay b = { s.bay b with state := .fault .ident }
        ∧ Logged s.toFront t.toFront (.packFault b .ident (((s.bay b).identity.map fun i => i.serial).getD 0)) s.tmb
        ∧ BayRecordEvent b s t)
    ∧ (∀ (b : Bay) (d : Nat) (s : State), Ready s → (s.bay b).blinkEnd = some d → d ≤ s.tmb.uptime →
        ∃ t, exec (.refusalBlinkEnd b) s = .next t ∧ t.bay b = { s.bay b with blinkEnd := none } ∧ t.link b = s.link b
          ∧ BayEvent b s t))

/-- R5, R7, R9, R10, R11, R13: a good block 0 is kept and block 1 is read next; a bad transaction, by checksum or by time, is repeated once, and after the repeat the identification read waits 100 ms and starts again; a poll starts with block 2. Nothing but the link changes. Block 1 gives the identity: valid, it is kept and block 2 is read next; not valid, it is kept and the bay enters FAULT(IDENT) with its record. A poll that fails is counted; the third declares the link lost: a STANDBY bay that is no switchover's target and a FAULT(THERMAL) bay enter FAULT(LINK), and in RELEASE_WAIT on a bay that is not the feed the former state becomes FAULT(LINK), unless it names PACK or LINK already, each with its record. (The feed bay: FeedPackFindingsSeekAMove.) The energy page once, its generation 2 higher, is the model's choice (DESIGN CHOICE, log entry 10); the identity is held from block 1 on (DEDUCED, log entry 16). At 10 ms exactly a reply and a timeout both act, by the model's reading (DEDUCED, log entry 17). That the next occasion is counted from the due time is the model's choice (DESIGN CHOICE, log entry 2). -/
def Obligations.LinkTransactionsFollowTheirOrder : Prop :=
  ∀ (b : Bay) (s : State), Ready s → ChargerSettled s.toPower →
    let only (l : Link) : State := s.withBlocks (s.toBlocks.withPower (s.toPower.setLink b l))
    let sum (bytes : BitVec 136) : Nat := ((List.range 17).map (blockByte bytes)).sum
    (∀ bytes t0 again, (s.link b).activity = .identRead 0 again t0 → s.tmb.uptime ≤ t0 + 10 → sum bytes % 256 = 0 →
      exec (.packLinkReply b bytes) s
        = .next (only { s.link b with block0 := bytes.extractLsb' 0 128, activity := .identRead 1 false s.tmb.uptime }))
    ∧ (∀ bytes k t0, (s.link b).activity = .identRead k false t0 → s.tmb.uptime ≤ t0 + 10 → sum bytes % 256 ≠ 0 →
      exec (.packLinkReply b bytes) s = .next (only { s.link b with activity := .identRead k true s.tmb.uptime }))
    ∧ (∀ k t0, (s.link b).activity = .pollRead k false t0 → t0 + 10 ≤ s.tmb.uptime →
      exec (.packLinkTimeout b) s = .next (only { s.link b with activity := .pollRead k true s.tmb.uptime }))
    ∧ (∀ k t0, (s.link b).activity = .identRead k true t0 → t0 + 10 ≤ s.tmb.uptime →
      exec (.packLinkTimeout b) s = .next (only { s.link b with activity := .identWait k (s.tmb.uptime + 100) }))
    ∧ (∀ k u, (s.link b).activity = .identWait k u → u ≤ s.tmb.uptime →
      exec (.identificationRetry b) s = .next (only { s.link b with activity := .identRead k false s.tmb.uptime }))
    ∧ (∀ u, (s.link b).activity = .idle → (s.link b).pollAt = some u → u ≤ s.tmb.uptime →
      exec (.pollDue b) s
        = .next (only { s.link b with activity := .pollRead 2 false s.tmb.uptime, pollAt := some (u + 250) }))
    ∧ (∀ (bytes : BitVec 136) (d t0 : Nat) (again : Bool), (s.bay b).state = .seated d →
        (s.link b).activity = .identRead 1 again t0 → s.tmb.uptime ≤ t0 + 10 → sum bytes % 256 = 0 →
      let i := decodeIdentity (s.link b).block0 (bytes.extractLsb' 0 128)
      let read : Link := { s.link b with block1 := bytes.extractLsb' 0 128 }
      let valid : Prop := within 1 6 i.cells ∧ within 1000 200000 i.designCapacity ∧ within 5000 150000 i.packMax
      (valid → (s.bay b).identity ≠ some i →
        ∃ t, exec (.packLinkReply b bytes) s = .next t ∧ t.bay b = { s.bay b with identity := some i }
          ∧ t.link b = { read with activity := .identRead 2 false s.tmb.uptime } ∧ BayEvent b s t)
      ∧ (¬ valid →
        ∃ t, exec (.packLinkReply b bytes) s = .next t ∧ t.bay b = { s.bay b with identity := some i, state := .fault .ident }
          ∧ t.link b = { read with activity := .idle, pollAt := none }
          ∧ Logged s.toFront t.toFront (.packFault b .ident i.serial) s.tmb ∧ BayRecordEvent b s t))
    ∧ (∀ k t0, (s.link b).activity = .pollRead k true t0 → t0 + 10 ≤ s.tmb.uptime →
      ((s.bay b).failedPolls < 2 →
        ∃ t, exec (.packLinkTimeout b) s = .next t ∧ t.bay b = { s.bay b with failedPolls := (s.bay b).failedPolls + 1 }
          ∧ t.link b = { s.link b with activity := .idle } ∧ BayEvent b s t)
      ∧ ((s.bay b).failedPolls = 2 → s.feed.kind ≠ feedOf b →
        let lost (st : BayState) : Prop :=
          ∃ t, exec (.packLinkTimeout b) s = .next t ∧ t.bay b = { s.bay b with state := st, failedPolls := 3 }
            ∧ t.link b = { s.link b with activity := .idle, pollAt := none }
            ∧ Logged s.toFront t.toFront (.packFault b .link (((s.bay b).identity.map fun i => i.serial).getD 0)) s.tmb
            ∧ BayRecordEvent b s t
        ((s.bay b).state = .standby ∧ notTarget s b ∨ (s.bay b).state = .fault .thermal → lost (.fault .link))
        ∧ (∀ r, (s.bay b).state = .releaseWait r → r.former ≠ .fault .pack → r.former ≠ .fault .link →
            lost (.releaseWait { r with former := .fault .link }))))

/-- R8 to R13: the last block of an identification fills the pack state record, polls to begin 250 ms on, and the first that holds decides: a fault flag, FAULT(PACK); 600 dC, FAULT(THERMAL), each with its record; else STANDBY, or with RESERVOIR as the feed and 5 % of charge or more the new feed (R30), which ends a holdover, with its record (R45), or when exhausted as R47 says. A poll of a bay that is not the feed replaces the record, stamps it and clears the failed polls. In STANDBY, on a bay that is no switchover's target, it leads to FAULT(PACK) or FAULT(THERMAL); in FAULT(THERMAL) to FAULT(PACK), or below 550 dC to SEATED afresh; in RELEASE_WAIT it replaces the former state by these, or below 550 dC FAULT(THERMAL) by SEATED, each fault with a record (placed with no monitor enabled, as PACK_HOT comes first); else the state stands. Apart from a new feed, stated where FHU has nothing to do: no move pending; with the feed RESERVOIR, where the bay does not end in STANDBY. The model's choices: the energy page once, its generation 2 higher (DESIGN CHOICE, log entry 10); no time of a last poll before the first one, 0 failed polls (DEDUCED, log entry 16). At 10 ms exactly a reply acts (DEDUCED, log entry 17). A HOLDOVER_END record by a source takes the outcome HLD holds at that moment (DEDUCED, log entry 22). -/
def Obligations.GoodBlocksFillThePackState : Prop :=
  (∀ (b : Bay) (bytes : BitVec 136) (d t0 : Nat) (again : Bool) (s : State), Ready s →
    (s.bay b).state = .seated d → (s.link b).activity = .identRead 3 again t0 → s.tmb.uptime ≤ t0 + 10 →
    checksumGood bytes = true →
    let k := decodePackState (s.link b).block2 (bytes.extractLsb' 0 128) none
    let filled (st : BayState) : BayRec := { s.bay b with state := st, packState := some k, failedPolls := 0 }
    let polling : Link := { s.link b with activity := .idle, pollAt := some (s.tmb.uptime + 250) }
    let faulted (x : FaultReason) (l : Link) : Prop :=
      ∃ t, exec (.packLinkReply b bytes) s = .next t ∧ t.bay b = filled (.fault x) ∧ t.link b = l
        ∧ Logged s.toFront t.toFront (.packFault b x (((s.bay b).identity.map fun i => i.serial).getD 0)) s.tmb
        ∧ BayRecordEvent b s t
    (k.faultFlags &&& 0x0F ≠ 0 → faulted .pack { polling with pollAt := none })
    ∧ (k.faultFlags &&& 0x0F = 0 → 600 ≤ k.temperature → faulted .thermal polling)
    ∧ (k.faultFlags &&& 0x0F = 0 → k.temperature < 600 → s.feed.kind ≠ .reservoir → s.feed.pending = ⟨false, false⟩ →
      ∃ t, exec (.packLinkReply b bytes) s = .next t ∧ t.bay b = filled .standby ∧ t.link b = polling ∧ BayEvent b s t)
    ∧ (k.faultFlags &&& 0x0F = 0 → k.temperature < 600 → s.feed.kind = .reservoir → 5 ≤ k.soc →
      let fed (t : State) : Prop :=
        exec (.packLinkReply b bytes) s = .next t ∧ t.bay b = filled (.feeding noFaults) ∧ t.link b = polling
        ∧ t.bay (otherBay b) = s.bay (otherBay b) ∧ t.feed.kind = feedOf b ∧ t.fhu.switches = switchesFor (feedOf b)
        ∧ t.feed.holdover = none ∧ t.feed.switchover = none ∧ t.mot = s.mot ∧ t.trc = s.trc ∧ t.sfe = s.sfe
        ∧ t.timers = s.timers ∧ PassEvent s t ∧ keepsOutside passRanges s.mem t.mem
      ((∀ h, s.feed.holdover = some h → h.exhausted = false) →
        ∃ t, fed t ∧ t.bud.causes = ⟨false, true, false, false, false⟩ ∧ t.hld = s.hld
          ∧ (∀ h, s.feed.holdover = some h →
              Logged s.toFront t.toFront (.holdoverEnd .pack ((s.tmb.uptime - h.start) / 1000) h.planned s.hld.outcome) s.tmb))
      ∧ (∀ h, s.feed.holdover = some h → h.exhausted = true → s.drops = [] → ∃ t, fed t ∧ exhaustionOver s t)))
  ∧ (∀ (b : Bay) (bytes : BitVec 136) (t0 : Nat) (again : Bool) (s : State), Ready s → s.feed.kind ≠ feedOf b →
      s.feed.kind = .reservoir ∨ s.feed.pending = ⟨false, false⟩ →
      (s.link b).activity = .pollRead 3 again t0 → s.tmb.uptime ≤ t0 + 10 → checksumGood bytes = true →
      let k := decodePackState (s.link b).block2 (bytes.extractLsb' 0 128) (some s.tmb.uptime)
      let sick : Prop := k.faultFlags &&& 0x0F ≠ 0
      let hot : Prop := k.faultFlags &&& 0x0F = 0 ∧ 600 ≤ k.temperature
      let cool : Prop := k.faultFlags &&& 0x0F = 0 ∧ k.temperature < 550
      let polled (st : BayState) : BayRec :=
        { s.bay b with state := st, packState := some k, failedPolls := if (s.bay b).failedPolls = 3 then 3 else 0 }
      let idle : Link := { s.link b with activity := .idle }
      let goes (r : BayRec) (l : Link) (t : State) : Prop :=
        exec (.packLinkReply b bytes) s = .next t ∧ t.bay b = r ∧ t.link b = l ∧ BayRecordEvent b s t
      let faulted (st : FaultReason → BayState) (x : FaultReason) : Prop :=
        ∃ t, goes (polled (st x)) (if x = .thermal then idle else { idle with pollAt := none }) t
          ∧ (monitorsOff s → Logged s.toFront t.toFront (.packFault b x (((s.bay b).identity.map fun i => i.serial).getD 0)) s.tmb)
      let stays : Prop := (s.bay b).packState ≠ some k →
        ∃ t, goes (polled (s.bay b).state) idle t ∧ (monitorsOff s → t.log = s.log)
      ((s.bay b).state = .standby →
        (notTarget s b → (sick → faulted .fault .pack) ∧ (hot → faulted .fault .thermal))
        ∧ (¬ sick → ¬ hot → s.feed.kind ≠ .reservoir → stays))
      ∧ ((s.bay b).state = .fault .thermal →
        (sick → faulted .fault .pack) ∧ (¬ sick → ¬ cool → stays)
        ∧ (cool → ∃ t, goes (seatedBay s b) (seatedLink s b) t ∧ (monitorsOff s → t.log = s.log)))
      ∧ (∀ r, (s.bay b).state = .releaseWait r →
        let former (x : FaultReason) : BayState := .releaseWait { r with former := .fault x }
        (r.former ≠ .fault .pack → (sick → faulted former .pack) ∧ (hot → r.former ≠ .fault .thermal → faulted former .thermal))
        ∧ (r.former = .fault .pack ∨ ¬ sick ∧ (r.former = .fault .thermal ∨ ¬ hot) → (cool → r.former ≠ .fault .thermal) → stays)
        ∧ (cool → r.former = .fault .thermal →
            ∃ t, goes (polled (.releaseWait { r with former := .seated })) { idle with pollAt := none } t
              ∧ (monitorsOff s → t.log = s.log))))

/-! ## The feed -/

/-- R37, R43, R49, R35, R18: a press on a FEEDING bay whose latch no entry targets plans its takeover: DC if present, else the other bay if it qualifies, else the reservoir if the plan passes, tested with the E_shut in force. The first that qualifies is commanded, with 20 ms to be confirmed, and the bay waits in TRANSFER; with none the release ends NO_TAKEOVER, the bay feeding on, with its record and its blink. That the energy page is republished exactly once, its generation 2 higher, is the model's choice (DESIGN CHOICE, log entry 10). The slot index byte of RELEASE_REFUSED for a button's release is 0 by the model's choice (DESIGN CHOICE, log entry 39). -/
def Obligations.ButtonOnTheFeedPlansATakeover : Prop :=
  ∀ (b : Bay) (f : FaultSet) (s : State), Ready s → (s.bay b).state = .feeding f → s.feed.kind = feedOf b →
    s.feed.switchover = none → s.hld.demand b = false →
    (∀ k, sourceFor s b true = some k →
      ∃ t, exec (.buttonPress b) s = .next t
        ∧ t.feed = commanded s k .takeover (planAfter s b true) ∧ t.fhu = { s.fhu with switches := pathsTo b k }
        ∧ t.bay b = { s.bay b with blinkEnd := none, state := .releaseWait (transferRelease s f .button) }
        ∧ t.link b = s.link b ∧ BayEvent b { s with feed := t.feed, fhu := t.fhu } t)
    ∧ (sourceFor s b true = none →
      ∃ t, exec (.buttonPress b) s = .next t
        ∧ t.feed = { s.feed with lastPlan := planOf s }
        ∧ t.bay b = { s.bay b with blinkEnd := some (s.tmb.uptime + 2000) } ∧ t.link b = s.link b
        ∧ Logged s.toFront t.toFront (.releaseRefused b .noTakeover false .button) s.tmb
        ∧ BayRecordEvent b { s with feed := t.feed } t)

/-- R31, R27, R45 to R48, R175: DC arrival without a switchover in flight moves the feed to DC at once. From a healthy FEEDING bay, that bay goes to STANDBY; from the reservoir, a holdover that is not exhausted ends with its record, and an exhausted one without a further record (R46, R47): a record still deferred is written first with the outcome HLD holds, the ENERGY hold is lifted, EXHAUSTED leaves the shutdown causes. One FEED pass follows (R63). An exhausted holdover is stated with no DROP record deferred. Stated from 50 ms of uptime on, before which the comparator cannot have held (log entry 8). That a HOLDOVER_END record by a source takes the outcome HLD holds at that moment is the model's reading (DEDUCED, log entry 22). -/
def Obligations.DcArrivalTakesTheFeed : Prop :=
  (∀ (b : Bay) (s : State), Ready s → (s.bay b).state = .feeding noFaults → s.feed.kind = feedOf b → s.feed.switchover = none →
    50 ≤ s.tmb.uptime →
    ∃ t, exec .dcArrival s = .next t
      ∧ t.feed = { s.feed with
          kind := .dc, dcPresent := true, pending := ⟨false, false⟩
          causes := { s.feed.causes with faulted := false, lowCharge := false } }
      ∧ t.fhu.switches = ⟨true, false, false⟩ ∧ (t.bay b).state = .standby ∧ t.bay (otherBay b) = s.bay (otherBay b)
      ∧ t.bud.causes = ⟨false, true, false, false, false⟩ ∧ t.bud.feedUsed = .dc ∧ t.blc.liveDuty = s.blc.liveDuty
      ∧ t.hld = s.hld ∧ t.mot = s.mot ∧ t.trc = s.trc ∧ t.timers = s.timers ∧ t.sfe = s.sfe
      ∧ PassEvent s t ∧ keepsOutside passRanges s.mem t.mem)
  ∧ (∀ (h : Holdover) (s : State), Ready s → s.feed.kind = .reservoir → s.feed.switchover = none →
      s.feed.holdover = some h → h.exhausted = false → 50 ≤ s.tmb.uptime →
      ∃ t, exec .dcArrival s = .next t ∧ t.feed.kind = .dc ∧ t.feed.holdover = none ∧ t.feed.lean = false
        ∧ Logged s.toFront t.toFront (.holdoverEnd .dc ((s.tmb.uptime - h.start) / 1000) h.planned s.hld.outcome) s.tmb
        ∧ t.bayA = s.bayA ∧ t.bayB = s.bayB ∧ t.hld = s.hld ∧ t.mot = s.mot ∧ t.blc.liveDuty = s.blc.liveDuty
        ∧ PassEvent s t ∧ keepsOutside passRanges s.mem t.mem)
  ∧ (∀ (h : Holdover) (s : State), Ready s → s.feed.kind = .reservoir → s.feed.switchover = none →
      s.feed.holdover = some h → h.exhausted = true → s.drops = [] → 50 ≤ s.tmb.uptime →
      ∃ t, exec .dcArrival s = .next t
        ∧ t.feed = { s.feed with
            kind := .dc, dcPresent := true, holdover := none, lean := false, pending := ⟨false, false⟩
            causes := ⟨false, false, false⟩ }
        ∧ exhaustionOver s t ∧ t.fhu.switches = ⟨true, false, false⟩ ∧ t.bud.feedUsed = .dc
        ∧ t.bayA = s.bayA ∧ t.bayB = s.bayB ∧ t.mot = s.mot ∧ t.trc = s.trc ∧ t.sfe = s.sfe ∧ t.timers = s.timers
        ∧ t.blc.liveDuty = s.blc.liveDuty ∧ PassEvent s t ∧ keepsOutside passRanges s.mem t.mem)

/-- R28, R32, R38 to R40, R77, R95: DC departing while it is the feed, presence opening on the feed bay, and a collapse of the feed bay judged no sooner than 5 ms after it became the feed, are unplanned losses: the feed goes where the feed choice rule points (R29), a FEED_LOST record is made, an emergency pass runs and cuts the live duty to the new ceiling at once; into the reservoir an unplanned holdover begins (R44). An opened bay is EMPTY, and a release that ran there ends, a software one completing NOTHING_TO_RELEASE (Table 1-4); a collapsed bay is left in FAULT(PACK) (R2). A collapse of any other bay is none. The model's choices: FEED_LOST before the PACK_FAULT of the same collapse (DESIGN CHOICE, log entry 9; a worked example shows this order), the energy page once (log entry 10), the result data of the slot (log entry 11). Bits 1 to 7 of byte 2 of a DONE slot are 0 by the model's choice (DESIGN CHOICE, log entry 32). -/
def Obligations.UnplannedLossesMoveTheFeedAtOnce : Prop :=
  (∀ (k : FeedKind) (s : State), Ready s → s.feed.kind = .dc → s.feed.holdover = none → s.feed.switchover = none →
      k = ({ s.toPower with feed := { s.feed with dcPresent := false } } : Power).choose →
      ∃ t, exec .dcDeparture s = .next t ∧ t.feed.kind = k ∧ t.feed.dcPresent = false ∧ t.fhu.switches = switchesFor k
        ∧ (∀ b, t.bay b = fedBay s b k)
        ∧ Logged s.toFront t.toFront (.feedLost .dc .dcDeparture k s.feed.eAvail) s.tmb
        ∧ t.bud.causes = ⟨false, true, false, false, true⟩ ∧ t.bud.feedUsed = k
        ∧ t.blc.liveDuty = min s.blc.liveDuty t.bud.ceiling
        ∧ (k = .reservoir → t.feed.holdover = some ⟨false, s.tmb.uptime, false⟩ ∧ t.feed.lean = true
            ∧ t.summary &&& 0x08 ≠ 0)
        ∧ (k ≠ .reservoir → t.feed.holdover = none)
        ∧ t.hld = s.hld ∧ t.mot = s.mot ∧ t.trc = s.trc ∧ t.timers = s.timers ∧ t.sfe = s.sfe
        ∧ PassEvent s t ∧ keepsOutside passRanges s.mem t.mem)
  ∧ (∀ (b : Bay) (s : State), Ready s → s.feed.kind = feedOf b → (s.bay b).state ≠ .empty →
      let k := (s.toPower.setBay b (emptiedBay s b)).choose
      let lost (o : Option InFlight) (c : Instr) (cause : LossCause) (t : State) : Prop :=
        exec c s = .next t ∧ t.feed.kind = k ∧ t.fhu.switches = switchesFor k
        ∧ t.bay (otherBay b) = fedBay s (otherBay b) k
        ∧ Logged s.toFront t.toFront (.feedLost (feedOf b) cause k s.feed.eAvail) s.tmb
        ∧ t.bud.causes = ⟨false, true, false, false, true⟩ ∧ t.bud.feedUsed = k
        ∧ t.blc.liveDuty = min s.blc.liveDuty t.bud.ceiling
        ∧ t.feed.holdover = (if k = .reservoir then some ⟨false, s.tmb.uptime, false⟩ else s.feed.holdover)
        ∧ (k = .reservoir → t.feed.lean = true ∧ t.summary &&& 0x08 ≠ 0)
        ∧ t.feed.switchover = none ∧ t.feed.pending = ⟨false, false⟩
        ∧ t.hld = s.hld ∧ t.mot = s.mot ∧ t.trc = s.trc ∧ t.timers = s.timers ∧ t.sfe = s.sfe
        ∧ PassEvent { s with inFlight := t.inFlight } t ∧ keepsOutside (passRanges ++ endRanges o) s.mem t.mem
      ((∀ r, (s.bay b).state ≠ .releaseWait r) →
        ∃ t, lost none (.presenceOpened b) .presence t ∧ t.bay b = emptiedBay s b ∧ t.link b = ⟨.idle, 0, 0, 0, none⟩
          ∧ t.inFlight = s.inFlight)
      ∧ (∀ r, (s.bay b).state = .releaseWait r →
        ∃ t, lost (owedBy s r) (.presenceOpened b) .presence t ∧ t.bay b = emptiedBay s b ∧ t.link b = ⟨.idle, 0, 0, 0, none⟩
          ∧ ReleaseEnds b r .nothingToRelease false s t)
      ∧ (∀ f, (s.bay b).state = .feeding f → s.fhu.collapseFrom + 5 ≤ s.tmb.uptime →
        ∃ t, lost none (.packCollapse b) .voltage t ∧ t.bay b = { s.bay b with state := .fault .pack }
          ∧ t.inFlight = s.inFlight))
  ∧ (∀ (b : Bay) (s : State), s.powered = true → PinsDriven s → s.feed.kind ≠ feedOf b → exec (.packCollapse b) s = .next s)

/-- R35, R36, R18, R2, R44: a good sample with the target at its acceptance level before the deadline confirms the takeover that a bay in TRANSFER waits for, by DC, by the other bay or by the reservoir, where a planned holdover begins. The bay is STANDBY, or in FAULT by a standing reason, beneath its release, which keeps the takeover source and goes on to HELD under a hold placed meanwhile, else to UNLATCHING; with a cancel pending it ends CANCELLED. A takeover not confirmed by its deadline, or whose target bay has its presence opened, is reverted: the old path alone is closed, the failure counted, and the release ends NO_TAKEOVER with TRANSFER_FAILED, or CANCELLED with a cancel pending, the bay feeding on. A software release's slot completes with that code (R14). The model's choices: a sample confirms before the deadline and not at it (DEDUCED, log entry 17), the next conversion counted from its due time (DESIGN CHOICE, log entry 2), the energy page once (log entry 10), the result data of the slot (log entry 11). Bits 1 to 7 of byte 2 of a DONE slot are 0 by the model's choice (DESIGN CHOICE, log entry 32). The slot index byte of RELEASE_REFUSED for a button's release is 0 by the model's choice (DESIGN CHOICE, log entry 39). -/
def Obligations.TakeoversAreConfirmedOrReverted : Prop :=
  ∀ (b : Bay) (w : Switchover) (r : Release) (s : State), Ready s → s.feed.kind = feedOf b →
    s.feed.switchover = some w → w.target ≠ feedOf b → (s.bay b).state = .releaseWait r →
    let k := w.target
    let o := otherBay b
    (∀ x : PowerReading, s.timers.powerSense ≤ s.tmb.uptime → s.tmb.uptime < w.deadline → delivers x s.feed.vMin k →
        s.feed.dcPresent = false ∨ k = .dc → s.feed.holdover = none →
      let confirmed (t : State) : Prop :=
        exec (.powerSenseSample (some x)) s = .next t ∧ t.feed.kind = k ∧ t.feed.switchover = none
        ∧ t.feed.holdover = (if k = .reservoir then some ⟨true, s.tmb.uptime, false⟩ else none)
        ∧ (k = .reservoir → t.feed.lean = true ∧ t.summary &&& 0x08 ≠ 0) ∧ t.fhu.switches = switchesFor k
        ∧ t.bay o = fedBay s o k ∧ t.sfe = sampledPower s x ∧ t.timers = convertedTimers s
        ∧ t.bud.causes = ⟨false, true, false, false, false⟩ ∧ t.hld = s.hld ∧ t.mot = s.mot ∧ t.trc = s.trc
      (r.sub = .transfer false → s.hld.demand b = true ∧ s.tmb.uptime < r.limitAt ∨ s.hld.demand b = false ∧ (s.bay b).latchOpen = false →
        ∃ t, confirmed t
          ∧ t.bay b = { s.bay b with
              state := .releaseWait { r with
                sub := if s.hld.demand b then .held else .unlatching (s.tmb.uptime + 500)
                former := leftFormer r.standing, standing := noFaults, takeover := some k } }
          ∧ PassEvent s t ∧ keepsOutside passRanges s.mem t.mem)
      ∧ (r.sub = .transfer true → k ≠ .reservoir →
        ∃ t, confirmed t ∧ t.bay b = { s.bay b with state := leftState r.standing }
          ∧ ReleaseEnds b { r with takeover := some k } .cancelled false s t
          ∧ PassEvent { s with inFlight := t.inFlight } t ∧ keepsOutside (passRanges ++ endRanges (owedBy s r)) s.mem t.mem))
    ∧ (w.purpose = .takeover → r.former = .feeding → s.feed.dcPresent = false → s.fhu.dueInFlight = ⟨false, false⟩ →
      let reverted (t : State) : Prop :=
        t.feed = { s.feed with
            switchover := none, failures := if s.feed.failures < 65535 then s.feed.failures + 1 else s.feed.failures }
        ∧ t.fhu = { s.fhu with switches := switchesFor (feedOf b) }
        ∧ FeedEvent { s with inFlight := t.inFlight } t
        ∧ keepsOutside (pageRange .energy :: recordRanges ++ endRanges (owedBy s r)) s.mem t.mem
        ∧ (r.sub = .transfer false → t.bay b = { s.bay b with state := .feeding r.standing, blinkEnd := some (s.tmb.uptime + 2000) }
            ∧ Logged s.toFront t.toFront (.releaseRefused b .noTakeover true r.origin) s.tmb
            ∧ ReleaseEnds b r .noTakeover true s t)
        ∧ (r.sub = .transfer true → t.bay b = { s.bay b with state := .feeding r.standing } ∧ t.log = s.log
            ∧ ReleaseEnds b r .cancelled false s t)
      (w.deadline ≤ s.tmb.uptime →
        ∃ t, exec .switchoverDeadline s = .next t ∧ t.bay o = s.bay o ∧ t.link o = s.link o ∧ reverted t)
      ∧ (k = feedOf o → (s.bay o).state = .standby →
        ∃ t, exec (.presenceOpened o) s = .next t ∧ t.bay o = emptiedBay s o ∧ t.link o = ⟨.idle, 0, 0, 0, none⟩ ∧ reverted t))

/-- R12, R33, R34, R11, R2: what a poll finds on a FEEDING bay, with no switchover in flight and no move pending. A fault flag, or 600 dC, joins the standing faults with a PACK_FAULT record and FHU seeks a fault move, to DC, the other bay or the reservoir; a third failed poll does the same for LINK, with the reservoir only where PACK or THERMAL stands. At 3 % of charge or less FHU seeks a changeover to the other bay. The switchover is commanded, or the move is pending and a shutdown cause (R48). Cooling below 550 dC removes THERMAL and, no reason left, withdraws the move. Another bay that is identified and qualifies takes a pending move. A confirmed move leaves the old bay in FAULT, or in STANDBY without a standing fault. Records are placed with no monitor enabled. The model's choices: when pending moves are examined (DEDUCED, log entry 12), a sample confirms before the deadline and not at it (DEDUCED, log entry 17), the next conversion counted from its due time (DESIGN CHOICE, log entry 2), the energy page once (DESIGN CHOICE, log entry 10). That failed polls stay at 3 once the link is lost (log entry 16), and that a reply acts at 10 ms exactly (log entry 17), are DEDUCED. -/
def Obligations.FeedPackFindingsSeekAMove : Prop :=
  ∀ (b : Bay) (f : FaultSet) (s : State), Ready s → s.feed.kind = feedOf b → (s.bay b).state = .feeding f →
    let o := otherBay b
    let bayEvent (t : State) : Prop :=
      FeedEvent s t ∧ t.bay o = s.bay o ∧ t.link o = s.link o ∧ keepsOutside (pageRange .energy :: recordRanges) s.mem t.mem
    let serial := ((s.bay b).identity.map fun i => i.serial).getD 0
    (∀ (bytes : BitVec 136) (t0 : Nat) (again : Bool), (s.link b).activity = .pollRead 3 again t0 → s.tmb.uptime ≤ t0 + 10 →
      checksumGood bytes = true →
      let k := decodePackState (s.link b).block2 (bytes.extractLsb' 0 128) (some s.tmb.uptime)
      let polled (st : BayState) : BayRec :=
        { s.bay b with state := st, packState := some k, failedPolls := if (s.bay b).failedPolls = 3 then 3 else 0 }
      let done (t : State) : Prop := exec (.packLinkReply b bytes) s = .next t ∧ t.link b = { s.link b with activity := .idle } ∧ bayEvent t
      (s.feed.switchover = none → s.feed.pending = ⟨false, false⟩ → 3 < k.soc →
        (k.faultFlags &&& 0x0F ≠ 0 → f.pack = false →
          ∃ t, done t ∧ t.bay b = polled (.feeding { f with pack := true })
            ∧ t.feed = faultSought s b true ∧ t.fhu = faultPaths s b true
            ∧ (monitorsOff s → Logged s.toFront t.toFront (.packFault b .pack serial) s.tmb))
        ∧ (k.faultFlags &&& 0x0F = 0 → 600 ≤ k.temperature → f.thermal = false →
          ∃ t, done t ∧ t.bay b = polled (.feeding { f with thermal := true })
            ∧ t.feed = faultSought s b true ∧ t.fhu = faultPaths s b true
            ∧ (monitorsOff s → Logged s.toFront t.toFront (.packFault b .thermal serial) s.tmb)))
      ∧ (k.faultFlags &&& 0x0F = 0 → k.temperature < 600 → f.thermal = false → s.feed.switchover = none →
        s.feed.pending = ⟨false, false⟩ → k.soc ≤ 3 →
          ∃ t, done t ∧ t.bay b = polled (.feeding f)
            ∧ (byOther s b = true → t.feed = commanded s (feedOf o) .changeover s.feed.lastPlan
                ∧ t.fhu = { s.fhu with switches := pathsTo b (feedOf o) })
            ∧ (byOther s b = false → t.fhu = s.fhu ∧ t.pins.shutdownRequest = true
                ∧ t.feed = { s.feed with pending := ⟨false, true⟩, causes := { s.feed.causes with lowCharge := true } }))
      ∧ (k.faultFlags &&& 0x0F = 0 → k.temperature < 550 → f = ⟨false, true, false⟩ → 3 < k.soc →
          ∃ t, done t ∧ t.bay b = polled (.feeding noFaults)
            ∧ t.feed = { s.feed with
                pending := { s.feed.pending with faulted := false }, causes := { s.feed.causes with faulted := false } }
            ∧ t.fhu = { s.fhu with dueInFlight := { s.fhu.dueInFlight with faulted := false } }))
    ∧ (∀ (k t0 : Nat), (s.link b).activity = .pollRead k true t0 → t0 + 10 ≤ s.tmb.uptime → (s.bay b).failedPolls = 2 →
        f.link = false → s.feed.switchover = none → s.feed.pending = ⟨false, false⟩ →
      ∃ t, exec (.packLinkTimeout b) s = .next t
        ∧ t.bay b = { s.bay b with state := .feeding { f with link := true }, failedPolls := 3 }
        ∧ t.link b = { s.link b with activity := .idle } ∧ t.feed = faultSought s b (f.pack || f.thermal)
        ∧ t.fhu = faultPaths s b (f.pack || f.thermal) ∧ (t.feed.switchover = none → t.pins.shutdownRequest = true)
        ∧ Logged s.toFront t.toFront (.packFault b .link serial) s.tmb ∧ bayEvent t)
    ∧ (∀ (bytes : BitVec 136) (d t0 : Nat) (again : Bool), (s.bay o).state = .seated d →
        (s.link o).activity = .identRead 3 again t0 → s.tmb.uptime ≤ t0 + 10 → checksumGood bytes = true →
        s.feed.switchover = none → s.feed.dcPresent = false → s.feed.pending ≠ ⟨false, false⟩ →
        let k := decodePackState (s.link o).block2 (bytes.extractLsb' 0 128) none
        k.faultFlags &&& 0x0F = 0 → k.temperature < 600 → 5 ≤ k.soc →
        s.sfe.power.pSys ≤ ({ s.bay o with packState := some k } : BayRec).power →
      ∃ t, exec (.packLinkReply o bytes) s = .next t
        ∧ t.bay o = { s.bay o with state := .standby, packState := some k, failedPolls := 0 }
        ∧ t.link o = { s.link o with activity := .idle, pollAt := some (s.tmb.uptime + 250) }
        ∧ t.feed = commanded s (feedOf o) (if s.feed.pending.faulted then .faultMove else .changeover) s.feed.lastPlan
        ∧ t.fhu = { s.fhu with switches := pathsTo b (feedOf o) } ∧ BayEvent o { s with feed := t.feed, fhu := t.fhu } t)
    ∧ (∀ (w : Switchover) (x : PowerReading), s.feed.switchover = some w → w.target ≠ feedOf b →
        s.timers.powerSense ≤ s.tmb.uptime → s.tmb.uptime < w.deadline → delivers x s.feed.vMin w.target →
        s.feed.dcPresent = false ∨ w.target = .dc → s.feed.holdover = none → (w.target = .reservoir → f ≠ noFaults) →
      ∃ t, exec (.powerSenseSample (some x)) s = .next t
        ∧ t.feed.kind = w.target ∧ t.feed.switchover = none ∧ t.fhu.switches = switchesFor w.target
        ∧ t.feed.pending = ⟨false, false⟩ ∧ t.feed.causes = { s.feed.causes with faulted := false, lowCharge := false }
        ∧ t.feed.holdover = (if w.target = .reservoir then some ⟨true, s.tmb.uptime, false⟩ else none)
        ∧ t.bay b = { s.bay b with state := leftState f } ∧ t.bay o = fedBay s o w.target
        ∧ t.sfe = sampledPower s x ∧ t.timers = convertedTimers s ∧ t.bud.causes = ⟨false, true, false, false, false⟩
        ∧ t.hld = s.hld ∧ t.mot = s.mot ∧ t.trc = s.trc ∧ PassEvent s t ∧ keepsOutside passRanges s.mem t.mem)

/-- R42, R49, R171: a good power-sense sample, one each 10 ms, replaces the readings and recomputes E_avail and the remaining holdover, at which an adopted E_shut comes into force; without a holdover and a switchover nothing else follows. A bad sample changes no reading. That the next occasion is counted from the due time is the model's choice (DESIGN CHOICE, log entry 2). -/
def Obligations.PowerSampleMeasuresTheReservoir : Prop :=
  (∀ (x : PowerReading) (s : State), Ready s → ChargerSettled s.toPower → s.feed.holdover = none → s.feed.switchover = none →
    s.timers.powerSense ≤ s.tmb.uptime →
    ∃ t, exec (.powerSenseSample (some x)) s = .next t
      ∧ t = { s with
          sfe := sampledPower s x, timers := convertedTimers s, fhu := { s.fhu with eShutInForce := s.feed.eShut }
          feed := { s.feed with eAvail := energyOf s x, remaining := remainingOf s x }
          mem := t.mem, gens := { s.gens with energy := t.gens.energy }, pins := derivePins t.toBlocks }
      ∧ keepsOutside energyRanges s.mem t.mem)
  ∧ (∀ s : State, s.powered = true → PinsDriven s → s.timers.powerSense ≤ s.tmb.uptime →
      exec (.powerSenseSample none) s = .next { s with timers := convertedTimers s })

/-- R46, R48, R56, R60: a sample that takes E_avail to E_shut or below in a holdover declares exhaustion, once: the holdover shows it, an ENERGY entry stands on STORAGE, the quiesce line and the shutdown-request line are up, and the HOLDOVER_END record is made, or waits for the outcome while an acknowledgement wait runs. A sample that leaves E_avail above E_shut, or comes after exhaustion, declares none. Stated with no switchover, no ENERGY entry, no record deferred already; the record is placed with no monitor enabled, since the HOLDOVER_EXHAUSTED event comes before it. The outcome that the record takes is DEDUCED (log entry 22). That the next conversion is counted from its due time is the model's choice (DESIGN CHOICE, log entry 2). -/
def Obligations.ExhaustionHoldsStorageAndAsksForShutdown : Prop :=
  ∀ (h : Holdover) (x : PowerReading) (s : State), Ready s → s.feed.kind = .reservoir → s.feed.holdover = some h →
    s.feed.switchover = none → s.timers.powerSense ≤ s.tmb.uptime →
    let measured : FeedRec := { s.feed with eAvail := energyOf s x, remaining := remainingOf s x }
    (∀ n : Nat, h.exhausted = false → energyOf s x ≤ s.feed.eShut → positionOf .energy .storage s.hld.entries = none →
        freePosition s.hld.entries = some n → s.drops = [] → s.fhu.deferredEnd = none →
      let d := (s.tmb.uptime - h.start) / 1000
      let waits := if s.hld.quiesce then s.hld.wait.isSome else !s.hld.ackLine
      ∃ t, exec (.powerSenseSample (some x)) s = .next t
        ∧ t.feed = { measured with
            holdover := some { h with exhausted := true }, causes := { s.feed.causes with exhausted := true } }
        ∧ t.pins.shutdownRequest = true ∧ t.pins.quiesce = true
        ∧ t.hld.entries = s.hld.entries.set n (some ⟨.energy, .storage, 4000, s.tmb.uptime, none⟩)
        ∧ t.hld.rProt = s.hld.rProt + 4000 ∧ t.bud.causes.hold = true
        ∧ t.fhu.deferredEnd = (if waits then some ⟨d, h.planned⟩ else none)
        ∧ (waits = false → monitorsOff s → Logged s.toFront t.toFront
            (.holdoverEnd .exhausted d h.planned (if s.hld.quiesce then s.hld.outcome else .acked)) s.tmb)
        ∧ t.sfe = sampledPower s x ∧ t.timers = convertedTimers s
        ∧ t.bayA = s.bayA ∧ t.bayB = s.bayB ∧ t.mot = s.mot ∧ PassEvent s t ∧ keepsOutside passRanges s.mem t.mem)
    ∧ (h.exhausted = true ∨ s.feed.eShut < energyOf s x → ChargerSettled s.toPower →
      ∃ t, exec (.powerSenseSample (some x)) s = .next t
        ∧ t = { s with
            sfe := sampledPower s x, timers := convertedTimers s, fhu := { s.fhu with eShutInForce := s.feed.eShut }
            feed := measured, mem := t.mem, gens := { s.gens with energy := t.gens.energy }, pins := derivePins t.toBlocks }
        ∧ keepsOutside energyRanges s.mem t.mem)

/-- R171, R173, R81: the power sense, the thermistor and the ambient sensor are each declared lost once their time without a good reading has passed, with one SENSOR_FAULT record; while lost nothing further follows. A thermistor conversion, one each 100 ms, from −400 to 1,500 dC is the panel temperature and ends a loss; an open or short one declares the loss, once, and keeps the last good temperature. That the next occasion is counted from the due time is the model's choice (DESIGN CHOICE, log entry 2). -/
def Obligations.SensorReadingsAndLossesAreJudged : Prop :=
  (∀ s : State, s.powered = true → PinsDriven s →
      let lost (t : State) (x : Sensor) : Prop :=
        Logged s.toFront t.toFront (.sensorFault x) s.tmb ∧ keepsOutside recordRanges s.mem t.mem
        ∧ t = { s with
            sfe := t.sfe, blc := t.blc, mem := t.mem, summary := t.summary, log := { t.log with effRead := s.log.effRead }
            monitors := t.monitors, gens := { s.gens with monitor := t.gens.monitor }, pins := derivePins t.toBlocks }
      (s.sfe.powerGoodAt + 50 ≤ s.tmb.uptime →
        if s.sfe.powerHealth = .lost then exec .powerSenseLost s = .next s
        else ∃ t, exec .powerSenseLost s = .next t ∧ lost t .powerSense
          ∧ t.sfe = { s.sfe with powerHealth := .lost } ∧ t.blc = s.blc)
      ∧ (s.sfe.thermGoodAt + 1000 ≤ s.tmb.uptime →
        if s.sfe.thermHealth = .lost then exec .thermistorLost s = .next s
        else ∃ t, exec .thermistorLost s = .next t ∧ lost t .thermistor
          ∧ t.sfe = { s.sfe with thermHealth := .lost } ∧ t.blc = s.blc)
      ∧ (s.blc.lastSampleAt.getD 0 + 500 ≤ s.tmb.uptime →
        if s.blc.ambient = .stale then exec .ambientLost s = .next s
        else ∃ t, exec .ambientLost s = .next t ∧ lost t .ambient
          ∧ t.blc = { s.blc with ambient := .stale } ∧ t.sfe = s.sfe))
  ∧ (∀ (v : Int) (s : State), s.powered = true → PinsDriven s → s.timers.thermistor ≤ s.tmb.uptime →
      let next : Timers := { s.timers with thermistor := s.timers.thermistor + 100 }
      (-400 ≤ v → v ≤ 1500 →
        exec (.thermistorReading v) s
          = .next { s with
              timers := next, sfe := { s.sfe with panelTemp := v, thermHealth := .valid, thermGoodAt := s.tmb.uptime } })
      ∧ (v < -400 ∨ 1500 < v → s.sfe.thermHealth = .lost → exec (.thermistorReading v) s = .next { s with timers := next })
      ∧ (v < -400 ∨ 1500 < v → s.sfe.thermHealth ≠ .lost →
        ∃ t, exec (.thermistorReading v) s = .next t ∧ t.sfe = { s.sfe with thermHealth := .lost }
          ∧ Logged s.toFront t.toFront (.sensorFault .thermistor) s.tmb
          ∧ t = { s with
              timers := next, sfe := t.sfe, mem := t.mem, summary := t.summary, log := { t.log with effRead := s.log.effRead }
              monitors := t.monitors, gens := { s.gens with monitor := t.gens.monitor }, pins := derivePins t.toBlocks }
          ∧ keepsOutside recordRanges s.mem t.mem))

/-! ## The hold table -/

/-- R54, R114, R101, R117, R57: a SOFTWARE entry is removed when uptime reaches its expiry; the settle limit ends SETTLE in NORMAL and the lift deadline ends the protection after a loss, each removing every MOTION hold. No other entry moves, R_prot and the lines follow the table, and a HOLD pass runs. Stated with both bays outside RELEASE_WAIT and OPEN, and no DROP record deferred to an acknowledgement. The table's outputs before the bays are the model's choice (DESIGN CHOICE, log entry 9); the settle limit keeps the free-fall run (DEDUCED, log entry 18). -/
def Obligations.HoldsAreRemovedAtTheirDeadlines : Prop :=
  (∀ (g : Target) (d : Nat) (s : State), Ready s → s.hld.expiryOf g = some d → d ≤ s.tmb.uptime → s.drops = [] →
      (∀ b r, (s.bay b).state ≠ .releaseWait r) → (∀ b u, (s.bay b).state ≠ .opened u) →
      ∃ t, exec (.holdExpiry g) s = .next t
        ∧ t.hld.entries = s.hld.entries.map (fun o => o.filter fun e => !(decide (e.holder = .software) && decide (e.target = g)))
        ∧ positionOf .software g t.hld.entries = none ∧ t.hld.rProt ≤ s.hld.rProt
        ∧ t.bud.causes = ⟨false, false, true, false, false⟩ ∧ t.bud.rProt = t.hld.rProt
        ∧ t.pins.quiesce = t.hld.quiesce ∧ t.bayA = s.bayA ∧ t.bayB = s.bayB ∧ t.mot = s.mot
        ∧ t.blc.liveDuty = s.blc.liveDuty ∧ PassEvent s t ∧ keepsOutside passRanges s.mem t.mem)
  ∧ (∀ (c : Instr) (d : Nat) (s : State), Ready s → d ≤ s.tmb.uptime →
      (c = .settleDeadline ∧ s.mot.state = .settle d ∨ c = .liftDeadline ∧ s.mot.liftDeadline = some d) →
      (∃ e, some e ∈ s.hld.entries ∧ e.holder = .motion) → s.drops = [] →
      (∀ b r, (s.bay b).state ≠ .releaseWait r) → (∀ b u, (s.bay b).state ≠ .opened u) →
      ∃ t, exec c s = .next t
        ∧ t.hld.entries = s.hld.entries.map (fun o => o.filter fun e => decide (e.holder ≠ .motion))
        ∧ t.mot = (if c = .settleDeadline then { s.mot with state := .normal, settleRun := 0 } else { s.mot with liftDeadline := none })
        ∧ t.bud.causes = ⟨false, false, true, false, false⟩ ∧ t.bayA = s.bayA ∧ t.bayB = s.bayB ∧ t.trc = s.trc
        ∧ t.blc.liveDuty = s.blc.liveDuty ∧ PassEvent s t ∧ keepsOutside passRanges s.mem t.mem)

/-- R60, R116, R46: the wait of a quiesce request ends ACKED when the acknowledge line is asserted during it, NOT_ACKED when its deadline passes; the wait is IDLE after it and the outcome stored. Then the deferred DROP records are written in the order they fell due, each with that outcome and the bay states as they now stand, and after them a deferred HOLDOVER_END record with that outcome; the records are placed where the log has room and no monitor is enabled. With nothing deferred only the table's outcome and the mirror page change. That a level of the line which ends no wait leaves the mirror page as it is is the model's choice (DEDUCED, log entry 14). -/
def Obligations.AcknowledgementEndsTheWait : Prop :=
  ∀ (d : Nat) (s : State), Ready s → ChargerSettled s.toPower → s.hld.wait = some d →
    let owed := s.drops.length + if s.fhu.deferredEnd.isSome then 1 else 0
    let placed (t : State) (n : Nat) (r : LogRecord) : Prop :=
      let i := s.log.writeIndex + BitVec.ofNat 32 n
      readBytes t.mem (logEntryAt (i.toNat % 64)) 64 = r.bytes i s.tmb
    let ended (h : HoldTable) (t : State) : Prop :=
      t = { s with
        hld := h, drops := [], fhu := { s.fhu with deferredEnd := none }, trc := { s.trc with linked := t.trc.linked }
        mem := t.mem, summary := t.summary, log := { t.log with effRead := s.log.effRead }, monitors := t.monitors
        gens := { s.gens with mirror := s.gens.mirror + 2, monitor := t.gens.monitor }, pins := derivePins t.toBlocks }
      ∧ keepsOutside ((0x2000, 0x2040) :: pageRange .mirror :: recordRanges) s.mem t.mem
      ∧ (owed = 0 → t.log = s.log ∧ t.trc = s.trc ∧ t.summary = s.summary ∧ t.monitors = s.monitors
          ∧ t.gens.monitor = s.gens.monitor ∧ keepsOutside [pageRange .mirror] s.mem t.mem)
      ∧ (monitorsOff s → owed ≤ s.log.free →
          t.log.writeIndex = s.log.writeIndex + BitVec.ofNat 32 owed ∧ t.log.missed = s.log.missed
          ∧ (∀ n x, s.drops[n]? = some x → placed t n (.drop x h.outcome s.bayA.state s.bayB.state))
          ∧ (∀ e, s.fhu.deferredEnd = some e → placed t s.drops.length (.holdoverEnd .exhausted e.duration e.planned h.outcome)))
    (∃ t, exec (.storageAcknowledge true) s = .next t ∧ ended { s.hld with ackLine := true, wait := none, outcome := .acked } t)
    ∧ (∃ t, exec (.storageAcknowledge false) s = .next t ∧ t = { s with hld := { s.hld with ackLine := false }, pins := derivePins t.toBlocks })
    ∧ (d ≤ s.tmb.uptime → ∃ t, exec .ackDeadline s = .next t ∧ ended { s.hld with wait := none, outcome := .notAcked } t)

/-- R51: a placement decided by the table as it stands: the same pair is refreshed in its position with placed-at kept; a new pair of SOFTWARE is refused while 12 SOFTWARE entries stand; any other takes the lowest free position. -/
def Obligations.PlacementFollowsTheTable : Prop :=
  ∀ (e : HoldEntry) (es : List (Option HoldEntry)),
    (∀ n o, es[n]? = some (some o) → o.holder = e.holder → o.target = e.target →
      (∀ m p, m < n → es[m]? = some (some p) → ¬ (p.holder = e.holder ∧ p.target = e.target)) →
      placeEntry e es = es.set n (some { e with placedAt := o.placedAt }))
    ∧ ((∀ o, some o ∈ es → ¬ (o.holder = e.holder ∧ o.target = e.target)) →
      (e.holder = .software → 12 ≤ softwareCount es → placeEntry e es = es)
      ∧ (∀ n, (e.holder = .software → softwareCount es < 12) → es[n]? = some none → (∀ m, m < n → es[m]? ≠ some none) →
          placeEntry e es = es.set n (some e)))

/-! ## The power budget -/

/-- R63 to R74: the periodic pass and the values of its stages, from the readings, the feed, the holds and the light record as they stand; BLC takes its results (R91), and the live duty waits for an application point. Stated with no move of the feed pending. The next occasion counted from the due time is the model's choice (DESIGN CHOICE, log entry 2), so is the one pass after the event's own changes (DEDUCED, log entry 30). -/
def Obligations.PeriodicPassFollowsTheStages : Prop :=
  ∀ s : State, Ready s → ChargerSettled s.toPower → s.timers.pass ≤ s.tmb.uptime → s.feed.pending = ⟨false, false⟩ →
    ∃ t, exec .periodicTimer s = .next t
      ∧ t.timers = { s.timers with pass := s.timers.pass + 100 } ∧ t.bud.causes = ⟨true, false, false, false, false⟩
      ∧ t.bud.feedUsed = s.feed.kind
      ∧ (s.feed.kind = .dc → t.bud.pFeed = min s.feed.pAdapter (s.sfe.power.vDc * 6500 / 1000) ∧ t.bud.factors = none)
      ∧ (s.feed.kind = .reservoir → t.bud.pFeed = s.feed.pResLimit ∧ t.bud.factors = none)
      ∧ (∀ b i k, s.feed.kind = feedOf b → (s.bay b).identity = some i → (s.bay b).packState = some k →
          let f := if (s.bay b).state.standing.link then (70, 50) else (tFactor k.temperature, sFactor k.soc)
          t.bud.factors = some f ∧ t.bud.pFeed = i.packMax * f.1 * f.2 / 10000)
      ∧ t.bud.usable = t.bud.pFeed * (100 - s.feed.margin) / 100
      ∧ t.bud.pPlat = s.sfe.power.pSys - s.sfe.power.pBl ∧ t.bud.rProt = reserveSum s.hld.entries
      ∧ t.bud.aRaw = (t.bud.usable : Int) - t.bud.pPlat - t.bud.rProt
      ∧ t.bud.aBl = (if s.sfe.powerHealth = .lost then 0 else min t.bud.aRaw.toNat s.blc.panel.pBlMax)
      ∧ t.bud.dAllow = t.bud.aBl * 1024 / s.blc.panel.pBlMax
      ∧ t.bud.dTherm = (if s.sfe.thermHealth = .lost ∨ 750 ≤ s.sfe.panelTemp then 512
          else if s.sfe.panelTemp < 650 then 1024 else 1024 - (s.sfe.panelTemp - 650).toNat * 512 / 100)
      ∧ t.bud.ceiling = max s.blc.panel.dFloor (min t.bud.dAllow t.bud.dTherm)
      ∧ t.bud.dTarget = s.blc.dTarget ∧ t.bud.dCmd = max s.blc.panel.dFloor (min s.blc.dTarget t.bud.ceiling)
      ∧ (t.bud.deficit = true ↔ t.bud.dAllow < s.blc.panel.dFloor)
      ∧ t.bud.capped = (if t.bud.ceiling < s.blc.dTarget
          then some (if t.bud.dAllow ≤ t.bud.dTherm then .budget else .thermal) else none)
      ∧ t.bud.pChg = (if s.feed.kind = .dc ∧ s.sfe.powerHealth ≠ .lost then
          (t.bud.aRaw - ((if s.blc.panelEnable then s.blc.panel.pBlMax * t.bud.dCmd / 1024 else 0 : Nat) : Int)).toNat else 0)
      ∧ t.blc.liveDuty = s.blc.liveDuty ∧ t.feed = s.feed ∧ t.fhu = s.fhu ∧ t.hld = s.hld ∧ t.bayA = s.bayA ∧ t.bayB = s.bayB
      ∧ t.assignment = s.assignment ∧ t.mot = s.mot ∧ t.trc = s.trc ∧ t.sfe = s.sfe
      ∧ PassEvent s t ∧ keepsOutside passRanges s.mem t.mem

/-! ## Backlight and ambient light -/

/-- R79, R80, R83, R87, R88: an ambient sample is stored and stamped, moves L_f by the filter (the first seeds it), and forms N_c, N_b and d_target anew; nothing else changes. The filter step is the gap times the gain over 256, truncated, and at least 1 while there is a gap; it never carries L_f past L, a gain of 256 takes L_f to L, and no gap leaves it. The curve at L_f, for a curve whose lux values rise strictly: below point 0 its nits, at or above the last point the last nits, and between, by the segment from the last point at or below L_f, truncated. -/
def Obligations.AmbientSampleMovesTheTarget : Prop :=
  (∀ (lux : Nat) (s : State), s.powered = true → PinsDriven s → lux ≤ 120000 →
    let f := s.blc.filtered
    let filtered := if s.blc.ambient = .none then lux
      else if f < lux then f + max 1 ((lux - f) * s.blc.panel.kUp / 256)
      else if lux < f then f - max 1 ((f - lux) * s.blc.panel.kDown / 256)
      else f
    let nc := evalCurve s.blc.curve filtered
    let nb := max s.blc.panel.nMin (min s.blc.panel.nMax
      (match s.blc.mode with
        | .auto => ((nc : Int) * (100 + s.blc.bias)).toNat / 100
        | .manual => s.blc.manualLevel))
    exec (.ambientSample lux) s = .next { s with
      blc := { s.blc with
        ambient := .valid, lastL := lux, lastSampleAt := some s.tmb.uptime, filtered := filtered, nc := nc, nb := nb
        dTarget := (nb * 1024 + (s.blc.panel.nMax - 1)) / s.blc.panel.nMax } })
  ∧ (∀ (kUp kDown f lux : Nat), within 1 256 kUp → within 1 256 kDown →
    let g := filterStep kUp kDown f lux
    (f < lux → g = f + max 1 ((lux - f) * kUp / 256) ∧ f < g ∧ g ≤ lux ∧ (kUp = 256 → g = lux))
    ∧ (lux < f → g = f - max 1 ((f - lux) * kDown / 256) ∧ g < f ∧ lux ≤ g ∧ (kDown = 256 → g = lux))
    ∧ (f = lux → g = f))
  ∧ (∀ (ps : List CurvePoint) (x : Nat), ps.Pairwise (fun p q => p.lux < q.lux) →
    (∀ p, ps.head? = some p → x < p.lux → evalCurve ps x = p.nits)
    ∧ (∀ p, ps.getLast? = some p → p.lux ≤ x → evalCurve ps x = p.nits)
    ∧ (∀ i p q, ps[i]? = some p → ps[i + 1]? = some q → p.lux ≤ x → x < q.lux →
        evalCurve ps x = p.nits + (q.nits - p.nits) * (x - p.lux) / (q.lux - p.lux)))

/-- R92, R93: a frame start, a due free-run point and a due frame watch deadline are application points: the live duty is cut to the ceiling in force, then rises or falls toward the pending duty by one slew step, and not at all while the panel is off; the application mode and the next point are set (stated with no curve pending). R96: a fall of the panel enable line takes the live duty to 0 and the driver off; a rise enables the driver at duty 0 and is no application point. That the next occasion is counted from the due time is the model's choice (DESIGN CHOICE, log entry 2). -/
def Obligations.DutyStepsAtPointsAndPanelLine : Prop :=
  (∀ s : State, s.powered = true → s.blc.pendingCurve = none →
      let cut := min s.blc.liveDuty s.blc.ceiling
      let live := if s.blc.panelEnable = false then s.blc.liveDuty
        else if cut < s.blc.pendingDuty then min s.blc.pendingDuty (cut + s.blc.panel.sUp)
        else if s.blc.pendingDuty < cut then max s.blc.pendingDuty (cut - s.blc.panel.sDown)
        else cut
      let after (m : AppMode) : State := s.withBlocks { s.toBlocks with blc := { s.blc with liveDuty := live, appMode := m } }
      exec .frameStart s = .next (after (.frame (s.tmb.uptime + 100)))
      ∧ (∀ n, s.blc.appMode = .freeRun n → n ≤ s.tmb.uptime → exec .freeRunPoint s = .next (after (.freeRun (n + 16))))
      ∧ (∀ d, s.blc.appMode = .frame d → d ≤ s.tmb.uptime → exec .frameWatchDeadline s = .next (after (.freeRun (d + 16)))))
  ∧ (∀ s : State, s.powered = true →
      exec .panelEnableFall s = .next (s.withBlocks { s.toBlocks with blc := { s.blc with panelEnable := false, liveDuty := 0 } })
      ∧ (s.blc.panelEnable = false →
        ∃ t, exec .panelEnableRise s = .next t ∧ t.blc = { s.blc with panelEnable := true, liveDuty := 0 } ∧ t.pins.backlight = some 0
          ∧ t = { s with blc := t.blc, pins := derivePins t.toBlocks }))

/-- R85, R92, R93: any application point, a frame start, a due free-run point or a due frame watch deadline, adopts a pending curve: it is the active curve under the next version, the target is formed from it, and its slot, still in flight, completes OK with version and point count; then the point's duty step is taken, with the pending duty and the ceiling as they stood, and not at all while the panel is off. Bits 1 to 7 of byte 2 of a DONE slot are 0 by the model's choice (DESIGN CHOICE, log entry 32). That the next occasion is counted from the due time is the model's choice (DESIGN CHOICE, log entry 2). -/
def Obligations.PendingCurveIsAdoptedAtAPoint : Prop :=
  ∀ (c : PendingCurve) (e : InFlight) (i : Instr) (m : AppMode) (s : State), s.powered = true →
    s.blc.pendingCurve = some c → s.entryOf c.slot = some e →
    (i = .frameStart ∧ m = .frame (s.tmb.uptime + 100)
      ∨ (∃ n, s.blc.appMode = .freeRun n ∧ n ≤ s.tmb.uptime ∧ i = .freeRunPoint ∧ m = .freeRun (n + 16))
      ∨ (∃ d, s.blc.appMode = .frame d ∧ d ≤ s.tmb.uptime ∧ i = .frameWatchDeadline ∧ m = .freeRun (d + 16))) →
    let p : Posting := ⟨c.slot, e.notify, e.tag⟩
    let v := s.blc.curveVersion + 1
    let cut := min s.blc.liveDuty s.blc.ceiling
    let live := if s.blc.panelEnable = false then s.blc.liveDuty
      else if cut < s.blc.pendingDuty then min s.blc.pendingDuty (cut + s.blc.panel.sUp)
      else if s.blc.pendingDuty < cut then max s.blc.pendingDuty (cut - s.blc.panel.sDown)
      else cut
    ∃ t, exec i s = .next t
      ∧ t.blc.curve = c.points ∧ t.blc.curveVersion = v ∧ t.blc.pendingCurve = none ∧ t.blc.nc = evalCurve c.points s.blc.filtered
      ∧ t.blc.nb = max s.blc.panel.nMin (min s.blc.panel.nMax
          (match s.blc.mode with
            | .auto => ((t.blc.nc : Int) * (100 + s.blc.bias)).toNat / 100
            | .manual => s.blc.manualLevel))
      ∧ t.blc.dTarget = (t.blc.nb * 1024 + (s.blc.panel.nMax - 1)) / s.blc.panel.nMax
      ∧ answered t.mem p e.kind .ok c.clamped (leBytes 2 v.toNat ++ [BitVec.ofNat 8 c.points.length])
      ∧ t = { s with
          blc := { s.blc with
            curve := c.points, curveVersion := v, pendingCurve := none, nc := t.blc.nc, nb := t.blc.nb
            dTarget := t.blc.dTarget, appMode := m, liveDuty := live }
          mem := t.mem, inFlight := s.inFlight.filter (fun x => decide (x.slot ≠ c.slot)), summary := doneSummary s.summary p
          pins := derivePins t.toBlocks }
      ∧ keepsOutside [slotRange c.slot] s.mem t.mem

/-! ## Drop and shock detection, fall trace -/

/-- R100, R103, R105, R121, R124: in NORMAL, a sample not above the impact threshold that does not confirm a fall is counted, becomes the last sample and moves the watch deadline 10 ms on; the state stays NORMAL. Below the free-fall threshold it starts the free-fall run, storing its index and the orientation before it joined as the candidates, or adds to it; else it ends the run. It joins the orientation window, from whose 16 samples the orientation is formed, and its group of four in the history ring; the fourth sample completes the group's entry, which also goes to a capture that is FILLING. The 1,016th entry of a capture makes it READY, COMPLETE, and raises TRACE_READY. The averages stand at 0 until the window holds 16 samples by the model's choice (DESIGN CHOICE, log entry 36). (The runs of SETTLE and FALLING: ImpactsAndFallsAreRecorded; the sample that confirms: FallConfirmationPlacesTheHolds.) -/
def Obligations.QuietSampleIsTaken : Prop :=
  ∀ (x y z : Int) (s : State), Ready s → ChargerSettled s.toPower → s.mot.state = .normal → s.mot.health = .valid →
    axisInRange x = true → axisInRange y = true → axisInRange z = true →
    let a : Axes := ⟨x, y, z⟩
    let m2 := x.natAbs ^ 2 + y.natAbs ^ 2 + z.natAbs ^ 2
    m2 ≤ s.mot.config.tImp ^ 2 → 0 < s.mot.config.nFf → (m2 < s.mot.config.tFf ^ 2 → s.mot.freeFall.count + 1 < s.mot.config.nFf) →
    let idx := s.mot.index + 1
    let w := (a :: s.mot.window).take 16
    let mean (f : Axes → Int) : Int := if w.length = 16 then Int.tdiv (w.map f).sum 16 else 0
    let avg : Axes := ⟨mean Axes.x, mean Axes.y, mean Axes.z⟩
    let group : Option Nat := if idx.toNat % 4 = 0 then some m2 else s.mot.group.map (max · m2)
    let entry : Option RingEntry := if idx.toNat % 4 = 3 then group.map fun g => ⟨a, floorSqrt g / 16⟩ else none
    ∃ t, exec (.accelSample x y z) s = .next t
      ∧ t.mot = { s.mot with
          index := idx, watchDeadline := s.tmb.uptime + 10
          lastSample := some ⟨a, decide (x.natAbs = 16000 ∨ y.natAbs = 16000 ∨ z.natAbs = 16000), m2⟩
          freeFall := t.mot.freeFall, window := w, averages := avg
          orientation := if w.length = 16 then dominantAxis avg else .unknown
          ring := (match entry with
            | none => s.mot.ring
            | some e => (e :: s.mot.ring).take 256)
          group := if idx.toNat % 4 = 3 then none else group }
      ∧ (s.mot.config.tFf ^ 2 ≤ m2 → t.mot.freeFall.count = 0)
      ∧ (m2 < s.mot.config.tFf ^ 2 → t.mot.freeFall = fallRun s)
      ∧ (entry = none ∨ s.trc.state ≠ .filling → t = { s with mot := t.mot, pins := derivePins t.toBlocks })
      ∧ (∀ e, entry = some e → s.trc.state = .filling → s.trc.written < 1016 →
          readBytes t.mem (0x2040 + 8 * s.trc.written) 8 = traceEntryBytes e
          ∧ t.trc = (if s.trc.written + 1 < 1016 then { s.trc with written := s.trc.written + 1 }
              else { s.trc with state := .ready, written := 1016, endCause := .complete })
          ∧ t = { s with
              mot := t.mot, trc := t.trc, mem := t.mem
              summary := if s.trc.written + 1 < 1016 then s.summary else s.summary ||| 0x20, pins := derivePins t.toBlocks }
          ∧ readBytes t.mem 0x2000 64 = traceHeader t.trc
          ∧ keepsOutside [(0x2000, 0x2040), (0x2040 + 8 * s.trc.written, 0x2048 + 8 * s.trc.written)] s.mem t.mem)

/-- R105, R106, R117, R55, R51, R59, R60, R115, R119, R123, R126: in NORMAL or SETTLE, the sample that brings the free-fall run to N_ff confirms a fall: FALLING with the run's first sample as the fall start and FALL raised. With protect on the three MOTION holds are placed, LATCH_A, LATCH_B, STORAGE, each as PlacementFollowsTheTable says: an empty table gets them in its first positions, standing ones keep position and placed-at; a rise of the quiesce line starts the wait, or with the acknowledge line asserted ends it ACKED; with protect off nothing is placed. Where the set of entries or a reserve changes one HOLD pass runs, else none. With the trace on, a FREE trace is captured from the ring, a FILLING one shared (the sample's own group written first), a READY one left; with it off the trace is left. Stated with no release, no OPEN bay and no deferred DROP record; the ring holds at most 256 entries and a FILLING capture fewer than 1,016. The pages and the one pass follow the event's own changes by the model's choice (log entries 10 and 30). The averages of a window that is not full stand at 0 by the model's choice (DESIGN CHOICE, log entry 36). -/
def Obligations.FallConfirmationPlacesTheHolds : Prop :=
  ∀ (x y z : Int) (s : State), Ready s → ChargerSettled s.toPower →
    (s.mot.state = .normal ∨ ∃ d, s.mot.state = .settle d) → s.mot.health = .valid →
    axisInRange x = true → axisInRange y = true → axisInRange z = true →
    x.natAbs ^ 2 + y.natAbs ^ 2 + z.natAbs ^ 2 < s.mot.config.tFf ^ 2 → MotionInRange s.mot.config →
    s.mot.config.nFf ≤ s.mot.freeFall.count + 1 → s.mot.ring.length ≤ 256 → (s.trc.state = .filling → s.trc.written < 1016) →
    s.drops = [] → baysCalm s →
    let a : Axes := ⟨x, y, z⟩
    let c := s.mot.config
    let now := s.tmb.uptime
    let idx := s.mot.index + 1
    let f := traced s a
    let place (g : Target) (reserve : Nat) (es : List (Option HoldEntry)) := placeEntry ⟨.motion, g, reserve, now, none⟩ es
    let table := if c.protect
      then place .storage c.storageReserve (place .latchB c.latchReserve (place .latchA c.latchReserve s.hld.entries))
      else s.hld.entries
    let seen (es : List (Option HoldEntry)) := es.map fun o => o.map fun e => (e.holder, e.target, e.reserve)
    let rises := !s.hld.quiesce && ({ s.hld with entries := table } : HoldTable).quiesce
    let falling (status : TraceStatus) (serial : Option Word) : MotionRec :=
      motionIn s a (.falling ⟨s.mot.freeFall.start, s.feed.kind, s.mot.freeFall.orient, ⟨c.protect, c.protect, c.protect⟩,
        status, serial, 0, 0⟩)
    let area : List Range :=
      if s.trc.state = .filling then [(0x2000, 0x2040), (0x2040 + 8 * s.trc.written, 0x2048 + 8 * s.trc.written)]
      else if c.trace = true ∧ s.trc.state = .free then [(0x2000, 0x2840)] else []
    ∃ t, exec (.accelSample x y z) s = .next t
      ∧ t.hld = (if rises
          then { s.hld with
            entries := table, wait := if s.hld.ackLine then none else some (now + 50)
            outcome := if s.hld.ackLine then .acked else .pending }
          else { s.hld with entries := table })
      ∧ (c.protect = true → s.hld.entries = List.replicate 16 none →
          table = some ⟨.motion, .latchA, c.latchReserve, now, none⟩ :: some ⟨.motion, .latchB, c.latchReserve, now, none⟩
            :: some ⟨.motion, .storage, c.storageReserve, now, none⟩ :: List.replicate 13 none
          ∧ t.hld.rProt = 2 * c.latchReserve + c.storageReserve)
      ∧ (c.protect = true → HoldsDistinct s.hld → (∀ g, positionOf .motion g s.hld.entries ≠ none) →
          table = s.hld.entries.map fun o => o.map fun e =>
            if e.holder = .motion
            then { e with reserve := if e.target = .storage then c.storageReserve else c.latchReserve, expiry := none } else e)
      ∧ (c.protect = true → (s.hld.entries = List.replicate 16 none ∨ ∀ g, positionOf .motion g s.hld.entries ≠ none) →
          t.pins.quiesce = true ∧ t.pins.latchLockA = true ∧ t.pins.latchLockB = true)
      ∧ t.summary &&& 0x10 ≠ 0 ∧ t.feed.kind = s.feed.kind
      ∧ (c.trace = false → t.mot = falling .off none ∧ t.trc = f.trc)
      ∧ (c.trace = true → s.trc.state = .free →
          let serial := if s.trc.serial = 0xFFFFFFFF then 1 else s.trc.serial + 1
          let ring := (joined s a).1.ring
          t.mot = falling .captured (some serial)
          ∧ t.trc = ⟨.filling, serial, 256, idx - BitVec.ofNat 32 (if idx.toNat % 4 = 3 then 3 else idx.toNat % 4 + 4) - 1020,
              s.mot.freeFall.start, now, 0, .none, 0xFFFFFFFF⟩
          ∧ readBytes t.mem 0x2000 64 = traceHeader t.trc
          ∧ readBytes t.mem 0x2040 2048 = (List.replicate (256 - ring.length) noData ++ ring.reverse).flatMap traceEntryBytes)
      ∧ (c.trace = true → f.trc.state = .filling →
          t.mot = falling .shared (some f.trc.serial)
          ∧ t.trc = { f.trc with sharedFalls := if f.trc.sharedFalls < 255 then f.trc.sharedFalls + 1 else f.trc.sharedFalls }
          ∧ readBytes t.mem 0x2000 64 = traceHeader t.trc)
      ∧ (c.trace = true → f.trc.state = .ready → t.mot = falling .traceBusy none ∧ t.trc = f.trc)
      ∧ (seen table ≠ seen s.hld.entries →
          t.bud.causes = ⟨false, false, true, false, false⟩ ∧ t.bud.rProt = t.hld.rProt ∧ t.bayA = s.bayA ∧ t.bayB = s.bayB
          ∧ t.sfe = s.sfe ∧ t.timers = s.timers ∧ t.blc.liveDuty = s.blc.liveDuty ∧ PassEvent s t
          ∧ keepsOutside (area ++ passRanges) s.mem t.mem)
      ∧ (seen table = seen s.hld.entries →
          t = { s with
            hld := t.hld, mot := t.mot, trc := t.trc, mem := t.mem, summary := t.summary
            log := { t.log with effRead := s.log.effRead }, monitors := t.monitors
            gens := { s.gens with
              mirror := if c.protect then s.gens.mirror + 2 else s.gens.mirror, motion := s.gens.motion + 2
              monitor := t.gens.monitor }
            pins := derivePins t.toBlocks }
          ∧ keepsOutside (area ++ pageRange .mirror :: pageRange .motion :: recordRanges) s.mem t.mem)

/-- R107 to R116, R121, R124, R127: what samples make of a fall and of a shock. The impact of a fall gives its time and height and opens a DROP window; a fall caught for N_ff samples, or 2,400 samples long, ends with its FALL_NO_IMPACT record in SETTLE. A window keeps the largest of its 32 samples, the earlier of equals; its end stores the last impact and makes the DROP record, deferred while an acknowledgement wait runs, or the SHOCK record, and goes to SETTLE, or where the shock came from. A shock opens a window from NORMAL and from SETTLE. In FALLING a sample between the thresholds starts or adds to the caught run, one below ends it; in SETTLE a sample starts, adds to or ends the free-fall and the settle run, the one below T_ff storing its index and the orientation before it. SETTLE ends in NORMAL when its run is full, and the MOTION holds are lifted. A loss ends a window early. The peak is the largest integer whose square does not exceed the largest m². A sample joins window, ring and a filling capture as in NORMAL (QuietSampleIsTaken). Stated for settings in range, a FILLING capture below 1,016 entries; the holds' lift with calm bays and no deferred record. The model's choices: the SENSOR_FAULT record before that of the window (DESIGN CHOICE, log entry 9), the motion page once (DESIGN CHOICE, log entry 10), the runs cleared (DEDUCED, log entry 18). The averages of a window that is not full stand at 0 by the model's choice (DESIGN CHOICE, log entry 36). The trace serial of FALL_NO_IMPACT without a trace is 0 by the model's choice (DESIGN CHOICE, log entry 39). -/
def Obligations.ImpactsAndFallsAreRecorded : Prop :=
  (∀ n : Nat, n < 2 ^ 32 → floorSqrt n * floorSqrt n ≤ n ∧ n < (floorSqrt n + 1) * (floorSqrt n + 1))
  ∧ (∀ (x y z : Int) (s : State), Ready s → ChargerSettled s.toPower → s.mot.health = .valid → MotionInRange s.mot.config →
      axisInRange x = true → axisInRange y = true → axisInRange z = true → (s.trc.state = .filling → s.trc.written < 1016) →
      let a : Axes := ⟨x, y, z⟩
      let m2 := x.natAbs ^ 2 + y.natAbs ^ 2 + z.natAbs ^ 2
      let sat := decide (x.natAbs = 16000 ∨ y.natAbs = 16000 ∨ z.natAbs = 16000)
      let c := s.mot.config
      let idx := s.mot.index + 1
      let f := traced s a
      let first : ImpactWindow := ⟨idx, 1, m2, a, sat⟩
      let more (w : ImpactWindow) : ImpactWindow :=
        ⟨w.firstIndex, w.counted + 1, max w.maxM2 m2, if w.maxM2 < m2 then a else w.maxAxes, w.saturated || sat⟩
      let settling : MotionState := .settle (s.tmb.uptime + 5000)
      let silent (m : MotionRec) (page : Nat) (t : State) : Prop :=
        exec (.accelSample x y z) s = .next t
        ∧ t = { s with
            mot := m, trc := f.trc, mem := t.mem, summary := f.summary
            gens := { s.gens with motion := s.gens.motion + BitVec.ofNat 32 page }, pins := derivePins t.toBlocks }
        ∧ keepsOutside [traceRange, pageRange .motion] s.mem t.mem
      let recorded (m : MotionRec) (r : LogRecord) (t : State) : Prop :=
        exec (.accelSample x y z) s = .next t ∧ Logged s.toFront t.toFront r s.tmb
        ∧ t = { s with
            mot := m, trc := t.trc, mem := t.mem, summary := t.summary, log := { t.log with effRead := s.log.effRead }
            monitors := t.monitors, gens := { s.gens with motion := s.gens.motion + 2, monitor := t.gens.monitor }
            pins := derivePins t.toBlocks }
        ∧ keepsOutside (traceRange :: pageRange .motion :: recordRanges) s.mem t.mem
      let linked (e : Episode) : TraceRec :=
        if e.traceStatus = .captured ∧ s.log.full = false ∧ f.trc.state ≠ .free ∧ e.traceSerial = some f.trc.serial
        then { f.trc with linked := s.log.writeIndex } else f.trc
      (∀ e, s.mot.state = .falling e → c.tImp ^ 2 < m2 →
        let ms := (idx - e.fallStart).toNat * 5 / 8
        let h := 9807 * ms * ms / 2000000
        ∃ t, silent { motionIn s a (.impactDrop { e with fallMs := ms, height := h } first) with
          lastFallMs := ms, lastHeight := h } 2 t)
      ∧ (∀ e, s.mot.state = .falling e → m2 ≤ c.tImp ^ 2 →
        let ended (long : Bool) (ms : Nat) : Prop :=
          ∃ t, recorded { motionIn s a settling with lastFallMs := ms, lastHeight := 0 }
            (.fallNoImpact long ms e.traceStatus e.traceSerial) t ∧ t.trc = linked e
        (c.tFf ^ 2 ≤ m2 → 0 < s.mot.caught.count → s.mot.caught.count < 160 → c.nFf ≤ s.mot.caught.count + 1 →
          ended false ((s.mot.caught.first - e.fallStart).toNat * 5 / 8))
        ∧ (m2 < c.tFf ^ 2 ∨ s.mot.caught.count + 1 < c.nFf → 2400 ≤ (idx - e.fallStart).toNat → ended true 1500)
        ∧ (m2 < c.tFf ^ 2 ∨ s.mot.caught.count + 1 < c.nFf → (idx - e.fallStart).toNat < 2400 →
          let run : CaughtRun := if m2 < c.tFf ^ 2 then ⟨0, 0⟩ else if s.mot.caught.count = 0 then ⟨1, idx⟩
            else { s.mot.caught with count := s.mot.caught.count + 1 }
          ∃ t, silent { (joined s a).1 with caught := run } 0 t))
      ∧ (∀ e w, s.mot.state = .impactDrop e w →
        let i : LastImpact := ⟨floorSqrt (more w).maxM2, (more w).saturated, dominantAxis (more w).maxAxes⟩
        let d : DropData := ⟨e.fallMs, e.height, i.peak, i.saturated, i.axis, e.orientBefore, e.traceStatus, e.traceSerial,
          e.holdsPlaced, e.feedAtStart⟩
        (w.counted + 1 < 32 → ∃ t, silent { (joined s a).1 with state := .impactDrop e (more w) } 0 t)
        ∧ (32 ≤ w.counted + 1 → s.hld.wait = none →
          ∃ t, recorded { motionIn s a settling with lastImpact := i } (.drop d s.hld.outcome s.bayA.state s.bayB.state) t
            ∧ t.trc = linked e)
        ∧ (32 ≤ w.counted + 1 → s.hld.wait.isSome = true →
          ∃ t, exec (.accelSample x y z) s = .next t ∧ t.drops = s.drops ++ [d]
            ∧ t = { s with
                mot := { motionIn s a settling with lastImpact := i }, drops := t.drops, trc := f.trc, mem := t.mem
                summary := f.summary, gens := { s.gens with motion := s.gens.motion + 2 }, pins := derivePins t.toBlocks }
            ∧ keepsOutside [traceRange, pageRange .motion] s.mem t.mem))
      ∧ (∀ ret w, s.mot.state = .impactShock ret w →
        let i : LastImpact := ⟨floorSqrt (more w).maxM2, (more w).saturated, dominantAxis (more w).maxAxes⟩
        (w.counted + 1 < 32 → ∃ t, silent { (joined s a).1 with state := .impactShock ret (more w) } 0 t)
        ∧ (32 ≤ w.counted + 1 →
          ∃ t, recorded { motionIn s a (if ret = .normal then .normal else settling) with lastImpact := i }
            (.shock i.peak i.saturated i.axis ret) t ∧ t.trc = f.trc))
      ∧ (∀ ret, (s.mot.state = .normal ∧ ret = .normal ∨ (∃ d, s.mot.state = .settle d) ∧ ret = .settle) → c.tImp ^ 2 < m2 →
        ∃ t, silent (motionIn s a (.impactShock ret first)) 2 t)
      ∧ (∀ d, s.mot.state = .settle d → (m2 < c.tFf ^ 2 → s.mot.freeFall.count + 1 < c.nFf) → m2 ≤ c.tImp ^ 2 →
        let free : FreeFallRun := if m2 < c.tFf ^ 2 then fallRun s else ⟨0, 0, .unknown⟩
        let run := if c.bandLow ^ 2 ≤ m2 ∧ m2 ≤ c.bandHigh ^ 2 then min 3200 (s.mot.settleRun + 1) else 0
        (run < c.tSettle → ∃ t, silent { (joined s a).1 with freeFall := free, settleRun := run } 0 t)
        ∧ (c.tSettle ≤ run → (∀ e, some e ∈ s.hld.entries → e.holder ≠ .motion) → ∃ t, silent (motionIn s a .normal) 2 t)
        ∧ (c.tSettle ≤ run → (∃ e, some e ∈ s.hld.entries ∧ e.holder = .motion) → s.drops = [] → baysCalm s →
          ∃ t, exec (.accelSample x y z) s = .next t ∧ t.mot = motionIn s a .normal ∧ t.trc = f.trc
            ∧ t.hld.entries = s.hld.entries.map (fun o => o.filter fun e => decide (e.holder ≠ .motion))
            ∧ t.bud.causes = ⟨false, false, true, false, false⟩ ∧ t.bud.rProt = t.hld.rProt ∧ t.bayA = s.bayA ∧ t.bayB = s.bayB
            ∧ t.sfe = s.sfe ∧ t.timers = s.timers ∧ t.blc.liveDuty = s.blc.liveDuty
            ∧ PassEvent s t ∧ keepsOutside (traceRange :: passRanges) s.mem t.mem)))
  ∧ (∀ (w : ImpactWindow) (s : State), Ready s → ChargerSettled s.toPower → s.mot.health = .valid →
      s.mot.watchDeadline ≤ s.tmb.uptime → (∃ e, s.mot.state = .impactDrop e w) ∨ (∃ ret, s.mot.state = .impactShock ret w) →
      ∃ t, exec .sampleWatch s = .next t ∧ t.mot.state = .sensorLost ∧ t.mot.health = .lost
        ∧ t.mot.lastImpact = ⟨floorSqrt w.maxM2, w.saturated, dominantAxis w.maxAxes⟩
        ∧ t.mot.liftDeadline = some (s.tmb.uptime + 5000) ∧ Logged s.toFront t.toFront (.sensorFault .accel) s.tmb
        ∧ (monitorsOff s → 2 ≤ s.log.free → ∀ ret, s.mot.state = .impactShock ret w →
            readBytes t.mem (logEntryAt ((s.log.writeIndex + 1).toNat % 64)) 64
              = (LogRecord.shock (floorSqrt w.maxM2) w.saturated (dominantAxis w.maxAxes) ret).bytes (s.log.writeIndex + 1) s.tmb)
        ∧ (∀ e, s.mot.state = .impactDrop e w → s.hld.wait.isSome = true → t.drops = s.drops
            ++ [⟨e.fallMs, e.height, floorSqrt w.maxM2, w.saturated, dominantAxis w.maxAxes, e.orientBefore, e.traceStatus,
              e.traceSerial, e.holdsPlaced, e.feedAtStart⟩])
        ∧ t = { s with
            mot := t.mot, drops := t.drops, trc := t.trc, mem := t.mem, summary := t.summary
            log := { t.log with effRead := s.log.effRead }, monitors := t.monitors
            gens := { s.gens with motion := s.gens.motion + 2, monitor := t.gens.monitor }, pins := derivePins t.toBlocks }
        ∧ keepsOutside (traceRange :: pageRange .motion :: recordRanges) s.mem t.mem)

/-- R101, R102, R125: the watch deadline passing declares the accelerometer lost: SENSOR_LOST, one SENSOR_FAULT record, the orientation unknown, the ring and the runs empty, the lift deadline 5 s on; a capture that is FILLING ends SENSOR_LOST, its rest filled with no-data entries, READY, TRACE_READY raised. The first sample after it takes MOT to NORMAL. Stated from NORMAL (from an impact window: ImpactsAndFallsAreRecorded), and for the return with no MOTION hold standing. That the motion page is republished exactly once is the model's choice (DESIGN CHOICE, log entry 10). That all runs are cleared is DEDUCED (log entry 18). The averages of a window that is not full stand at 0 by the model's choice (DESIGN CHOICE, log entry 36). -/
def Obligations.SampleWatchDeclaresTheLoss : Prop :=
  (∀ s : State, Ready s → ChargerSettled s.toPower → s.mot.state = .normal → s.mot.health = .valid →
    s.mot.watchDeadline ≤ s.tmb.uptime →
    let filling : Prop := s.trc.state = .filling
    ∃ t, exec .sampleWatch s = .next t
      ∧ t.mot = { s.mot with
          state := .sensorLost, health := .lost, window := [], orientation := .unknown, averages := ⟨0, 0, 0⟩
          freeFall := ⟨0, 0, .unknown⟩, caught := ⟨0, 0⟩, settleRun := 0, ring := [], group := none
          liftDeadline := some (s.tmb.uptime + 5000) }
      ∧ Logged s.toFront t.toFront (.sensorFault .accel) s.tmb
      ∧ t = { s with
          mot := t.mot, trc := t.trc, mem := t.mem, summary := t.summary, log := { t.log with effRead := s.log.effRead }
          monitors := t.monitors, gens := { s.gens with monitor := t.gens.monitor, motion := s.gens.motion + 2 }
          pins := derivePins t.toBlocks }
      ∧ (¬ filling → t.trc = s.trc ∧ keepsOutside (pageRange .motion :: recordRanges) s.mem t.mem)
      ∧ (filling → s.trc.written ≤ 1016 →
          t.trc = { s.trc with state := .ready, written := 1016, endCause := .sensorLost } ∧ t.summary &&& 0x20 ≠ 0
          ∧ (∀ e, e < 1016 → readBytes t.mem (0x2040 + 8 * e) 8
              = if e < s.trc.written then readBytes s.mem (0x2040 + 8 * e) 8 else [0, 0, 0, 0, 0, 0, 0xFF, 0xFF])
          ∧ readBytes t.mem 0x2000 64 = traceHeader t.trc
          ∧ keepsOutside (traceRange :: pageRange .motion :: recordRanges) s.mem t.mem))
  ∧ (∀ (x y z : Int) (s : State), Ready s → ChargerSettled s.toPower → s.mot.health ≠ .valid →
      axisInRange x = true → axisInRange y = true → axisInRange z = true →
      (∀ e, some e ∈ s.hld.entries → e.holder ≠ .motion) →
      ∃ t, exec (.accelSample x y z) s = .next t ∧ t.mot.state = .normal ∧ t.mot.health = .valid
        ∧ t.mot.index = s.mot.index + 1 ∧ t.mot.window = [⟨x, y, z⟩] ∧ t.mot.liftDeadline = none
        ∧ t = { s with mot := t.mot, mem := t.mem, gens := { s.gens with motion := t.gens.motion }, pins := derivePins t.toBlocks }
        ∧ keepsOutside [pageRange .motion] s.mem t.mem)

/-! ## Condition monitors, incident log, timebase -/

/-- R131, R132, R133, R135: what one occurrence does to one monitor, wrap alerts apart. R139: at a pass boundary a monitor that is not frozen adopts its pending configuration, edge memory cleared, count and wrapped flag by the preload; a frozen one keeps it waiting. -/
def Obligations.MonitorTakesAnOccurrence : Prop :=
  (∀ (m : Monitor) (o : Occurrence),
      let qualifies : Prop := m.config.kind = o.kind ∧ (o.kind.qualified = true → o.bits &&& m.config.mask ≠ 0)
        ∧ (∀ v, o.value = some v → m.config.threshold ≤ v)
      let takes : Prop := m.config.kind = o.kind ∧ m.config.enable = true ∧ m.frozen = false
      let adds : Prop := qualifies ∧ (m.config.edge = true → m.edgeMemory = false)
      (¬ takes → m.offer o = m)
      ∧ (takes → ((m.offer o).edgeMemory = true ↔ qualifies))
      ∧ (takes → adds → (m.offer o).count = m.count + 1 ∧ ((m.offer o).wrapped = true ↔ m.wrapped = true ∨ m.count = 0xFFFFFFFF))
      ∧ (takes → ¬ adds → (m.offer o).count = m.count ∧ (m.offer o).wrapped = m.wrapped)
      ∧ (m.offer o).config = m.config ∧ (m.offer o).frozen = m.frozen ∧ (m.offer o).pending = m.pending)
  ∧ (∀ (m : Monitor),
      (∀ q, m.pending = some q → m.frozen = false →
        m.adopt = ⟨q.config, q.preload.getD m.count, m.wrapped && q.preload.isNone, m.frozen, false, none⟩)
      ∧ (m.pending = none ∨ m.frozen = true → m.adopt = m))

/-- R134, R135, R136, R142: an occurrence is offered to every monitor; each wrap with alert raises MONITOR_ALERT and makes a MONITOR_WRAP record, and all monitors of its freeze group are frozen; the monitor page is republished once, after the freezes, if a count wrapped. At a command: the ambient sensor is declared lost while monitor `i`, alone enabled, counts incidents at its last count; the SENSOR_FAULT record wraps it, the MONITOR_WRAP record follows in the next entry, its group is frozen, itself with it; in group NONE it runs on and counts the MONITOR_WRAP record's own incident, unless it counts edges. Stated with two free entries. That the occurrence of a MONITOR_WRAP record is taken after the freezes is the model's choice (DESIGN CHOICE, log entry 21). -/
def Obligations.WrapAlertsFreezeTheirGroup : Prop :=
  (∀ (f : Front) (o : Occurrence),
    let g := (f.takeOccurrence o).1
    let alerts (m : Monitor) : Prop := m.wraps o = true ∧ m.config.alert = true
    g.monitors.length = f.monitors.length
    ∧ (∀ (i : Nat) (m : Monitor), f.monitors[i]? = some m →
        ∃ n : Monitor, g.monitors[i]? = some n ∧ n = { m.offer o with frozen := n.frozen }
          ∧ (n.frozen = true ↔ m.frozen = true ∨ m.config.group ≠ .none
              ∧ ∃ x, x ∈ f.monitors ∧ alerts x ∧ x.config.group = m.config.group))
    ∧ ((∃ m, m ∈ f.monitors ∧ alerts m) → g.summary &&& 0x40 ≠ 0)
    ∧ ((∃ m, m ∈ f.monitors ∧ m.wraps o = true) → g.gens.monitor = f.gens.monitor + 2
        ∧ readBytes g.mem PageId.monitor.offset 256 = padTo 256 (leBytes 4 (f.gens.monitor + 2).toNat ++ monitorPage g.monitors))
    ∧ ((∀ m, m ∈ f.monitors → m.wraps o = false) → g = { f with monitors := g.monitors })
    ∧ g = { f with
        monitors := g.monitors, mem := g.mem, summary := g.summary, log := { g.log with effRead := f.log.effRead }
        gens := { f.gens with monitor := g.gens.monitor } }
    ∧ keepsOutside recordRanges f.mem g.mem)
  ∧ (∀ (i : Nat) (m : Monitor) (s : State), s.powered = true → s.blc.ambient ≠ .stale →
      s.blc.lastSampleAt.getD 0 + 500 ≤ s.tmb.uptime → s.monitors[i]? = some m →
      m.config.kind = .incident → m.config.threshold ≤ 10 → m.config.enable = true → m.config.alert = true → m.frozen = false →
      (m.config.edge = true → m.edgeMemory = false) → m.count = 0xFFFFFFFF →
      (∀ (j : Nat) (x : Monitor), s.monitors[j]? = some x → j ≠ i → x.config.enable = false) → 2 ≤ s.log.free →
      let g := m.config.group
      let seq := s.log.writeIndex
      let members : Byte := if g = .none then 0 else BitVec.ofNat 8 (packBits (s.monitors.map fun x => decide (x.config.group = g)))
      ∃ t, exec .ambientLost s = .next t
        ∧ readBytes t.mem (logEntryAt (seq.toNat % 64)) 64 = (LogRecord.sensorFault .ambient).bytes seq s.tmb
        ∧ readBytes t.mem (logEntryAt ((seq + 1).toNat % 64)) 64 = (LogRecord.monitorWrap i g members).bytes (seq + 1) s.tmb
        ∧ t.log = { s.log with writeIndex := seq + 2 } ∧ t.summary &&& 0x42 = 0x42 ∧ t.monitors.length = s.monitors.length
        ∧ (∀ (j : Nat) (x : Monitor), s.monitors[j]? = some x → t.monitors[j]? = some
            (if j = i then { m with
                count := if g = .none ∧ m.config.edge = false then 1 else 0, wrapped := true, edgeMemory := true
                frozen := decide (g ≠ .none) }
              else { x with frozen := x.frozen || decide (g ≠ .none ∧ x.config.group = g) }))
        ∧ t = { s with
            blc := { s.blc with ambient := .stale }, mem := t.mem, summary := t.summary, log := t.log, monitors := t.monitors
            gens := { s.gens with monitor := s.gens.monitor + 2 }, pins := derivePins t.toBlocks }
        ∧ keepsOutside recordRanges s.mem t.mem)

/-- R149, R150: a record made while there is room is written whole in the entry of its sequence, the write index counts on and INCIDENT is raised, and LOG_FULL with the last free entry; a record made while there is none is counted missed, saturating, and changes neither entries nor write index. That of the log control block only the write index and the missed count are rewritten is the model's choice (DESIGN CHOICE, log entry 20). -/
def Obligations.RecordIsWrittenOrMissed : Prop :=
  ∀ (f : Front) (r : LogRecord), LogAccounted f.log →
    let unread := (f.log.writeIndex - f.log.effRead).toNat
    let a := f.append r
    (unread < 64 →
      a.seq = some f.log.writeIndex ∧ a.occ = ⟨.incident, 0, some r.code⟩
      ∧ readBytes a.front.mem (logEntryAt (f.log.writeIndex.toNat % 64)) 64 = r.bytes f.log.writeIndex f.tmb
      ∧ a.front.log = { f.log with writeIndex := f.log.writeIndex + 1 } ∧ readBytes a.front.mem 0x08 4 = leBytes 4 (f.log.writeIndex + 1).toNat
      ∧ a.front.summary = f.summary ||| (if unread = 63 then 0x06 else 0x02)
      ∧ keepsOutside [indexRange, (logEntryAt (f.log.writeIndex.toNat % 64), logEntryAt (f.log.writeIndex.toNat % 64) + 64)]
          f.mem a.front.mem)
    ∧ (unread = 64 →
      a.seq = none ∧ a.occ = ⟨.logMissed, 0, none⟩ ∧ a.front.summary = f.summary
      ∧ a.front.log = { f.log with missed := if f.log.missed = 0xFFFFFFFF then f.log.missed else f.log.missed + 1 }
      ∧ readBytes a.front.mem 0x10 4 = leBytes 4 a.front.log.missed.toNat
      ∧ keepsOutside [indexRange, missedRange] f.mem a.front.mem)
    ∧ a.front = { f with mem := a.front.mem, log := a.front.log, summary := a.front.summary }

/-- R148, R151, R167: ATTENTION.LOG re-reads the host's read index: a step of up to 64 entries back from the write index is taken as read, one behind that as the oldest entry, one ahead as the write index; records missed meanwhile give a GAP record when there is room again. That the GAP record zeroes the missed count right after the write index is the model's choice (DESIGN CHOICE, log entry 21). -/
def Obligations.LogReReadFreesSpace : Prop :=
  ∀ s : State, Ready s →
    let read : Word := BitVec.ofNat 32 (readField s.mem 0x0C 4)
    let behind := (s.log.writeIndex - read).toNat
    let eff : Word := if behind ≤ 64 then read else if behind < 2 ^ 31 then s.log.writeIndex - 64 else s.log.writeIndex
    let room := (s.log.writeIndex - eff).toNat < 64
    ∃ t, exec .attentionLog s = .next t ∧ t.log.effRead = eff
      ∧ (room → s.log.missed ≠ 0 → Logged { s.toFront with log := { s.log with effRead := eff } } t.toFront (.gap s.log.missed) s.tmb
          ∧ (s.monitors = List.replicate 8 powerOnMonitor → t.log.missed = 0 ∧ t.log.writeIndex = s.log.writeIndex + 1))
      ∧ ((¬ room ∨ s.log.missed = 0) → t.log = { s.log with effRead := eff } ∧ t.mem = s.mem ∧ t.monitors = s.monitors)
      ∧ (¬ room → LogRec.full s.log = false → t.summary = s.summary ||| 0x04)
      ∧ t = { s with
          log := t.log, mem := t.mem, summary := t.summary, monitors := t.monitors
          gens := { s.gens with monitor := t.gens.monitor }, pins := derivePins t.toBlocks }
      ∧ keepsOutside recordRanges s.mem t.mem

/-- R143, R158, R120, R157: the energy, motion and time pages are republished whole at their periods, each with its generation 2 higher and its timer set on; nothing outside the page changes. R144: a calendar step due counts the seconds on by one, wrapping, and moves the next second 1,000 ms; nothing else changes. That the next occasion is counted from the due time is the model's choice (DESIGN CHOICE, log entry 2). -/
def Obligations.PagesAndCalendarKeepTheirPeriods : Prop :=
  (∀ s : State, s.powered = true → PinsDriven s →
      let page (g : PageId) (body : List Byte) (tm : Timers) (t : State) : Prop :=
        readBytes t.mem g.offset 256 = padTo 256 (leBytes 4 (s.gens.get g + 2).toNat ++ body)
        ∧ t = { s with mem := t.mem, gens := s.gens.set (s.gens.get g + 2) g, timers := tm }
        ∧ keepsOutside [pageRange g] s.mem t.mem
      (s.timers.energyPage ≤ s.tmb.uptime → ∃ t, exec .energyPagePeriodic s = .next t
        ∧ page .energy (energyPage s.toBlocks) { s.timers with energyPage := s.timers.energyPage + 250 } t)
      ∧ (s.timers.motionPage ≤ s.tmb.uptime → ∃ t, exec .motionPagePeriodic s = .next t
        ∧ page .motion (motionPage s.mot) { s.timers with motionPage := s.timers.motionPage + 50 } t)
      ∧ (s.timers.timePage ≤ s.tmb.uptime → ∃ t, exec .timePagePeriodic s = .next t
        ∧ page .time (timePage s.tmb) { s.timers with timePage := s.timers.timePage + 1000 } t
        ∧ readBytes t.mem 0x0708 8 = leBytes 8 s.tmb.uptime ∧ readBytes t.mem 0x0710 4 = leBytes 4 s.tmb.calendar.toNat))
  ∧ (∀ (n : Nat) (s : State), s.powered = true → PinsDriven s → s.tmb.nextSecond = some n → n ≤ s.tmb.uptime →
      exec .calendarStep s = .next { s with tmb := { s.tmb with calendar := s.tmb.calendar + 1, nextSecond := some (n + 1000) } })

/-! ## The register window and the exchange area -/

/-- R165, R169, R155: a write of SUMMARY clears the flags of the bytes written whose bit is 1 and leaves the others; a write of SUMMARY_ENABLE replaces the bytes written, the bits that Table 10-14 does not name staying 0; the interrupt line follows (R166). Writes to IDENT and to the offsets without a register are ignored. What the window reads: SUMMARY and SUMMARY_ENABLE with their unnamed bits 0, ATTENTION 0, CONTROL its EXCHANGE_ENABLE alone, IDENT family code 0x31A0, revision 1 and layout version 1, and 0 from 0x14 on; a read of any width and alignment gives the bytes it names. -/
def Obligations.RegisterWritesActOnTheirBytes : Prop :=
  (∀ (w : RegWrite) (s : State), s.powered = true →
      (∃ t, exec (.summaryWrite w) s = .next t ∧ t = { s with summary := t.summary, pins := derivePins t.toBlocks }
        ∧ (∀ i, i < 32 → t.summary.getLsbD i = (s.summary.getLsbD i && !(w.lanes.getLsbD (i / 8) && w.value.getLsbD i)))
        ∧ (t.pins.interrupt = true ↔ ∃ i, i < 32 ∧ t.summary.getLsbD i = true ∧ t.summaryEnable.getLsbD i = true))
      ∧ (∃ t, exec (.summaryEnableWrite w) s = .next t ∧ t = { s with summaryEnable := t.summaryEnable, pins := derivePins t.toBlocks }
        ∧ (∀ i, i < 32 → t.summaryEnable.getLsbD i
            = (decide (i < 8) && (if w.lanes.getLsbD (i / 8) then w.value.getLsbD i else s.summaryEnable.getLsbD i)))
        ∧ (t.pins.interrupt = true ↔ ∃ i, i < 32 ∧ t.summary.getLsbD i = true ∧ t.summaryEnable.getLsbD i = true)))
  ∧ (∀ (o : IgnoredOffset) (w : RegWrite) (s : State), exec (.registerWriteIgnored o w) s = .next s)
  ∧ (∀ f : Front,
      f.readWindow 0x00 4 = [f.summary.extractLsb' 0 8, 0, 0, 0] ∧ f.readWindow 0x04 4 = [f.summaryEnable.extractLsb' 0 8, 0, 0, 0]
      ∧ f.readWindow 0x08 4 = [0, 0, 0, 0] ∧ f.readWindow 0x0C 4 = [boolByte f.exchangeEnable, 0, 0, 0]
      ∧ f.readWindow 0x10 4 = [0x01, 0x01, 0xA0, 0x31] ∧ (∀ offset, 0x14 ≤ offset → f.windowByte offset = 0)
      ∧ (∀ offset n i, i < n → (f.readWindow offset n)[i]? = some (f.windowByte (offset + i))))

/-- R155: a host write of 1, 2 or 4 bytes inside the area changes the bytes it names, least significant first, and no state of the part. That one which reaches outside the 16,384 bytes of Table 10-1 stops with a fault and writes nothing is the model's choice (DEDUCED, log entry 23): the manual knows no such address. -/
def Obligations.HostWriteChangesItsBytesAlone : Prop :=
  (∀ (offset : Nat) (v : BitVec 8) (s : State), s.powered = true → PinsDriven s → offset + 1 ≤ 16384 →
    ∃ t, exec (.hostMemoryWrite offset (.one v)) s = .next t ∧ t = { s with mem := t.mem }
      ∧ readByte t.mem offset = v ∧ keepsOutside [(offset, offset + 1)] s.mem t.mem)
  ∧ (∀ (offset : Nat) (v : BitVec 16) (s : State), s.powered = true → PinsDriven s → offset + 2 ≤ 16384 →
    ∃ t, exec (.hostMemoryWrite offset (.two v)) s = .next t ∧ t = { s with mem := t.mem }
      ∧ readField t.mem offset 2 = v.toNat ∧ keepsOutside [(offset, offset + 2)] s.mem t.mem)
  ∧ (∀ (offset : Nat) (v : BitVec 32) (s : State), s.powered = true → PinsDriven s → offset + 4 ≤ 16384 →
    ∃ t, exec (.hostMemoryWrite offset (.four v)) s = .next t ∧ t = { s with mem := t.mem }
      ∧ readField t.mem offset 4 = v.toNat ∧ keepsOutside [(offset, offset + 4)] s.mem t.mem)
  ∧ (∀ (offset : Nat) (data : WriteData) (s : State), 16384 < offset + data.size →
    exec (.hostMemoryWrite offset data) s = .fault .outsideExchangeArea)

/-- R128, R167: ATTENTION.TRACE releases a READY trace, its serial kept and its header rewritten; in any other trace state it changes nothing. -/
def Obligations.TraceReleaseFreesAReadyTrace : Prop :=
  ∀ s : State, s.powered = true → PinsDriven s →
    (s.trc.state = .ready → ∃ t, exec .attentionTrace s = .next t
      ∧ t = { s with trc := { s.trc with state := .free }, mem := t.mem }
      ∧ readBytes t.mem 0x2000 64 = traceHeader { s.trc with state := .free }
      ∧ keepsOutside [(0x2000, 0x2040)] s.mem t.mem)
    ∧ (s.trc.state ≠ .ready → exec .attentionTrace s = .next s)

/-- R160, R161, R167, R168: with the log read up and nothing POSTED outside the in-flight list, a sweep by ATTENTION.REQUESTS, by EXCHANGE_ENABLE becoming set or by the sweep timer takes nothing and changes nothing else; while EXCHANGE_ENABLE is clear a sweep takes nothing, whatever is posted; clearing EXCHANGE_ENABLE takes no sweep. A sweep takes the POSTED slots as their bytes stand, in scan order from the slot after the last taken, wrapping after slot 31, and passes over those in flight: stated for one and for two waiting UNKNOWN_REQUESTs, which complete at once, the one later in that order the last taken. That the sweep timer's next occasion is counted from the due time is the model's choice (DESIGN CHOICE, log entry 2). Bits 1 to 7 of byte 2 of a DONE slot are 0 by the model's choice (DESIGN CHOICE, log entry 32). -/
def Obligations.SweepsTakeWhatIsPosted : Prop :=
  (∀ s : State, s.powered = true → PinsDriven s → LogAccounted s.log → s.log.missed = 0 →
      BitVec.ofNat 32 (readField s.mem 0x0C 4) = s.log.effRead →
      ((∀ i, s.posted i = true → s.flying i = true) ∨ s.exchangeEnable = false → exec .attentionRequests s = .next s)
      ∧ ((∀ i, s.posted i = true → s.flying i = true) → exec (.exchangeEnable true) s = .next { s with exchangeEnable := true })
      ∧ exec (.exchangeEnable false) s = .next { s with exchangeEnable := false }
      ∧ ((∀ i, s.posted i = true → s.flying i = true) ∨ s.exchangeEnable = false → s.timers.sweep ≤ s.tmb.uptime →
          exec .sweepTimer s = .next { s with timers := { s.timers with sweep := s.timers.sweep + 20 } }))
  ∧ (∀ (i : Fin 32) (s : State), Ready s → ChargerSettled s.toPower → LogAccounted s.log → s.log.missed = 0 →
      BitVec.ofNat 32 (readField s.mem 0x0C 4) = s.log.effRead → s.exchangeEnable = true →
      s.posted i = true → (∀ j, s.posted j = true → j = i ∨ s.flying j = true) → s.flying i = false →
      readByte s.mem (slotAt i + 1) = 0 →
      let p := copied s i
      ∃ t, exec .attentionRequests s = .next t ∧ answered t.mem p 0 .unknownRequest false [] ∧ t.lastSlot = i
        ∧ t = { s with mem := t.mem, lastSlot := i, summary := doneSummary s.summary p, pins := derivePins t.toBlocks }
        ∧ keepsOutside [slotRange i] s.mem t.mem)
  ∧ (∀ (i j : Fin 32) (s : State), Ready s → ChargerSettled s.toPower → LogAccounted s.log → s.log.missed = 0 →
      BitVec.ofNat 32 (readField s.mem 0x0C 4) = s.log.effRead → s.exchangeEnable = true →
      s.posted i = true → s.posted j = true → (∀ n, s.posted n = true → n = i ∨ n = j ∨ s.flying n = true) →
      s.flying i = false → s.flying j = false → readByte s.mem (slotAt i + 1) = 0 → readByte s.mem (slotAt j + 1) = 0 →
      (i.val + 31 - s.lastSlot.val) % 32 < (j.val + 31 - s.lastSlot.val) % 32 →
      let p := copied s i
      let q := copied s j
      ∃ t, exec .attentionRequests s = .next t ∧ answered t.mem p 0 .unknownRequest false []
        ∧ answered t.mem q 0 .unknownRequest false [] ∧ t.lastSlot = j
        ∧ t = { s with
            mem := t.mem, lastSlot := j, summary := doneSummary (doneSummary s.summary p) q, pins := derivePins t.toBlocks }
        ∧ keepsOutside [slotRange i, slotRange j] s.mem t.mem)

/-- R170, R176, R168, R158, R25, R20, R61: an exchange restart, by CONTROL or by a reset of the host link, clears the in-flight list, SUMMARY_ENABLE and EXCHANGE_ENABLE, drops a pending curve, cancels the releases that software started, removes every SOFTWARE hold and no other, counts on the restart count and leaves RESTART raised; uptime, calendar, the other bays, bay policy, motion and trace run on. A software release in HELD or UNLATCHING ends in its former state, one in TRANSFER gets cancel pending; its slot reads ABORTED. A cancelled release that changes brings one update of the energy page for the whole event (that it is one is DESIGN CHOICE, log entry 10). Without one and without a SOFTWARE hold no page but the monitor page is updated: cancel already pending changes nothing. The RESTART(EXCHANGE_RESTART) record with the new count is made, written or counted missed; where a SOFTWARE hold is lifted, its place is stated with no monitor enabled and no HOLDOVER_END record deferred. A button's release goes on: one HELD by a SOFTWARE hold alone, on a bay that is not the feed, moves to UNLATCHING (R16). Stated where a return to STANDBY leaves FHU nothing to do, no bay stands unlocked under a hold, and no DROP record is deferred. A slot that is POSTED and not in flight completes with its bytes as they stand (DEDUCED, log entry 19); whether flags beside RESTART survive is left free (log entry 3). -/
def Obligations.ExchangeRestartClearsTheHostSide : Prop :=
  ∀ (c : Instr) (s : State), Ready s → ((∃ e, c = .exchangeRestart e) ∨ c = .hostLinkReset) → s.drops = [] →
    HoldsBeatReleases s.toPower →
    (∀ b r, (s.bay b).state = .releaseWait r → r.origin ≠ .button → (∀ x, r.sub ≠ .transfer x) → settlesQuietly s r) →
    let kept (e : HoldEntry) : Bool := decide (e.holder ≠ .software)
    let stillHeld (b : Bay) : Prop := ∃ e, some e ∈ s.hld.entries ∧ e.target = latchOf b ∧ e.holder ≠ .software
    let soft : Prop := ∃ e, some e ∈ s.hld.entries ∧ e.holder = .software
    (∀ b r, (s.bay b).state = .releaseWait r → r.origin = .button → r.sub = .held →
      stillHeld b ∨ ¬ soft ∨ s.feed.kind ≠ feedOf b ∧ (s.bay b).latchOpen = false) →
    ∃ t, exec c s = .next t
      ∧ t.inFlight = [] ∧ t.summaryEnable = 0 ∧ t.exchangeEnable = false ∧ t.restartCount = s.restartCount + 1
      ∧ t.summary &&& 0x80 ≠ 0 ∧ t.pins.interrupt = false ∧ t.blc.pendingCurve = none
      ∧ readBytes t.mem 0x04 4 = leBytes 4 (s.restartCount + 1).toNat
      ∧ t.hld.entries = s.hld.entries.map (fun o => o.filter kept)
      ∧ (∀ i, s.flying i = false → s.posted i = true → readByte t.mem (slotAt i) = 3
          ∧ readBytes t.mem (slotAt i + 6) 2 = [12, 0])
      ∧ (∀ i, s.flying i = true → readByte t.mem (slotAt i) = 3 ∧ readBytes t.mem (slotAt i + 6) 2 = [12, 0])
      ∧ (∀ i, s.flying i = false → s.posted i = false → readBytes t.mem (slotAt i) 64 = readBytes s.mem (slotAt i) 64)
      ∧ (∀ b r, (s.bay b).state = .releaseWait r → r.origin ≠ .button → (∀ x, r.sub ≠ .transfer x) →
          t.bay b = formerBay s b r ∧ t.link b = formerLink s b r)
      ∧ (∀ b r x, (s.bay b).state = .releaseWait r → r.origin ≠ .button → r.sub = .transfer x →
          t.bay b = { s.bay b with state := .releaseWait { r with sub := .transfer true, slotOpen := false } } ∧ t.link b = s.link b)
      ∧ (∀ b r, (s.bay b).state = .releaseWait r → r.origin = .button → r.sub = .held → soft → ¬ stillHeld b →
          t.bay b = { s.bay b with state := .releaseWait { r with sub := .unlatching (s.tmb.uptime + 500) } })
      ∧ (∀ b, (∀ r, (s.bay b).state = .releaseWait r → r.origin = .button ∧ (r.sub = .held → soft → stillHeld b)) →
          t.bay b = s.bay b ∧ t.link b = s.link b)
      ∧ ((∃ b r, (s.bay b).state = .releaseWait r ∧ r.origin ≠ .button ∧ r.sub ≠ .transfer true) →
          t.gens.energy = s.gens.energy + 2)
      ∧ (¬ soft → (∀ b r, (s.bay b).state = .releaseWait r → r.origin ≠ .button → r.sub = .transfer true) →
          ChargerSettled s.toPower → t.gens = { s.gens with monitor := t.gens.monitor })
      ∧ (¬ soft ∨ monitorsOff s ∧ s.fhu.deferredEnd = none →
          Logged s.toFront t.toFront (.restart true (s.restartCount + 1)) s.tmb)
      ∧ t.tmb = s.tmb ∧ t.lastSlot = s.lastSlot ∧ t.bayPolicy = s.bayPolicy
      ∧ t.mot = s.mot ∧ t.trc = s.trc ∧ t.sfe = s.sfe ∧ t.timers = s.timers ∧ t.feed.kind = s.feed.kind
      ∧ t.blc.curve = s.blc.curve ∧ t.blc.liveDuty = s.blc.liveDuty ∧ t.log.effRead = s.log.effRead

/-! ## Requests -/

/-- Table 10-7, Table 10-8, R161: a request as the host posts it, in any slot, over any contents of the area, with any arguments, is the request that XIF copies at its take: kind, notify flag, tag and all arguments. That a request row is the host's posting of its slot is the model's choice (DEDUCED, log entry 6). -/
def Obligations.PostedRequestIsReadBackWhole : Prop :=
  ∀ (c : Instr) (p : Posting) (r : Request) (f : Front), requestOf c = some (p, r) → c.wellFormed = true →
    let g := f.post p r
    decodeRequest r.kind r.args = r ∧ g.requestIn p.slot = r ∧ g.posted p.slot = true
    ∧ g.copyOf p.slot = ⟨p.slot, r.kind, p.notify, p.tag⟩ ∧ keepsOutside [slotRange p.slot] f.mem g.mem

/-- R163, R168: a request posted while EXCHANGE_ENABLE is clear, or in a slot that is in flight, is not taken: its bytes stand in the slot and nothing else changes. That the row is the host's posting of its slot, byte 3 and the result left as they are, is the model's choice (DEDUCED, log entry 6). -/
def Obligations.RequestWaitsWhileNotTaken : Prop :=
  ∀ (c : Instr) (p : Posting) (r : Request) (s : State), requestOf c = some (p, r) → s.powered = true → PinsDriven s →
    s.exchangeEnable = false ∨ s.flying p.slot = true →
    ∃ t, exec c s = .next t ∧ t = { s with mem := t.mem } ∧ keepsOutside [slotRange p.slot] s.mem t.mem
      ∧ readBytes t.mem (slotAt p.slot) 3 = [1, r.kind, boolByte p.notify]
      ∧ readBytes t.mem (slotAt p.slot + 4) 2 = leBytes 2 p.tag.toNat ∧ readBytes t.mem (slotAt p.slot + 8) 40 = r.args

/-- R161, R162, R164: the requests that name no request, bay, target or monitor, and those that find nothing to act on, complete at their take with their code and change nothing but their slot: UNKNOWN_REQUEST; BAD_ARGUMENT; RELEASE_BAY by the bay's state (Table 1-7); CANCEL_RELEASE without a release; LIFT_HOLD without a SOFTWARE hold (R53). The model's choices: the row posts the request and takes that slot alone, with no re-read of the log and no scan (DEDUCED, log entry 6); RELEASE_BAY on OPEN gives the bay and 0xFF as its data, zeros elsewhere (DESIGN CHOICE, log entry 11); BAD_ARGUMENT for a target or an index leaves CLAMPED clear, whatever the other arguments (DESIGN CHOICE, log entry 37); bits 1 to 7 of byte 2 are written 0 (DESIGN CHOICE, log entry 32). -/
def Obligations.RequestsWithoutEffectAreAnswered : Prop :=
  ∀ (p : Posting) (s : State), Taken s p → ChargerSettled s.toPower →
    let only (c : Instr) (kind : Byte) (code : ResultCode) (data : List Byte) : Prop :=
      ∃ t, exec c s = .next t ∧ answered t.mem p kind code false data
        ∧ t = { s with mem := t.mem, lastSlot := p.slot, summary := doneSummary s.summary p, pins := derivePins t.toBlocks }
        ∧ keepsOutside [slotRange p.slot] s.mem t.mem
    (∀ k : Byte, k.toNat = 0 ∨ 15 ≤ k.toNat → only (.unknownRequest p k) k .unknownRequest [])
    ∧ (∀ x : Byte, 2 ≤ x.toNat → only (.releaseBay p x) 1 .badArgument [] ∧ only (.cancelRelease p x) 2 .badArgument [])
    ∧ (∀ b, (s.bay b).state = .empty → only (.releaseBay p (bayCode b)) 1 .nothingToRelease [])
    ∧ (∀ b u, (s.bay b).state = .opened u → only (.releaseBay p (bayCode b)) 1 .ok [bayCode b, 0xFF])
    ∧ (∀ b r, (s.bay b).state = .releaseWait r → only (.releaseBay p (bayCode b)) 1 .busy [])
    ∧ (∀ b, (∀ r, (s.bay b).state ≠ .releaseWait r) → only (.cancelRelease p (bayCode b)) 2 .nothingToRelease [])
    ∧ (∀ x r d, 3 ≤ x.toNat → only (.placeHold p x r d) 9 .badArgument [] ∧ only (.liftHold p x) 10 .badArgument [])
    ∧ (∀ g, positionOf .software g s.hld.entries = none → only (.liftHold p (targetCode g)) 10 .noSuchHold [])
    ∧ (∀ i k m e n a g f th pr, s.monitors.length ≤ i.toNat → only (.setMonitor p i k m e n a g f th pr) 11 .badArgument [])

/-- R14, R15, R16, R18, R20, R161, R162: RELEASE_BAY starts a release as a press does, its origin the slot, which stays TAKEN and in flight: HELD under a hold, UNLATCHING on a bay that is not the feed, TRANSFER on the feed bay with a source to take over; with the latch already open (log entry 24, DEDUCED) the bay is OPEN and the slot completes OK. CANCEL_RELEASE completes OK: it ends a HELD or UNLATCHING release in its former state, the slot of a software one CANCELLED, and sets cancel pending in TRANSFER. Stated where a return to STANDBY leaves FHU nothing to do. The model's choices: the row posts the request and takes that slot alone, with no re-read of the log and no scan (DEDUCED, log entry 6); the energy page once, its generation 2 higher (DESIGN CHOICE, log entry 10); the result data of a release (DESIGN CHOICE, log entry 11). Bits 1 to 7 of byte 2 of a DONE slot are 0 by the model's choice (DESIGN CHOICE, log entry 32). That a return to a FAULT former state writes no PACK_FAULT record is the model's choice (DESIGN CHOICE, log entry 34). -/
def Obligations.ReleaseRequestsStartAndCancel : Prop :=
  (∀ (p : Posting) (b : Bay) (s : State), Taken s p → notTarget s b →
      let after (list : List InFlight) (summary : Word) (t : State) : Prop :=
        exec (.releaseBay p (bayCode b)) s = .next t ∧ t.bay (otherBay b) = s.bay (otherBay b)
        ∧ t.link (otherBay b) = s.link (otherBay b) ∧ ChargerSettled t.toPower
        ∧ t = { s with
            bayA := t.bayA, bayB := t.bayB, linkA := t.linkA, linkB := t.linkB, assignment := t.assignment, mem := t.mem
            feed := t.feed, fhu := t.fhu, gens := { s.gens with energy := s.gens.energy + 2 }, lastSlot := p.slot
            inFlight := list, summary := summary, pins := derivePins t.toBlocks }
        ∧ keepsOutside [slotRange p.slot, pageRange .energy] s.mem t.mem
      let waiting (t : State) : Prop :=
        after (s.inFlight ++ [⟨p.slot, 1, p.notify, p.tag⟩]) s.summary t ∧ readByte t.mem (slotAt p.slot) = 2
      (∀ f, (s.bay b).state.former = some f → s.hld.demand b = true ∨ s.feed.kind ≠ feedOf b ∧ (s.bay b).latchOpen = false →
        ∃ t, waiting t ∧ t.bay b = startedBay s b f (.software p.slot) ∧ t.feed = s.feed ∧ t.fhu = s.fhu)
      ∧ (∀ f k, (s.bay b).state = .feeding f → s.feed.kind = feedOf b → s.feed.switchover = none → s.hld.demand b = false →
          sourceFor s b true = some k →
        ∃ t, waiting t
          ∧ t.bay b = { s.bay b with blinkEnd := none, state := .releaseWait (transferRelease s f (.software p.slot)) }
          ∧ t.feed = commanded s k .takeover (planAfter s b true) ∧ t.fhu = { s.fhu with switches := pathsTo b k })
      ∧ (∀ f, (s.bay b).state.former = some f → s.hld.demand b = false → s.feed.kind ≠ feedOf b → (s.bay b).latchOpen = true →
        ∃ t, after s.inFlight (doneSummary s.summary p) t ∧ t.feed = s.feed ∧ t.fhu = s.fhu
          ∧ t.bay b = { startedBay s b f .button with state := .opened (s.tmb.uptime + s.bayPolicy.openWindow * 1000) }
          ∧ answered t.mem p 1 .ok false [bayCode b, 0xFF]))
  ∧ (∀ (p : Posting) (b : Bay) (r : Release) (s : State), Taken s p → (s.bay b).state = .releaseWait r →
      r.origin ≠ .software p.slot →
      let after (o : Option InFlight) (t : State) : Prop :=
        exec (.cancelRelease p (bayCode b)) s = .next t ∧ answered t.mem p 2 .ok false []
        ∧ BayEventOver (slotRange p.slot :: endRanges o) b
            { s with lastSlot := p.slot, inFlight := listWithout s o, summary := doneSummary (summaryAfter s.summary o) p } t
      ((∀ c, r.sub ≠ .transfer c) → settlesQuietly s r →
        ∃ t, after (owedBy s r) t ∧ t.bay b = formerBay s b r ∧ t.link b = formerLink s b r
          ∧ ReleaseEnds b r .cancelled false s t)
      ∧ (r.sub = .transfer false →
        ∃ t, after none t ∧ t.bay b = { s.bay b with state := .releaseWait { r with sub := .transfer true } }
          ∧ t.link b = s.link b))

/-- R49, R164: SET_ENERGY_POLICY and SET_RESERVOIR take each field to the nearer end of its range, adopt them all at their take and complete OK, with CLAMPED when some field was out of range. SET_RESERVOIR is stated with no move of the feed pending, which it would have examined again (R34). That the row posts the request and takes that slot alone, with no re-read of the log and no scan, is the model's choice (DEDUCED, log entry 6). Bits 1 to 7 of byte 2 of a DONE slot are 0 by the model's choice (DESIGN CHOICE, log entry 32). -/
def Obligations.PowerSettingsAreAdoptedClamped : Prop :=
  (∀ (p : Posting) (pref lim : Byte) (sw : Half) (m : Byte) (rl ow : Half) (pa : Word) (s : State), Taken s p →
      let v := s.bayPolicy
      let inside := inRange 0 2 pref.toNat && inRange 50 100 lim.toNat && inRange 5 120 sw.toNat && inRange 0 50 m.toNat
        && inRange 5 60 rl.toNat && inRange 3 30 ow.toNat && inRange 0 150000 pa.toNat
      ∃ t, exec (.setEnergyPolicy p pref lim sw m rl ow pa) s = .next t
        ∧ t.bayPolicy = { v with
            chargeLimit := max 50 (min 100 lim.toNat), releaseLimit := max 5 (min 60 rl.toNat), openWindow := max 3 (min 30 ow.toNat) }
        ∧ t.feed = { s.feed with
            preference := if pref = 0 then .bayAFirst else if pref = 1 then .bayBFirst else .higherCharge
            tSwap := max 5 (min 120 sw.toNat), margin := min 50 m.toNat, pAdapter := min 150000 pa.toNat }
        ∧ ChargerSettled t.toPower ∧ answered t.mem p 3 .ok (!inside) []
        ∧ t = { s with
            feed := t.feed, bayPolicy := t.bayPolicy, assignment := t.assignment, mem := t.mem, lastSlot := p.slot
            gens := { s.gens with energy := t.gens.energy }, summary := doneSummary s.summary p, pins := derivePins t.toBlocks }
        ∧ keepsOutside [slotRange p.slot, pageRange .energy] s.mem t.mem)
  ∧ (∀ (p : Posting) (c v e l : Word) (s : State), Taken s p → ChargerSettled s.toPower → s.feed.pending = ⟨false, false⟩ →
      let inside := inRange 1000 60000 c.toNat && inRange 3000 9000 v.toNat && inRange 0 500000 e.toNat && inRange 5000 60000 l.toNat
      ∃ t, exec (.setReservoir p c v e l) s = .next t
        ∧ t.feed = { s.feed with
            resC := max 1000 (min 60000 c.toNat), vMin := max 3000 (min 9000 v.toNat), eShut := min 500000 e.toNat
            pResLimit := max 5000 (min 60000 l.toNat) }
        ∧ answered t.mem p 4 .ok (!inside) []
        ∧ t = { s with
            feed := t.feed, mem := t.mem, lastSlot := p.slot, gens := { s.gens with energy := t.gens.energy }
            summary := doneSummary s.summary p, pins := derivePins t.toBlocks }
        ∧ keepsOutside [slotRange p.slot, pageRange .energy] s.mem t.mem)

/-- R84, R86: LOAD_CURVE reads its points from the staging area, offset and count clamped. A point that fails a check, here the first of them, refuses the curve with its index and the check, and a pending curve stays; a curve that passes waits as the pending curve, its slot TAKEN, and one that was pending before is dropped, its slot SUPERSEDED. The model's choices: the row posts the request and takes that slot alone (DEDUCED, log entry 6); CLAMPED is carried by BAD_ARGUMENT and SUPERSEDED too (DEDUCED, log entry 28). Bits 1 to 7 of byte 2 of a DONE slot are 0 by the model's choice (DESIGN CHOICE, log entry 32). -/
def Obligations.LoadedCurveIsCheckedAndPends : Prop :=
  ∀ (p : Posting) (o n : Byte) (s : State), Taken s p → ChargerSettled s.toPower →
    let off := min 32 o.toNat
    let len := max 2 (min 16 n.toNat)
    let clamped := decide (off ≠ o.toNat ∨ len ≠ n.toNat)
    let point (i : Nat) : CurvePoint :=
      ⟨readField s.mem (0x80 + 8 * (off + i)) 4, readField s.mem (0x80 + 8 * (off + i) + 4) 2⟩
    let good (i : Nat) : Prop :=
      (point i).nits ≤ s.blc.panel.nMax ∧ (0 < i → (point (i - 1)).lux < (point i).lux ∧ (point (i - 1)).nits ≤ (point i).nits)
    let mine : InFlight := ⟨p.slot, 5, p.notify, p.tag⟩
    let next : PendingCurve := ⟨(List.range len).map point, p.slot, clamped⟩
    (∀ i, i < len → (∀ j, j < i → good j) → ¬ good i →
      ∃ t, exec (.loadCurve p o n) s = .next t
        ∧ answered t.mem p 5 .badArgument clamped
            [BitVec.ofNat 8 i, if 0 < i ∧ (point i).lux ≤ (point (i - 1)).lux then 0
              else if 0 < i ∧ (point i).nits < (point (i - 1)).nits then 1 else 2]
        ∧ t = { s with mem := t.mem, lastSlot := p.slot, summary := doneSummary s.summary p, pins := derivePins t.toBlocks }
        ∧ keepsOutside [slotRange p.slot] s.mem t.mem)
    ∧ ((∀ i, i < len → good i) → s.blc.pendingCurve = none →
      ∃ t, exec (.loadCurve p o n) s = .next t ∧ readByte t.mem (slotAt p.slot) = 2
        ∧ t = { s with
            blc := { s.blc with pendingCurve := some next }, mem := t.mem, lastSlot := p.slot, inFlight := s.inFlight ++ [mine]
            pins := derivePins t.toBlocks }
        ∧ keepsOutside [slotRange p.slot] s.mem t.mem)
    ∧ (∀ (c : PendingCurve) (e : InFlight), (∀ i, i < len → good i) → s.blc.pendingCurve = some c → s.entryOf c.slot = some e →
      ∃ t, exec (.loadCurve p o n) s = .next t ∧ readByte t.mem (slotAt p.slot) = 2
        ∧ answered t.mem (postingOf e) e.kind .superseded c.clamped []
        ∧ t = { s with
            blc := { s.blc with pendingCurve := some next }, mem := t.mem, lastSlot := p.slot
            inFlight := listWithout s (some e) ++ [mine], summary := summaryAfter s.summary (some e)
            pins := derivePins t.toBlocks }
        ∧ keepsOutside [slotRange p.slot, slotRange c.slot] s.mem t.mem)

/-- R89, R90, R87, R88, R164: SET_LIGHT_MODE adopts the mode with its bias or manual level, clamped, and completes OK with the mode and the value adopted; SET_PANEL clamps every field to its range, N_min to N_max as well, and completes OK with N_min and N_max as adopted. Each forms the target anew and brings a LIGHT pass, which uses it. That the row posts the request and takes that slot alone, with no re-read of the log and no scan, is the model's choice (DEDUCED, log entry 6). Bits 1 to 7 of byte 2 of a DONE slot are 0 by the model's choice (DESIGN CHOICE, log entry 32). -/
def Obligations.LightSettingsAreAdoptedAtTheirPass : Prop :=
  (∀ (p : Posting) (mode : Byte) (value : Half) (s : State), Taken s p →
      let auto := decide (mode.toNat = 0)
      let v : Int := if auto then max (-50) (min 50 value.toInt) else max 0 (min 3000 value.toInt)
      let raw : Nat := if auto then ((evalCurve s.blc.curve s.blc.filtered : Int) * (100 + v)).toNat / 100 else v.toNat
      let nb := max s.blc.panel.nMin (min s.blc.panel.nMax raw)
      ∃ t, exec (.setLightMode p mode value) s = .next t
        ∧ t.blc = { s.blc with
            mode := if auto then .auto else .manual, bias := if auto then v else s.blc.bias
            manualLevel := if auto then s.blc.manualLevel else v.toNat
            nc := evalCurve s.blc.curve s.blc.filtered, nb := nb
            dTarget := (nb * 1024 + (s.blc.panel.nMax - 1)) / s.blc.panel.nMax
            pendingDuty := t.bud.dCmd, ceiling := t.bud.ceiling }
        ∧ t.bud.causes = ⟨false, false, false, true, false⟩ ∧ t.bud.dTarget = t.blc.dTarget
        ∧ t.bud.passCount = s.bud.passCount + 1
        ∧ answered t.mem p 6 .ok (decide (1 < mode.toNat) || decide (v ≠ value.toInt)) ([if auto then 0 else 1, 0] ++ leSigned 2 v)
        ∧ t.lastSlot = p.slot ∧ t.inFlight = s.inFlight ∧ (p.notify = true → t.summary &&& 0x01 ≠ 0)
        ∧ t.bayA = s.bayA ∧ t.bayB = s.bayB ∧ t.hld = s.hld ∧ t.mot = s.mot ∧ t.trc = s.trc ∧ t.sfe = s.sfe ∧ t.tmb = s.tmb
        ∧ t.timers = s.timers ∧ t.feed.kind = s.feed.kind ∧ keepsOutside (slotRange p.slot :: passRanges) s.mem t.mem)
  ∧ (∀ (p : Posting) (nMin nMax pb df su sd ku kd : Half) (s : State), Taken s p →
      let hi := max 100 (min 3000 nMax.toNat)
      let lo := min (min 500 nMin.toNat) hi
      let inside := inRange 0 500 nMin.toNat && inRange 100 3000 nMax.toNat && decide (lo = nMin.toNat) && inRange 1000 30000 pb.toNat
        && inRange 0 256 df.toNat && inRange 1 128 su.toNat && inRange 1 128 sd.toNat && inRange 1 256 ku.toNat && inRange 1 256 kd.toNat
      let raw : Nat := if s.blc.mode = .auto
        then ((evalCurve s.blc.curve s.blc.filtered : Int) * (100 + s.blc.bias)).toNat / 100 else s.blc.manualLevel
      let nb := max lo (min hi raw)
      ∃ t, exec (.setPanel p nMin nMax pb df su sd ku kd) s = .next t
        ∧ t.blc.panel = ⟨lo, hi, max 1000 (min 30000 pb.toNat), min 256 df.toNat, max 1 (min 128 su.toNat), max 1 (min 128 sd.toNat),
            max 1 (min 256 ku.toNat), max 1 (min 256 kd.toNat)⟩
        ∧ t.blc = { s.blc with
            panel := t.blc.panel, nc := evalCurve s.blc.curve s.blc.filtered, nb := nb, dTarget := (nb * 1024 + (hi - 1)) / hi
            pendingDuty := t.bud.dCmd, ceiling := t.bud.ceiling }
        ∧ PanelInRange t.blc.panel ∧ t.bud.causes = ⟨false, false, false, true, false⟩ ∧ t.bud.dTarget = t.blc.dTarget
        ∧ answered t.mem p 7 .ok (!inside) (leBytes 2 lo ++ leBytes 2 hi)
        ∧ t.lastSlot = p.slot ∧ t.inFlight = s.inFlight ∧ (p.notify = true → t.summary &&& 0x01 ≠ 0)
        ∧ t.bayA = s.bayA ∧ t.bayB = s.bayB ∧ t.hld = s.hld ∧ t.mot = s.mot ∧ t.trc = s.trc ∧ t.sfe = s.sfe ∧ t.tmb = s.tmb
        ∧ t.timers = s.timers ∧ t.feed.kind = s.feed.kind ∧ keepsOutside (slotRange p.slot :: passRanges) s.mem t.mem)

/-- R104, R164: SET_MOTION clamps every field to its range, adopts all at its take and completes OK with the three thresholds as adopted; the motion state and its runs stand. That the row posts the request and takes that slot alone, with no re-read of the log and no scan, is the model's choice (DEDUCED, log entry 6). Bits 1 to 7 of byte 2 of a DONE slot are 0 by the model's choice (DESIGN CHOICE, log entry 32). -/
def Obligations.MotionSettingsAreAdoptedClamped : Prop :=
  ∀ (p : Posting) (ff nf ti bl bh ts lr sr : Half) (pr tr : Byte) (s : State), Taken s p → ChargerSettled s.toPower →
    let inside := inRange 100 800 ff.toNat && inRange 16 160 nf.toNat && inRange 1500 15000 ti.toNat && inRange 600 1000 bl.toNat
      && inRange 1000 1400 bh.toNat && inRange 160 3200 ts.toNat && inRange 0 10000 lr.toNat && inRange 0 10000 sr.toNat
      && inRange 0 1 pr.toNat && inRange 0 1 tr.toNat
    ∃ t, exec (.setMotion p ff nf ti bl bh ts lr sr pr tr) s = .next t
      ∧ t.mot = { s.mot with
          config := ⟨max 100 (min 800 ff.toNat), max 16 (min 160 nf.toNat), max 1500 (min 15000 ti.toNat),
            max 600 (min 1000 bl.toNat), max 1000 (min 1400 bh.toNat), max 160 (min 3200 ts.toNat), min 10000 lr.toNat,
            min 10000 sr.toNat, decide (pr ≠ 0), decide (tr ≠ 0)⟩ }
      ∧ answered t.mem p 8 .ok (!inside)
          (leBytes 2 t.mot.config.tFf ++ leBytes 2 t.mot.config.nFf ++ leBytes 2 t.mot.config.tImp)
      ∧ t = { s with
          mot := t.mot, mem := t.mem, lastSlot := p.slot, summary := doneSummary s.summary p, pins := derivePins t.toBlocks }
      ∧ keepsOutside [slotRange p.slot] s.mem t.mem

/-- R51, R52, R53, R57, R58, R16: PLACE_HOLD on a target without a SOFTWARE entry places one in the lowest free position with the clamped reserve and an expiry the clamped duration on: OK, NEW. On a standing one it renews reserve and expiry, placed-at and position kept: OK, REFRESHED; a HOLD pass follows where the reserve changed. With 12 SOFTWARE entries, or no free position, it completes TABLE_FULL and changes nothing. LIFT_HOLD removes the SOFTWARE entry on its target, and no entry of another holder. What a new hold over a latch does to its bay: OPEN is identified anew with a RELEASE_UNDONE_BY_HOLD record, UNLATCHING goes back to HELD, TRANSFER and HELD stay; the lift lets a HELD bay that is not the feed unlatch. Apart from that bay, stated with no bay in RELEASE_WAIT or OPEN; for STORAGE, with no DROP record deferred. The model's choices: the row posts the request and takes that slot alone (DEDUCED, log entry 6); the table's outputs before the bays (DESIGN CHOICE, log entry 9). Bits 1 to 7 of byte 2 of a DONE slot are 0 by the model's choice (DESIGN CHOICE, log entry 32). -/
def Obligations.HoldRequestsPlaceAndLift : Prop :=
  (∀ (p : Posting) (g : Target) (reserve duration : Half) (s : State), Taken s p →
      let r := min 10000 reserve.toNat
      let until_ := s.tmb.uptime + max 1 (min 600 duration.toNat) * 1000
      let clamped := !(inRange 0 10000 reserve.toNat && inRange 1 600 duration.toNat)
      let placed (n kind : Nat) (e : HoldEntry) (t : State) : Prop :=
        exec (.placeHold p (targetCode g) reserve duration) s = .next t
        ∧ t.hld.entries = s.hld.entries.set n (some e)
        ∧ answered t.mem p 9 .ok clamped ([BitVec.ofNat 8 n, BitVec.ofNat 8 kind, 0, 0] ++ leBytes 8 until_)
        ∧ (p.notify = true → t.summary &&& 0x01 ≠ 0)
      let passed (t : State) : Prop :=
        t.bud.causes = ⟨false, false, true, false, false⟩ ∧ t.bud.rProt = t.hld.rProt ∧ t.mot = s.mot ∧ t.trc = s.trc ∧ t.sfe = s.sfe
        ∧ t.blc.liveDuty = s.blc.liveDuty ∧ t.timers = s.timers ∧ PassEvent { s with lastSlot := p.slot } t
        ∧ keepsOutside (slotRange p.slot :: passRanges) s.mem t.mem
      let fresh : HoldEntry := ⟨.software, g, r, s.tmb.uptime, some until_⟩
      (∀ n, positionOf .software g s.hld.entries = none → softwareCount s.hld.entries < 12 → freePosition s.hld.entries = some n →
        (s.drops = [] → baysCalm s →
          ∃ t, placed n 0 fresh t ∧ t.hld.rProt = s.hld.rProt + r ∧ t.hld.targets g = true ∧ t.bayA = s.bayA ∧ t.bayB = s.bayB
            ∧ passed t)
        ∧ (∀ b, g = latchOf b → (∀ q, (s.bay (otherBay b)).state ≠ .releaseWait q) → (∀ u, (s.bay (otherBay b)).state ≠ .opened u) →
            s.hld.demand b = false →
          (∀ u, (s.bay b).state = .opened u →
            ∃ t, placed n 0 fresh t ∧ t.bay b = seatedBay s b ∧ t.link b = seatedLink s b
              ∧ t.bay (otherBay b) = s.bay (otherBay b) ∧ t.latchLock b = true
              ∧ Logged s.toFront t.toFront (.releaseUndoneByHold b) s.tmb ∧ passed t)
          ∧ (∀ q u, (s.bay b).state = .releaseWait q → q.sub = .unlatching u → s.tmb.uptime < q.limitAt →
            ∃ t, placed n 0 fresh t ∧ t.bay b = { s.bay b with state := .releaseWait { q with sub := .held } }
              ∧ t.bay (otherBay b) = s.bay (otherBay b) ∧ t.latchLock b = true ∧ passed t)
          ∧ (∀ q, (s.bay b).state = .releaseWait q → (∀ u, q.sub ≠ .unlatching u) →
            ∃ t, placed n 0 fresh t ∧ t.bayA = s.bayA ∧ t.bayB = s.bayB ∧ passed t)))
      ∧ (∀ n e, positionOf .software g s.hld.entries = some n → s.hld.entries[n]? = some (some e) → baysCalm s →
          ChargerSettled s.toPower →
        ∃ t, placed n 1 { fresh with placedAt := e.placedAt } t ∧ t.bayA = s.bayA ∧ t.bayB = s.bayB
          ∧ (e.reserve ≠ r → passed t)
          ∧ (e.reserve = r → t = { s with
                hld := { s.hld with entries := t.hld.entries }, mem := t.mem, gens := { s.gens with mirror := s.gens.mirror + 2 }, lastSlot := p.slot
                summary := doneSummary s.summary p, pins := derivePins t.toBlocks }
              ∧ keepsOutside [slotRange p.slot, pageRange .mirror] s.mem t.mem))
      ∧ (positionOf .software g s.hld.entries = none → 12 ≤ softwareCount s.hld.entries ∨ freePosition s.hld.entries = none →
          ChargerSettled s.toPower →
        ∃ t, exec (.placeHold p (targetCode g) reserve duration) s = .next t
          ∧ answered t.mem p 9 .tableFull clamped [BitVec.ofNat 8 (softwareCount s.hld.entries)]
          ∧ t = { s with mem := t.mem, lastSlot := p.slot, summary := doneSummary s.summary p, pins := derivePins t.toBlocks }
          ∧ keepsOutside [slotRange p.slot] s.mem t.mem))
  ∧ (∀ (p : Posting) (g : Target) (n : Nat) (e : HoldEntry) (s : State), Taken s p →
      positionOf .software g s.hld.entries = some n → s.hld.entries[n]? = some (some e) → s.drops = [] →
      let lifted (t : State) : Prop :=
        exec (.liftHold p (targetCode g)) s = .next t
        ∧ t.hld.entries = s.hld.entries.map (fun o => o.filter fun x => !(decide (x.holder = .software) && decide (x.target = g)))
        ∧ t.bud.causes = ⟨false, false, true, false, false⟩ ∧ t.bud.rProt = t.hld.rProt
        ∧ answered t.mem p 10 .ok false ([BitVec.ofNat 8 n, 0, 0, 0] ++ leBytes 8 e.placedAt)
        ∧ (p.notify = true → t.summary &&& 0x01 ≠ 0) ∧ t.mot = s.mot ∧ t.trc = s.trc ∧ t.sfe = s.sfe
        ∧ t.blc.liveDuty = s.blc.liveDuty ∧ t.timers = s.timers ∧ PassEvent { s with lastSlot := p.slot } t
        ∧ keepsOutside (slotRange p.slot :: passRanges) s.mem t.mem
      (baysCalm s → ∃ t, lifted t ∧ t.bayA = s.bayA ∧ t.bayB = s.bayB)
      ∧ (∀ b q, g = latchOf b → (s.bay b).state = .releaseWait q → q.sub = .held → s.feed.kind ≠ feedOf b →
          (s.bay b).latchOpen = false → (∀ q', (s.bay (otherBay b)).state ≠ .releaseWait q') →
          (∀ u, (s.bay (otherBay b)).state ≠ .opened u) →
          (∀ m x, s.hld.entries[m]? = some (some x) → x.target = g → m = n) →
        ∃ t, lifted t ∧ t.bay b = { s.bay b with state := .releaseWait { q with sub := .unlatching (s.tmb.uptime + 500) } }
          ∧ t.bay (otherBay b) = s.bay (otherBay b)))

/-- R138, R140, R141: SET_MONITOR makes a clamped pending configuration, CLEAR_MONITORS clears the monitors it names, THAW_MONITORS unfreezes those of the groups it names; each completes OK with its data, touches no other monitor and no adopted configuration, and the last two republish the monitor page where they name a monitor or change one. That the row posts the request and takes that slot alone, with no re-read of the log and no scan, is the model's choice (DEDUCED, log entry 6). Bits 1 to 7 of byte 2 of a DONE slot are 0 by the model's choice (DESIGN CHOICE, log entry 32). -/
def Obligations.MonitorRequestsActOnTheNamedMonitors : Prop :=
  ∀ (p : Posting) (s : State), Taken s p → ChargerSettled s.toPower → s.monitors.length = 8 →
    let done (c : Instr) (kind : Byte) (clamped : Bool) (data : List Byte) (new : Nat → Monitor → Monitor) (page : Bool) : Prop :=
      ∃ t, exec c s = .next t ∧ answered t.mem p kind .ok clamped data
        ∧ t.monitors.length = 8 ∧ (∀ (i : Nat) (m : Monitor), s.monitors[i]? = some m → t.monitors[i]? = some (new i m))
        ∧ t = { s with
            monitors := t.monitors, mem := t.mem, lastSlot := p.slot, summary := doneSummary s.summary p
            gens := { s.gens with monitor := if page then s.gens.monitor + 2 else s.gens.monitor }, pins := derivePins t.toBlocks }
        ∧ keepsOutside (slotRange p.slot :: if page then [pageRange .monitor] else []) s.mem t.mem
    (∀ (i k m e n a g f : Byte) (th pr : Word), i.toNat < 8 →
      let q : PendingConfig := ⟨⟨eventOfCode (min 13 k.toNat), m, th.toNat, decide (e ≠ 0), decide (n ≠ 0), decide (a ≠ 0),
        groupOfCode (min 2 g.toNat)⟩, if f = 0 then none else some pr⟩
      done (.setMonitor p i k m e n a g f th pr) 11
        (!(inRange 0 13 k.toNat && inRange 0 1 e.toNat && inRange 0 1 n.toNat && inRange 0 1 a.toNat && inRange 0 2 g.toNat
          && inRange 0 1 f.toNat))
        [i, eventCode q.config.kind, boolByte ((s.monitors[i.toNat]?.map fun x => x.pending.isSome).getD false)]
        (fun j x => if j = i.toNat then { x with pending := some q } else x) false)
    ∧ (∀ mask : Byte, done (.clearMonitors p mask) 12 false [mask]
        (fun j x => if mask.getLsbD j then { x with count := 0, wrapped := false, frozen := false, edgeMemory := false } else x)
        (decide (mask ≠ 0)))
    ∧ (∀ groups : Byte,
        let named (x : Monitor) : Bool :=
          decide (x.config.group = .g1) && groups.getLsbD 0 || decide (x.config.group = .g2) && groups.getLsbD 1
        let set : Byte := BitVec.ofNat 8 (packBits (s.monitors.map fun x => x.frozen && named x))
        done (.thawMonitors p groups) 13 false [set] (fun _ x => if named x then { x with frozen := false } else x)
          (s.monitors.any fun x => x.frozen && named x))

/-- R145, R154: SET_TIME sets the calendar, its phase and the last set uptime, republishes the time page, makes a TIME_SET record with the old and new calendar, and completes OK with the old seconds and validity. That the row posts the request and takes that slot alone, with no re-read of the log and no scan, is the model's choice (DEDUCED, log entry 6). Bits 1 to 7 of byte 2 of a DONE slot are 0 by the model's choice (DESIGN CHOICE, log entry 32). -/
def Obligations.SetTimeMovesTheCalendar : Prop :=
  ∀ (p : Posting) (v : Word) (s : State), Taken s p → ChargerSettled s.toPower →
    ∃ t, exec (.setTime p v) s = .next t
      ∧ t.tmb = { s.tmb with
          calendar := v, timeValid := true, nextSecond := some (s.tmb.uptime + 1000), lastSet := some s.tmb.uptime }
      ∧ Logged s.toFront t.toFront (.timeSet s.tmb.timeValid s.tmb.calendar v) t.tmb
      ∧ answered t.mem p 14 .ok false (leBytes 4 s.tmb.calendar.toNat ++ [boolByte s.tmb.timeValid])
      ∧ readBytes t.mem 0x0710 4 = leBytes 4 v.toNat
      ∧ t = { s with
          tmb := t.tmb, mem := t.mem, lastSlot := p.slot, summary := t.summary, log := { t.log with effRead := s.log.effRead }
          monitors := t.monitors, gens := { s.gens with time := s.gens.time + 2, monitor := t.gens.monitor }
          pins := derivePins t.toBlocks }
      ∧ keepsOutside (slotRange p.slot :: pageRange .time :: recordRanges) s.mem t.mem

/-! ## Invariants that every step keeps -/

/-- Every invariant below holds right after power-on reset. -/
def Obligations.ResetMeetsTheInvariants : Prop :=
  MemCanonical .reset ∧ PinsDriven .reset ∧ Settled .reset ∧ GensEven State.reset.gens ∧ LogAccounted State.reset.log
  ∧ DarkWhenOff State.reset.blc ∧ PanelInRange State.reset.blc.panel ∧ DutiesInRange State.reset.blc
  ∧ MotionInRange State.reset.mot.config ∧ PolicyInRange State.reset.feed State.reset.bayPolicy
  ∧ ChargerSettled State.reset.toPower ∧ HoldsBeatReleases State.reset.toPower ∧ HoldsDistinct State.reset.hld
  ∧ WaitRuns State.reset.hld ∧ OneFeed State.reset.toPower ∧ SlotsOwed State.reset.toBlocks

/-- R2, R27, R35, R36, R44: exactly the feed bay feeds, a switchover runs from a feed bay to a source that still stands, and holdover and lean go together; every step keeps this, from every state. -/
def Obligations.EveryStepKeepsOneFeed : Prop :=
  ∀ s t : State, OneFeed s.toPower → step s = .next t → OneFeed t.toPower

/-- R16, R58, R4: no step leaves a bay unlocked by its own demand while an entry targets its latch. -/
def Obligations.EveryStepKeepsHoldsOverReleases : Prop :=
  ∀ s t : State, HoldsBeatReleases s.toPower → step s = .next t → HoldsBeatReleases t.toPower

/-- R159, R161, R162: every slot in flight is owed by exactly one release or by the pending curve; every step keeps this in the states with one feed. -/
def Obligations.EveryStepKeepsSlotsOwed : Prop :=
  ∀ s t : State, OneFeed s.toPower → SlotsOwed s.toBlocks → step s = .next t → SlotsOwed t.toBlocks

/-- R148 to R151: at most 64 entries are unread, and a missed record is on count only while all 64 are; every step keeps this. -/
def Obligations.EveryStepKeepsTheLogAccounted : Prop :=
  ∀ s t : State, LogAccounted s.log → step s = .next t → LogAccounted t.log

/-- R50, R51, R60: the 16 positions hold each pair of holder and target at most once, and a wait runs only while the quiesce line is up; every step keeps this. -/
def Obligations.EveryStepKeepsTheHoldTable : Prop :=
  ∀ s t : State, HoldsDistinct s.hld → WaitRuns s.hld → step s = .next t → HoldsDistinct t.hld ∧ WaitRuns t.hld

/-- R96, R90, R72, R93: the panel configuration stays in its ranges, every duty at most 1,024, and the live duty 0 while the panel enable line is low. R104, R49, R23: the motion settings and the policy stay in their ranges. Every step keeps this. -/
def Obligations.EveryStepKeepsDutiesAndSettings : Prop :=
  (∀ s t : State, PanelInRange s.blc.panel → DutiesInRange s.blc → DarkWhenOff s.blc → step s = .next t →
      PanelInRange t.blc.panel ∧ DutiesInRange t.blc ∧ DarkWhenOff t.blc)
  ∧ (∀ s t : State, step s = .next t →
      (MotionInRange s.mot.config → MotionInRange t.mot.config)
      ∧ (PolicyInRange s.feed s.bayPolicy → PolicyInRange t.feed t.bayPolicy))

/-- R157, R64, R23, R24 and the model's own forms: the area stays canonical, every page whole, no pass trigger is left over, and the output signals are those of the records: latch locks (R4), indicators (R22), charger (R24), shutdown request (R48), quiesce (R59), interrupt (R166), backlight (R96); the charger assignment stays what R24 gives for the bays, the feed and the charge limit as they stand. Every step keeps this. -/
def Obligations.EveryStepLeavesTheOutsideInOrder : Prop :=
  (∀ s t : State, step s = .next t →
      (MemCanonical s → MemCanonical t) ∧ (GensEven s.gens → GensEven t.gens) ∧ (Settled s → Settled t)
      ∧ (PinsDriven s → PinsDriven t))
  ∧ (∀ s t : State, ChargerSettled s.toPower → step s = .next t → ChargerSettled t.toPower)
end

