-- ==== Sys2Proof/Laws/Memory.lean ====
section
/-! SUPPORT. What the exchange area's operations do: a read after a write, inside and outside the bytes written, and the canonical form that every write keeps. -/

namespace Sys2Proof.Machine

open Sys2Proof.Safety

/-! ## Reading -/

@[simp] theorem readByte_nil (a : Nat) : readByte [] a = restByte a := rfl

@[simp] theorem readBytes_zero (m : Mem) (a : Nat) : readBytes m a 0 = [] := rfl

theorem readBytes_succ (m : Mem) (a n : Nat) : readBytes m a (n + 1) = readByte m a :: readBytes m (a + 1) n := rfl

@[simp] theorem length_readBytes (m : Mem) (a n : Nat) : (readBytes m a n).length = n := by
  induction n generalizing a with
  | zero => rfl
  | succ n ih => simp [readBytes, ih]

theorem getElem?_readBytes (m : Mem) (a n i : Nat) (h : i < n) : (readBytes m a n)[i]? = some (readByte m (a + i)) := by
  induction n generalizing a i with
  | zero => omega
  | succ n ih =>
    cases i with
    | zero => simp [readBytes]
    | succ i =>
      rw [readBytes_succ, List.getElem?_cons_succ, ih (a + 1) i (by omega)]
      congr 2; omega

/-- Two memories that read alike over a range give the same bytes there. -/
theorem readBytes_congr {m m' : Mem} {a n : Nat} (h : ∀ i, i < n → readByte m' (a + i) = readByte m (a + i)) :
    readBytes m' a n = readBytes m a n := by
  induction n generalizing a with
  | zero => rfl
  | succ n ih =>
    have h0 : readByte m' a = readByte m a := h 0 (by omega)
    rw [readBytes_succ, readBytes_succ, h0, ih]
    intro i hi
    have := h (i + 1) (by omega)
    rwa [show a + (i + 1) = a + 1 + i by omega] at this

/-- The bytes over a split range. -/
theorem readBytes_add (m : Mem) (a j k : Nat) : readBytes m a (j + k) = readBytes m a j ++ readBytes m (a + j) k := by
  induction j generalizing a with
  | zero => simp
  | succ j ih =>
    rw [show j + 1 + k = (j + k) + 1 by omega, readBytes_succ, readBytes_succ, ih, List.cons_append,
      show a + 1 + j = a + (j + 1) by omega]

/-! ## One write -/

/-- The offsets that are listed. -/
abbrev keys (m : Mem) : List Nat := m.map Prod.fst

theorem readByte_of_not_listed {m : Mem} {x : Nat} (h : x ∉ keys m) : readByte m x = restByte x := by
  induction m with
  | nil => rfl
  | cons c m ih =>
    simp only [keys, List.map_cons, List.mem_cons, not_or] at h
    simp only [readByte]
    rw [if_neg (fun e => h.1 e.symm)]
    exact ih h.2

theorem readByte_append (m n : Mem) (x : Nat) :
    readByte (m ++ n) x = if x ∈ keys m then readByte m x else readByte n x := by
  induction m with
  | nil => simp
  | cons c m ih =>
    by_cases hx : c.1 = x
    · simp [readByte, hx]
    · have hx' : ¬ x = c.1 := fun e => hx e.symm
      simp [readByte, hx, hx', ih]

theorem readByte_filter (m : Mem) (p : Nat → Bool) (x : Nat) (h : p x = true) :
    readByte (m.filter fun c => p c.1) x = readByte m x := by
  induction m with
  | nil => rfl
  | cons c m ih =>
    by_cases hc : p c.1 = true
    · simp [hc, readByte, ih]
    · have : c.1 ≠ x := fun e => hc (e ▸ h)
      simp [hc, readByte, this, ih]

theorem mem_keys_filter {m : Mem} (p : Nat → Bool) {x : Nat} : x ∈ keys (m.filter fun c => p c.1) ↔ x ∈ keys m ∧ p x = true := by
  simp only [keys, List.mem_map, List.mem_filter]
  constructor
  · rintro ⟨c, ⟨h, k⟩, rfl⟩; exact ⟨⟨c, h, rfl⟩, k⟩
  · rintro ⟨⟨c, h, rfl⟩, k⟩; exact ⟨c, ⟨h, k⟩, rfl⟩

theorem keys_cellsOf {a x : Nat} {bs : List Byte} (h : x ∈ keys (cellsOf a bs)) : a ≤ x ∧ x < a + bs.length := by
  induction bs generalizing a with
  | nil => simp [cellsOf] at h
  | cons b bs ih =>
    rw [cellsOf] at h
    split at h
    · have := ih h; simp only [List.length_cons]; omega
    · simp only [keys, List.map_cons, List.mem_cons] at h
      rcases h with rfl | h
      · simp
      · have := ih h; simp only [List.length_cons]; omega

/-- The cells of the bytes written read as the bytes. -/
theorem readByte_cellsOf (a i : Nat) (bs : List Byte) (b : Byte) (h : bs[i]? = some b) (ha : a + i < Config.areaSize) :
    readByte (cellsOf a bs) (a + i) = b := by
  induction bs generalizing a i with
  | nil => simp at h
  | cons c bs ih =>
    rw [cellsOf]
    cases i with
    | zero =>
      simp only [List.getElem?_cons_zero, Option.some.injEq] at h
      subst h
      split
      · rename_i hc
        rcases hc with hc | hc
        · rw [readByte_of_not_listed]
          · exact hc.symm
          · intro hx; have := keys_cellsOf hx; omega
        · omega
      · simp [readByte]
    | succ i =>
      have h' : bs[i]? = some b := by simpa using h
      have := ih (a + 1) i h' (by omega)
      rw [show a + (i + 1) = a + 1 + i by omega]
      split
      · exact this
      · simp only [readByte]
        rw [if_neg (by omega)]
        exact this

/-- A byte outside the bytes written reads as before. -/
theorem readByte_writeBytes_outside (m : Mem) (a : Nat) (bs : List Byte) (x : Nat) (h : x < a ∨ a + bs.length ≤ x) :
    readByte (writeBytes m a bs) x = readByte m x := by
  have hc : x ∉ keys (cellsOf a bs) := fun k => by have := keys_cellsOf k; omega
  rw [writeBytes, readByte_append, readByte_append, if_neg hc]
  rcases h with h | h
  · rw [readByte_filter m (fun k => decide (k < a)) x (by simpa using h)]
    split
    · rfl
    · rename_i hn
      have hm : x ∉ keys m := fun k => hn ((mem_keys_filter fun k => decide (k < a)).mpr ⟨k, by simpa using h⟩)
      rw [readByte_of_not_listed hm, readByte_of_not_listed]
      intro k; exact hm ((mem_keys_filter fun k => decide (a + bs.length ≤ k)).mp k).1
  · rw [if_neg]
    · exact readByte_filter m (fun k => decide (a + bs.length ≤ k)) x (by simpa using h)
    · intro k
      have := ((mem_keys_filter fun k => decide (k < a)).mp k).2
      simp at this; omega

/-- A byte written inside the area reads as written. -/
theorem readByte_writeBytes_inside (m : Mem) (a i : Nat) (bs : List Byte) (b : Byte) (h : bs[i]? = some b)
    (ha : a + i < Config.areaSize) : readByte (writeBytes m a bs) (a + i) = b := by
  have hi : i < bs.length := by
    by_contra hn
    rw [List.getElem?_eq_none (by omega)] at h; cases h
  rw [writeBytes, readByte_append, if_neg, readByte_append]
  · split
    · exact readByte_cellsOf a i bs b h ha
    · rename_i hn
      have hr := readByte_cellsOf a i bs b h ha
      rw [readByte_of_not_listed hn] at hr
      rw [readByte_of_not_listed, hr]
      intro k
      have := ((mem_keys_filter fun k => decide (a + bs.length ≤ k)).mp k).2
      simp at this; omega
  · intro k
    have := ((mem_keys_filter fun k => decide (k < a)).mp k).2
    simp at this

/-- The bytes written inside the area are read back whole. -/
theorem readBytes_writeBytes_self (m : Mem) (a : Nat) (bs : List Byte) (h : a + bs.length ≤ Config.areaSize) :
    readBytes (writeBytes m a bs) a bs.length = bs := by
  apply List.ext_getElem?
  intro i
  by_cases hi : i < bs.length
  · rw [getElem?_readBytes _ _ _ _ hi, readByte_writeBytes_inside m a i bs bs[i] (by simp) (by omega)]
    simp
  · rw [List.getElem?_eq_none (by simpa using Nat.le_of_not_lt hi), List.getElem?_eq_none (by omega)]

/-- Bytes disjoint from those written are read as before. -/
theorem readBytes_writeBytes_disjoint (m : Mem) (a : Nat) (bs : List Byte) (x n : Nat) (h : x + n ≤ a ∨ a + bs.length ≤ x) :
    readBytes (writeBytes m a bs) x n = readBytes m x n :=
  readBytes_congr fun i hi => readByte_writeBytes_outside m a bs (x + i) (by omega)

theorem readField_writeBytes_disjoint (m : Mem) (a : Nat) (bs : List Byte) (x n : Nat) (h : x + n ≤ a ∨ a + bs.length ≤ x) :
    readField (writeBytes m a bs) x n = readField m x n := by
  rw [readField, readField, readBytes_writeBytes_disjoint m a bs x n h]

/-! ## Little-endian fields -/

@[simp] theorem length_leBytes (n v : Nat) : (leBytes n v).length = n := by
  induction n generalizing v with
  | zero => rfl
  | succ n ih => simp [leBytes, ih]

/-- A number is read back from its bytes, up to their width. -/
theorem ofLe_leBytes (n v : Nat) : ofLe (leBytes n v) = v % 256 ^ n := by
  induction n generalizing v with
  | zero => simp [leBytes, ofLe, Nat.mod_one]
  | succ n ih =>
    have h : 256 ^ (n + 1) = 256 * 256 ^ n := by rw [Nat.pow_succ, Nat.mul_comm]
    rw [leBytes, ofLe, ih, BitVec.toNat_ofNat, h, Nat.mod_mul]

@[simp] theorem length_padTo (n : Nat) (bs : List Byte) : (padTo n bs).length = n := by
  simp [padTo, zeros]; omega

/-! ## The canonical form -/

theorem wfFrom_mono {lo lo' : Nat} {m : Mem} (h : wfFrom lo m = true) (hl : lo' ≤ lo) : wfFrom lo' m = true := by
  cases m with
  | nil => rfl
  | cons c m =>
    simp only [wfFrom, Bool.and_eq_true, decide_eq_true_eq] at h ⊢
    exact ⟨⟨⟨by omega, h.1.1.2⟩, h.1.2⟩, h.2⟩

theorem wfFrom_append {lo hi : Nat} {m n : Mem} (hm : wfFrom lo m = true) (hk : ∀ x ∈ keys m, x < hi) (hn : wfFrom hi n = true)
    (hl : lo ≤ hi) : wfFrom lo (m ++ n) = true := by
  induction m generalizing lo with
  | nil => exact wfFrom_mono hn hl
  | cons c m ih =>
    simp only [List.cons_append, wfFrom, Bool.and_eq_true, decide_eq_true_eq] at hm ⊢
    refine ⟨hm.1, ih hm.2 (fun x hx => hk x (by simp only [keys, List.map_cons, List.mem_cons]; exact .inr hx)) ?_⟩
    exact hk c.1 (by simp [keys])

theorem wfFrom_filter {lo : Nat} {m : Mem} (p : Nat → Bool) (h : wfFrom lo m = true) :
    wfFrom lo (m.filter fun c => p c.1) = true := by
  induction m generalizing lo with
  | nil => rfl
  | cons c m ih =>
    simp only [wfFrom, Bool.and_eq_true, decide_eq_true_eq] at h
    rw [List.filter_cons]
    split
    · simp only [wfFrom, Bool.and_eq_true, decide_eq_true_eq]
      exact ⟨h.1, ih h.2⟩
    · exact wfFrom_mono (ih h.2) (by omega)

theorem wfFrom_filter_ge {lo : Nat} {m : Mem} (k : Nat) (h : wfFrom lo m = true) :
    wfFrom k (m.filter fun c => decide (k ≤ c.1)) = true := by
  induction m generalizing lo with
  | nil => rfl
  | cons c m ih =>
    simp only [wfFrom, Bool.and_eq_true, decide_eq_true_eq] at h
    rw [List.filter_cons]
    split
    · rename_i hk
      simp only [decide_eq_true_eq] at hk
      simp only [wfFrom, Bool.and_eq_true, decide_eq_true_eq]
      refine ⟨⟨⟨hk, h.1.1.2⟩, h.1.2⟩, wfFrom_filter (fun x => decide (k ≤ x)) h.2⟩
    · exact ih h.2

theorem wfFrom_cellsOf (a : Nat) (bs : List Byte) : wfFrom a (cellsOf a bs) = true := by
  induction bs generalizing a with
  | nil => rfl
  | cons b bs ih =>
    rw [cellsOf]
    split
    · exact wfFrom_mono (ih (a + 1)) (by omega)
    · rename_i h
      simp only [not_or] at h
      simp only [wfFrom, Bool.and_eq_true, decide_eq_true_eq]
      exact ⟨⟨⟨Nat.le_refl a, by omega⟩, h.1⟩, ih (a + 1)⟩

/-- Every write keeps the canonical form. -/
theorem wf_writeBytes {m : Mem} (a : Nat) (bs : List Byte) (h : Memory.wf m = true) : Memory.wf (writeBytes m a bs) = true := by
  unfold Memory.wf at *
  rw [writeBytes]
  refine wfFrom_append (hi := a) (wfFrom_filter (fun k => decide (k < a)) h) ?_ ?_ (by omega)
  · intro x hx; simpa using ((mem_keys_filter fun k => decide (k < a)).mp hx).2
  · refine wfFrom_append (hi := a + bs.length) (wfFrom_cellsOf a bs) ?_ (wfFrom_filter_ge _ h) (by omega)
    intro x hx; exact (keys_cellsOf hx).2

/-- Two canonical memories that read alike everywhere are the same list. -/
theorem wf_ext {m n : Mem} {lo : Nat} (hm : wfFrom lo m = true) (hn : wfFrom lo n = true)
    (h : ∀ x, lo ≤ x → readByte m x = readByte n x) : m = n := by
  have hlow : ∀ {k : Nat} {l : Mem}, wfFrom k l = true → ∀ x ∈ keys l, k ≤ x := by
    intro k l
    induction l generalizing k with
    | nil => intro _ x hx; simp [keys] at hx
    | cons c l ih =>
      intro hw x hx
      simp only [wfFrom, Bool.and_eq_true, decide_eq_true_eq] at hw
      simp only [keys, List.map_cons, List.mem_cons] at hx
      rcases hx with rfl | hx
      · exact hw.1.1.1
      · have := ih hw.2 x hx; omega
  have hrest : ∀ {k : Nat} {l : Mem}, wfFrom k l = true → ∀ x, x < k → readByte l x = restByte x := by
    intro k l hw x hx
    exact readByte_of_not_listed fun hk => by have := hlow hw x hk; omega
  induction m generalizing n lo with
  | nil =>
    cases n with
    | nil => rfl
    | cons c n =>
      simp only [wfFrom, Bool.and_eq_true, decide_eq_true_eq] at hn
      have := h c.1 hn.1.1.1
      simp [readByte] at this
      exact absurd this.symm hn.1.2
  | cons c m ih =>
    simp only [wfFrom, Bool.and_eq_true, decide_eq_true_eq] at hm
    cases n with
    | nil =>
      have := h c.1 hm.1.1.1
      simp [readByte] at this
      exact absurd this hm.1.2
    | cons d n =>
      simp only [wfFrom, Bool.and_eq_true, decide_eq_true_eq] at hn
      have hk : c.1 = d.1 := by
        by_contra hne
        rcases Nat.lt_or_gt_of_ne hne with hlt | hgt
        · have := h c.1 hm.1.1.1
          simp only [readByte, if_true, if_neg (fun e => hne e.symm : ¬ d.1 = c.1)] at this
          rw [hrest hn.2 c.1 (by omega)] at this
          exact hm.1.2 this
        · have := h d.1 hn.1.1.1
          simp only [readByte, if_true, if_neg hne] at this
          rw [hrest hm.2 d.1 (by omega)] at this
          exact hn.1.2 this.symm
      have hv : c.2 = d.2 := by
        have := h c.1 hm.1.1.1
        simpa [readByte, hk] using this
      have hcd : c = d := Prod.ext hk hv
      subst hcd
      congr 1
      refine ih hm.2 hn.2 fun x hx => ?_
      have := h x (by omega)
      simp only [readByte, if_neg (by omega : ¬ c.1 = x)] at this
      exact this

/-! ## Frames -/

theorem keepsOutside_refl (rs : List Range) (m : Mem) : keepsOutside rs m m := fun _ _ => rfl

theorem keepsOutside_trans {rs : List Range} {m n o : Mem} (h : keepsOutside rs m n) (k : keepsOutside rs n o) :
    keepsOutside rs m o := fun a ha => (k a ha).trans (h a ha)

/-- A frame by fewer ranges is one by more. -/
theorem keepsOutside_mono {rs ss : List Range} {m n : Mem} (h : keepsOutside rs m n) (hs : ∀ r ∈ rs, r ∈ ss) :
    keepsOutside ss m n := fun a ha => h a fun r hr => ha r (hs r hr)

/-- A write inside one of the ranges. -/
theorem keepsOutside_writeBytes {rs : List Range} (m : Mem) (a : Nat) (bs : List Byte) (r : Range) (hr : r ∈ rs) (h1 : r.1 ≤ a)
    (h2 : a + bs.length ≤ r.2) : keepsOutside rs m (writeBytes m a bs) := by
  intro x hx
  have := hx r hr
  simp only [Range.holds, not_and, not_lt] at this
  refine readByte_writeBytes_outside m a bs x ?_
  by_cases h : x < a
  · exact .inl h
  · exact .inr (by have := this (by omega); omega)

/-- A whole range outside the frame's reads as before. -/
theorem readBytes_of_keepsOutside {rs : List Range} {m n : Mem} (h : keepsOutside rs m n) (a k : Nat)
    (hd : ∀ r ∈ rs, a + k ≤ r.1 ∨ r.2 ≤ a) : readBytes n a k = readBytes m a k := by
  refine readBytes_congr fun i hi => h _ fun r hr hc => ?_
  have := hd r hr
  simp only [Range.holds] at hc
  omega

end Sys2Proof.Machine
end

