-- ==== Sys2Proof/Laws/State.lean ====
section
/-! SUPPORT. One lemma per field for each update of the records: an update writes its own fields and no other. -/

namespace Sys2Proof.Machine

/-! ### `Front.raise` -/

@[simp] theorem Front.raise_summary (f : Front) (b : SummaryFlag) : (f.raise b).summary = f.summary ||| flagBit b := rfl
@[simp] theorem Front.raise_mem (f : Front) (b : SummaryFlag) : (f.raise b).mem = f.mem := rfl
@[simp] theorem Front.raise_summaryEnable (f : Front) (b : SummaryFlag) : (f.raise b).summaryEnable = f.summaryEnable := rfl
@[simp] theorem Front.raise_exchangeEnable (f : Front) (b : SummaryFlag) : (f.raise b).exchangeEnable = f.exchangeEnable := rfl
@[simp] theorem Front.raise_lastSlot (f : Front) (b : SummaryFlag) : (f.raise b).lastSlot = f.lastSlot := rfl
@[simp] theorem Front.raise_inFlight (f : Front) (b : SummaryFlag) : (f.raise b).inFlight = f.inFlight := rfl
@[simp] theorem Front.raise_restartCount (f : Front) (b : SummaryFlag) : (f.raise b).restartCount = f.restartCount := rfl
@[simp] theorem Front.raise_gens (f : Front) (b : SummaryFlag) : (f.raise b).gens = f.gens := rfl
@[simp] theorem Front.raise_log (f : Front) (b : SummaryFlag) : (f.raise b).log = f.log := rfl
@[simp] theorem Front.raise_monitors (f : Front) (b : SummaryFlag) : (f.raise b).monitors = f.monitors := rfl
@[simp] theorem Front.raise_tmb (f : Front) (b : SummaryFlag) : (f.raise b).tmb = f.tmb := rfl
@[simp] theorem Front.raise_trc (f : Front) (b : SummaryFlag) : (f.raise b).trc = f.trc := rfl

/-! ### `Front.write` -/

@[simp] theorem Front.write_mem (f : Front) (a : Nat) (bs : List Byte) : (f.write a bs).mem = writeBytes f.mem a bs := rfl
@[simp] theorem Front.write_summary (f : Front) (a : Nat) (bs : List Byte) : (f.write a bs).summary = f.summary := rfl
@[simp] theorem Front.write_summaryEnable (f : Front) (a : Nat) (bs : List Byte) : (f.write a bs).summaryEnable = f.summaryEnable := rfl
@[simp] theorem Front.write_exchangeEnable (f : Front) (a : Nat) (bs : List Byte) : (f.write a bs).exchangeEnable = f.exchangeEnable := rfl
@[simp] theorem Front.write_lastSlot (f : Front) (a : Nat) (bs : List Byte) : (f.write a bs).lastSlot = f.lastSlot := rfl
@[simp] theorem Front.write_inFlight (f : Front) (a : Nat) (bs : List Byte) : (f.write a bs).inFlight = f.inFlight := rfl
@[simp] theorem Front.write_restartCount (f : Front) (a : Nat) (bs : List Byte) : (f.write a bs).restartCount = f.restartCount := rfl
@[simp] theorem Front.write_gens (f : Front) (a : Nat) (bs : List Byte) : (f.write a bs).gens = f.gens := rfl
@[simp] theorem Front.write_log (f : Front) (a : Nat) (bs : List Byte) : (f.write a bs).log = f.log := rfl
@[simp] theorem Front.write_monitors (f : Front) (a : Nat) (bs : List Byte) : (f.write a bs).monitors = f.monitors := rfl
@[simp] theorem Front.write_tmb (f : Front) (a : Nat) (bs : List Byte) : (f.write a bs).tmb = f.tmb := rfl
@[simp] theorem Front.write_trc (f : Front) (a : Nat) (bs : List Byte) : (f.write a bs).trc = f.trc := rfl

/-! ### `Front.publish` -/

@[simp] theorem Front.publish_mem (f : Front) (g : PageId) (body : List Byte) : (f.publish g body).mem = writeBytes f.mem g.offset (padTo 256 (leBytes 4 (f.gens.get g + 2).toNat ++ body)) := rfl
@[simp] theorem Front.publish_gens (f : Front) (g : PageId) (body : List Byte) : (f.publish g body).gens = f.gens.set (f.gens.get g + 2) g := rfl
@[simp] theorem Front.publish_summary (f : Front) (g : PageId) (body : List Byte) : (f.publish g body).summary = f.summary := rfl
@[simp] theorem Front.publish_summaryEnable (f : Front) (g : PageId) (body : List Byte) : (f.publish g body).summaryEnable = f.summaryEnable := rfl
@[simp] theorem Front.publish_exchangeEnable (f : Front) (g : PageId) (body : List Byte) : (f.publish g body).exchangeEnable = f.exchangeEnable := rfl
@[simp] theorem Front.publish_lastSlot (f : Front) (g : PageId) (body : List Byte) : (f.publish g body).lastSlot = f.lastSlot := rfl
@[simp] theorem Front.publish_inFlight (f : Front) (g : PageId) (body : List Byte) : (f.publish g body).inFlight = f.inFlight := rfl
@[simp] theorem Front.publish_restartCount (f : Front) (g : PageId) (body : List Byte) : (f.publish g body).restartCount = f.restartCount := rfl
@[simp] theorem Front.publish_log (f : Front) (g : PageId) (body : List Byte) : (f.publish g body).log = f.log := rfl
@[simp] theorem Front.publish_monitors (f : Front) (g : PageId) (body : List Byte) : (f.publish g body).monitors = f.monitors := rfl
@[simp] theorem Front.publish_tmb (f : Front) (g : PageId) (body : List Byte) : (f.publish g body).tmb = f.tmb := rfl
@[simp] theorem Front.publish_trc (f : Front) (g : PageId) (body : List Byte) : (f.publish g body).trc = f.trc := rfl

/-! ### `Front.putLogBlock` -/

@[simp] theorem Front.putLogBlock_summary (f : Front) : f.putLogBlock.summary = f.summary := rfl
@[simp] theorem Front.putLogBlock_summaryEnable (f : Front) : f.putLogBlock.summaryEnable = f.summaryEnable := rfl
@[simp] theorem Front.putLogBlock_exchangeEnable (f : Front) : f.putLogBlock.exchangeEnable = f.exchangeEnable := rfl
@[simp] theorem Front.putLogBlock_lastSlot (f : Front) : f.putLogBlock.lastSlot = f.lastSlot := rfl
@[simp] theorem Front.putLogBlock_inFlight (f : Front) : f.putLogBlock.inFlight = f.inFlight := rfl
@[simp] theorem Front.putLogBlock_restartCount (f : Front) : f.putLogBlock.restartCount = f.restartCount := rfl
@[simp] theorem Front.putLogBlock_gens (f : Front) : f.putLogBlock.gens = f.gens := rfl
@[simp] theorem Front.putLogBlock_log (f : Front) : f.putLogBlock.log = f.log := rfl
@[simp] theorem Front.putLogBlock_monitors (f : Front) : f.putLogBlock.monitors = f.monitors := rfl
@[simp] theorem Front.putLogBlock_tmb (f : Front) : f.putLogBlock.tmb = f.tmb := rfl
@[simp] theorem Front.putLogBlock_trc (f : Front) : f.putLogBlock.trc = f.trc := rfl

/-! ### `Front.advanceIndex` -/

@[simp] theorem Front.advanceIndex_log (f : Front) : f.advanceIndex.log = { f.log with writeIndex := f.log.writeIndex + 1 } := rfl
@[simp] theorem Front.advanceIndex_mem (f : Front) : f.advanceIndex.mem = writeBytes f.mem 0x08 (leBytes 4 (f.log.writeIndex + 1).toNat) := rfl
@[simp] theorem Front.advanceIndex_summary (f : Front) : f.advanceIndex.summary = f.summary := rfl
@[simp] theorem Front.advanceIndex_summaryEnable (f : Front) : f.advanceIndex.summaryEnable = f.summaryEnable := rfl
@[simp] theorem Front.advanceIndex_exchangeEnable (f : Front) : f.advanceIndex.exchangeEnable = f.exchangeEnable := rfl
@[simp] theorem Front.advanceIndex_lastSlot (f : Front) : f.advanceIndex.lastSlot = f.lastSlot := rfl
@[simp] theorem Front.advanceIndex_inFlight (f : Front) : f.advanceIndex.inFlight = f.inFlight := rfl
@[simp] theorem Front.advanceIndex_restartCount (f : Front) : f.advanceIndex.restartCount = f.restartCount := rfl
@[simp] theorem Front.advanceIndex_gens (f : Front) : f.advanceIndex.gens = f.gens := rfl
@[simp] theorem Front.advanceIndex_monitors (f : Front) : f.advanceIndex.monitors = f.monitors := rfl
@[simp] theorem Front.advanceIndex_tmb (f : Front) : f.advanceIndex.tmb = f.tmb := rfl
@[simp] theorem Front.advanceIndex_trc (f : Front) : f.advanceIndex.trc = f.trc := rfl

/-! ### `Front.putTrace` -/

@[simp] theorem Front.putTrace_trc (f : Front) (t : TraceRec) : (f.putTrace t).trc = t := rfl
@[simp] theorem Front.putTrace_mem (f : Front) (t : TraceRec) : (f.putTrace t).mem = writeBytes f.mem 0x2000 (traceHeader t) := rfl
@[simp] theorem Front.putTrace_summary (f : Front) (t : TraceRec) : (f.putTrace t).summary = f.summary := rfl
@[simp] theorem Front.putTrace_summaryEnable (f : Front) (t : TraceRec) : (f.putTrace t).summaryEnable = f.summaryEnable := rfl
@[simp] theorem Front.putTrace_exchangeEnable (f : Front) (t : TraceRec) : (f.putTrace t).exchangeEnable = f.exchangeEnable := rfl
@[simp] theorem Front.putTrace_lastSlot (f : Front) (t : TraceRec) : (f.putTrace t).lastSlot = f.lastSlot := rfl
@[simp] theorem Front.putTrace_inFlight (f : Front) (t : TraceRec) : (f.putTrace t).inFlight = f.inFlight := rfl
@[simp] theorem Front.putTrace_restartCount (f : Front) (t : TraceRec) : (f.putTrace t).restartCount = f.restartCount := rfl
@[simp] theorem Front.putTrace_gens (f : Front) (t : TraceRec) : (f.putTrace t).gens = f.gens := rfl
@[simp] theorem Front.putTrace_log (f : Front) (t : TraceRec) : (f.putTrace t).log = f.log := rfl
@[simp] theorem Front.putTrace_monitors (f : Front) (t : TraceRec) : (f.putTrace t).monitors = f.monitors := rfl
@[simp] theorem Front.putTrace_tmb (f : Front) (t : TraceRec) : (f.putTrace t).tmb = f.tmb := rfl

/-! ### `Front.adoptMonitors` -/

@[simp] theorem Front.adoptMonitors_monitors (f : Front) : f.adoptMonitors.monitors = f.monitors.map Monitor.adopt := rfl
@[simp] theorem Front.adoptMonitors_mem (f : Front) : f.adoptMonitors.mem = f.mem := rfl
@[simp] theorem Front.adoptMonitors_summary (f : Front) : f.adoptMonitors.summary = f.summary := rfl
@[simp] theorem Front.adoptMonitors_summaryEnable (f : Front) : f.adoptMonitors.summaryEnable = f.summaryEnable := rfl
@[simp] theorem Front.adoptMonitors_exchangeEnable (f : Front) : f.adoptMonitors.exchangeEnable = f.exchangeEnable := rfl
@[simp] theorem Front.adoptMonitors_lastSlot (f : Front) : f.adoptMonitors.lastSlot = f.lastSlot := rfl
@[simp] theorem Front.adoptMonitors_inFlight (f : Front) : f.adoptMonitors.inFlight = f.inFlight := rfl
@[simp] theorem Front.adoptMonitors_restartCount (f : Front) : f.adoptMonitors.restartCount = f.restartCount := rfl
@[simp] theorem Front.adoptMonitors_gens (f : Front) : f.adoptMonitors.gens = f.gens := rfl
@[simp] theorem Front.adoptMonitors_log (f : Front) : f.adoptMonitors.log = f.log := rfl
@[simp] theorem Front.adoptMonitors_tmb (f : Front) : f.adoptMonitors.tmb = f.tmb := rfl
@[simp] theorem Front.adoptMonitors_trc (f : Front) : f.adoptMonitors.trc = f.trc := rfl

/-! ### `Power.setBay` -/

@[simp] theorem Power.setBay_toFront (p : Power) (b : Bay) (r : BayRec) : (p.setBay b r).toFront = p.toFront := by cases b <;> rfl
@[simp] theorem Power.setBay_bayPolicy (p : Power) (b : Bay) (r : BayRec) : (p.setBay b r).bayPolicy = p.bayPolicy := by cases b <;> rfl
@[simp] theorem Power.setBay_assignment (p : Power) (b : Bay) (r : BayRec) : (p.setBay b r).assignment = p.assignment := by cases b <;> rfl
@[simp] theorem Power.setBay_feed (p : Power) (b : Bay) (r : BayRec) : (p.setBay b r).feed = p.feed := by cases b <;> rfl
@[simp] theorem Power.setBay_fhu (p : Power) (b : Bay) (r : BayRec) : (p.setBay b r).fhu = p.fhu := by cases b <;> rfl
@[simp] theorem Power.setBay_hld (p : Power) (b : Bay) (r : BayRec) : (p.setBay b r).hld = p.hld := by cases b <;> rfl
@[simp] theorem Power.setBay_drops (p : Power) (b : Bay) (r : BayRec) : (p.setBay b r).drops = p.drops := by cases b <;> rfl
@[simp] theorem Power.setBay_due (p : Power) (b : Bay) (r : BayRec) : (p.setBay b r).due = p.due := by cases b <;> rfl
@[simp] theorem Power.setBay_linkA (p : Power) (b : Bay) (r : BayRec) : (p.setBay b r).linkA = p.linkA := by cases b <;> rfl
@[simp] theorem Power.setBay_linkB (p : Power) (b : Bay) (r : BayRec) : (p.setBay b r).linkB = p.linkB := by cases b <;> rfl
@[simp] theorem Power.setBay_bay (p : Power) (b : Bay) (r : BayRec) : (p.setBay b r).bay b = r := by cases b <;> rfl
@[simp] theorem Power.setBay_other (p : Power) (b : Bay) (r : BayRec) : (p.setBay b r).bay (otherBay b) = p.bay (otherBay b) := by cases b <;> rfl
@[simp] theorem Power.setBay_link (p : Power) (b c : Bay) (r : BayRec) : (p.setBay b r).link c = p.link c := by cases b <;> cases c <;> rfl

/-! ### `Power.setLink` -/

@[simp] theorem Power.setLink_toFront (p : Power) (b : Bay) (n : Link) : (p.setLink b n).toFront = p.toFront := by cases b <;> rfl
@[simp] theorem Power.setLink_bayPolicy (p : Power) (b : Bay) (n : Link) : (p.setLink b n).bayPolicy = p.bayPolicy := by cases b <;> rfl
@[simp] theorem Power.setLink_assignment (p : Power) (b : Bay) (n : Link) : (p.setLink b n).assignment = p.assignment := by cases b <;> rfl
@[simp] theorem Power.setLink_feed (p : Power) (b : Bay) (n : Link) : (p.setLink b n).feed = p.feed := by cases b <;> rfl
@[simp] theorem Power.setLink_fhu (p : Power) (b : Bay) (n : Link) : (p.setLink b n).fhu = p.fhu := by cases b <;> rfl
@[simp] theorem Power.setLink_hld (p : Power) (b : Bay) (n : Link) : (p.setLink b n).hld = p.hld := by cases b <;> rfl
@[simp] theorem Power.setLink_drops (p : Power) (b : Bay) (n : Link) : (p.setLink b n).drops = p.drops := by cases b <;> rfl
@[simp] theorem Power.setLink_due (p : Power) (b : Bay) (n : Link) : (p.setLink b n).due = p.due := by cases b <;> rfl
@[simp] theorem Power.setLink_bayA (p : Power) (b : Bay) (n : Link) : (p.setLink b n).bayA = p.bayA := by cases b <;> rfl
@[simp] theorem Power.setLink_bayB (p : Power) (b : Bay) (n : Link) : (p.setLink b n).bayB = p.bayB := by cases b <;> rfl
@[simp] theorem Power.setLink_link (p : Power) (b : Bay) (n : Link) : (p.setLink b n).link b = n := by cases b <;> rfl
@[simp] theorem Power.setLink_other (p : Power) (b : Bay) (n : Link) : (p.setLink b n).link (otherBay b) = p.link (otherBay b) := by cases b <;> rfl
@[simp] theorem Power.setLink_bay (p : Power) (b c : Bay) (n : Link) : (p.setLink b n).bay c = p.bay c := by cases b <;> cases c <;> rfl

/-! ### `Power.makeRecord` -/

@[simp] theorem Power.makeRecord_toFront (p : Power) (r : LogRecord) : (p.makeRecord r).toFront = p.toFront.makeRecord r := rfl
@[simp] theorem Power.makeRecord_bayA (p : Power) (r : LogRecord) : (p.makeRecord r).bayA = p.bayA := rfl
@[simp] theorem Power.makeRecord_bayB (p : Power) (r : LogRecord) : (p.makeRecord r).bayB = p.bayB := rfl
@[simp] theorem Power.makeRecord_linkA (p : Power) (r : LogRecord) : (p.makeRecord r).linkA = p.linkA := rfl
@[simp] theorem Power.makeRecord_linkB (p : Power) (r : LogRecord) : (p.makeRecord r).linkB = p.linkB := rfl
@[simp] theorem Power.makeRecord_bayPolicy (p : Power) (r : LogRecord) : (p.makeRecord r).bayPolicy = p.bayPolicy := rfl
@[simp] theorem Power.makeRecord_assignment (p : Power) (r : LogRecord) : (p.makeRecord r).assignment = p.assignment := rfl
@[simp] theorem Power.makeRecord_feed (p : Power) (r : LogRecord) : (p.makeRecord r).feed = p.feed := rfl
@[simp] theorem Power.makeRecord_fhu (p : Power) (r : LogRecord) : (p.makeRecord r).fhu = p.fhu := rfl
@[simp] theorem Power.makeRecord_hld (p : Power) (r : LogRecord) : (p.makeRecord r).hld = p.hld := rfl
@[simp] theorem Power.makeRecord_drops (p : Power) (r : LogRecord) : (p.makeRecord r).drops = p.drops := rfl
@[simp] theorem Power.makeRecord_due (p : Power) (r : LogRecord) : (p.makeRecord r).due = p.due := rfl

/-! ### `Power.makeTied` -/

@[simp] theorem Power.makeTied_toFront (p : Power) (r : LogRecord) (o : Occurrence) : (p.makeTied r o).toFront = p.toFront.makeTied r o := rfl
@[simp] theorem Power.makeTied_bayA (p : Power) (r : LogRecord) (o : Occurrence) : (p.makeTied r o).bayA = p.bayA := rfl
@[simp] theorem Power.makeTied_bayB (p : Power) (r : LogRecord) (o : Occurrence) : (p.makeTied r o).bayB = p.bayB := rfl
@[simp] theorem Power.makeTied_linkA (p : Power) (r : LogRecord) (o : Occurrence) : (p.makeTied r o).linkA = p.linkA := rfl
@[simp] theorem Power.makeTied_linkB (p : Power) (r : LogRecord) (o : Occurrence) : (p.makeTied r o).linkB = p.linkB := rfl
@[simp] theorem Power.makeTied_bayPolicy (p : Power) (r : LogRecord) (o : Occurrence) : (p.makeTied r o).bayPolicy = p.bayPolicy := rfl
@[simp] theorem Power.makeTied_assignment (p : Power) (r : LogRecord) (o : Occurrence) : (p.makeTied r o).assignment = p.assignment := rfl
@[simp] theorem Power.makeTied_feed (p : Power) (r : LogRecord) (o : Occurrence) : (p.makeTied r o).feed = p.feed := rfl
@[simp] theorem Power.makeTied_fhu (p : Power) (r : LogRecord) (o : Occurrence) : (p.makeTied r o).fhu = p.fhu := rfl
@[simp] theorem Power.makeTied_hld (p : Power) (r : LogRecord) (o : Occurrence) : (p.makeTied r o).hld = p.hld := rfl
@[simp] theorem Power.makeTied_drops (p : Power) (r : LogRecord) (o : Occurrence) : (p.makeTied r o).drops = p.drops := rfl
@[simp] theorem Power.makeTied_due (p : Power) (r : LogRecord) (o : Occurrence) : (p.makeTied r o).due = p.due := rfl

/-! ### `Power.publishMirror` -/

@[simp] theorem Power.publishMirror_toFront (p : Power) : p.publishMirror.toFront = p.toFront.publish .mirror (mirrorPage p.hld) := rfl
@[simp] theorem Power.publishMirror_bayA (p : Power) : p.publishMirror.bayA = p.bayA := rfl
@[simp] theorem Power.publishMirror_bayB (p : Power) : p.publishMirror.bayB = p.bayB := rfl
@[simp] theorem Power.publishMirror_linkA (p : Power) : p.publishMirror.linkA = p.linkA := rfl
@[simp] theorem Power.publishMirror_linkB (p : Power) : p.publishMirror.linkB = p.linkB := rfl
@[simp] theorem Power.publishMirror_bayPolicy (p : Power) : p.publishMirror.bayPolicy = p.bayPolicy := rfl
@[simp] theorem Power.publishMirror_assignment (p : Power) : p.publishMirror.assignment = p.assignment := rfl
@[simp] theorem Power.publishMirror_feed (p : Power) : p.publishMirror.feed = p.feed := rfl
@[simp] theorem Power.publishMirror_fhu (p : Power) : p.publishMirror.fhu = p.fhu := rfl
@[simp] theorem Power.publishMirror_hld (p : Power) : p.publishMirror.hld = p.hld := rfl
@[simp] theorem Power.publishMirror_drops (p : Power) : p.publishMirror.drops = p.drops := rfl
@[simp] theorem Power.publishMirror_due (p : Power) : p.publishMirror.due = p.due := rfl

/-! ### `Power.startSwitchover` -/

@[simp] theorem Power.startSwitchover_feed (p : Power) (t : FeedKind) (u : Purpose) : (p.startSwitchover t u).feed = { p.feed with switchover := some ⟨t, u, p.tmb.uptime + 20⟩ } := rfl
@[simp] theorem Power.startSwitchover_toFront (p : Power) (t : FeedKind) (u : Purpose) : (p.startSwitchover t u).toFront = p.toFront := rfl
@[simp] theorem Power.startSwitchover_bayA (p : Power) (t : FeedKind) (u : Purpose) : (p.startSwitchover t u).bayA = p.bayA := rfl
@[simp] theorem Power.startSwitchover_bayB (p : Power) (t : FeedKind) (u : Purpose) : (p.startSwitchover t u).bayB = p.bayB := rfl
@[simp] theorem Power.startSwitchover_linkA (p : Power) (t : FeedKind) (u : Purpose) : (p.startSwitchover t u).linkA = p.linkA := rfl
@[simp] theorem Power.startSwitchover_linkB (p : Power) (t : FeedKind) (u : Purpose) : (p.startSwitchover t u).linkB = p.linkB := rfl
@[simp] theorem Power.startSwitchover_bayPolicy (p : Power) (t : FeedKind) (u : Purpose) : (p.startSwitchover t u).bayPolicy = p.bayPolicy := rfl
@[simp] theorem Power.startSwitchover_assignment (p : Power) (t : FeedKind) (u : Purpose) : (p.startSwitchover t u).assignment = p.assignment := rfl
@[simp] theorem Power.startSwitchover_hld (p : Power) (t : FeedKind) (u : Purpose) : (p.startSwitchover t u).hld = p.hld := rfl
@[simp] theorem Power.startSwitchover_drops (p : Power) (t : FeedKind) (u : Purpose) : (p.startSwitchover t u).drops = p.drops := rfl
@[simp] theorem Power.startSwitchover_due (p : Power) (t : FeedKind) (u : Purpose) : (p.startSwitchover t u).due = p.due := rfl

/-! ### `Power.revertSwitchover` -/

@[simp] theorem Power.revertSwitchover_feed (p : Power) : p.revertSwitchover.feed = { p.feed with switchover := none, failures := failuresSucc p.feed.failures } := rfl
@[simp] theorem Power.revertSwitchover_fhu (p : Power) : p.revertSwitchover.fhu = { p.fhu with switches := switchesFor p.feed.kind } := rfl
@[simp] theorem Power.revertSwitchover_toFront (p : Power) : p.revertSwitchover.toFront = p.toFront := rfl
@[simp] theorem Power.revertSwitchover_bayA (p : Power) : p.revertSwitchover.bayA = p.bayA := rfl
@[simp] theorem Power.revertSwitchover_bayB (p : Power) : p.revertSwitchover.bayB = p.bayB := rfl
@[simp] theorem Power.revertSwitchover_linkA (p : Power) : p.revertSwitchover.linkA = p.linkA := rfl
@[simp] theorem Power.revertSwitchover_linkB (p : Power) : p.revertSwitchover.linkB = p.linkB := rfl
@[simp] theorem Power.revertSwitchover_bayPolicy (p : Power) : p.revertSwitchover.bayPolicy = p.bayPolicy := rfl
@[simp] theorem Power.revertSwitchover_assignment (p : Power) : p.revertSwitchover.assignment = p.assignment := rfl
@[simp] theorem Power.revertSwitchover_hld (p : Power) : p.revertSwitchover.hld = p.hld := rfl
@[simp] theorem Power.revertSwitchover_drops (p : Power) : p.revertSwitchover.drops = p.drops := rfl
@[simp] theorem Power.revertSwitchover_due (p : Power) : p.revertSwitchover.due = p.due := rfl

/-! ### `Power.putFeed` -/

@[simp] theorem Power.putFeed_due (p : Power) (t : FeedKind) : (p.putFeed t).due = { p.due with feed := true } := rfl
@[simp] theorem Power.putFeed_toFront (p : Power) (t : FeedKind) : (p.putFeed t).toFront = p.toFront := rfl
@[simp] theorem Power.putFeed_bayA (p : Power) (t : FeedKind) : (p.putFeed t).bayA = p.bayA := rfl
@[simp] theorem Power.putFeed_bayB (p : Power) (t : FeedKind) : (p.putFeed t).bayB = p.bayB := rfl
@[simp] theorem Power.putFeed_linkA (p : Power) (t : FeedKind) : (p.putFeed t).linkA = p.linkA := rfl
@[simp] theorem Power.putFeed_linkB (p : Power) (t : FeedKind) : (p.putFeed t).linkB = p.linkB := rfl
@[simp] theorem Power.putFeed_bayPolicy (p : Power) (t : FeedKind) : (p.putFeed t).bayPolicy = p.bayPolicy := rfl
@[simp] theorem Power.putFeed_assignment (p : Power) (t : FeedKind) : (p.putFeed t).assignment = p.assignment := rfl
@[simp] theorem Power.putFeed_hld (p : Power) (t : FeedKind) : (p.putFeed t).hld = p.hld := rfl
@[simp] theorem Power.putFeed_drops (p : Power) (t : FeedKind) : (p.putFeed t).drops = p.drops := rfl
@[simp] theorem Power.putFeed_kind (p : Power) (t : FeedKind) : (p.putFeed t).feed.kind = t := rfl
@[simp] theorem Power.putFeed_switchover (p : Power) (t : FeedKind) : (p.putFeed t).feed.switchover = none := rfl
@[simp] theorem Power.putFeed_switches (p : Power) (t : FeedKind) : (p.putFeed t).fhu.switches = switchesFor t := rfl

/-! ### `Power.beginHoldover` -/

@[simp] theorem Power.beginHoldover_toFront (p : Power) (v : Bool) : (p.beginHoldover v).toFront = p.toFront.raise .lean := rfl
@[simp] theorem Power.beginHoldover_feed (p : Power) (v : Bool) : (p.beginHoldover v).feed = { p.feed with holdover := some ⟨v, p.tmb.uptime, false⟩, lean := true } := rfl
@[simp] theorem Power.beginHoldover_bayA (p : Power) (v : Bool) : (p.beginHoldover v).bayA = p.bayA := rfl
@[simp] theorem Power.beginHoldover_bayB (p : Power) (v : Bool) : (p.beginHoldover v).bayB = p.bayB := rfl
@[simp] theorem Power.beginHoldover_linkA (p : Power) (v : Bool) : (p.beginHoldover v).linkA = p.linkA := rfl
@[simp] theorem Power.beginHoldover_linkB (p : Power) (v : Bool) : (p.beginHoldover v).linkB = p.linkB := rfl
@[simp] theorem Power.beginHoldover_bayPolicy (p : Power) (v : Bool) : (p.beginHoldover v).bayPolicy = p.bayPolicy := rfl
@[simp] theorem Power.beginHoldover_assignment (p : Power) (v : Bool) : (p.beginHoldover v).assignment = p.assignment := rfl
@[simp] theorem Power.beginHoldover_fhu (p : Power) (v : Bool) : (p.beginHoldover v).fhu = p.fhu := rfl
@[simp] theorem Power.beginHoldover_hld (p : Power) (v : Bool) : (p.beginHoldover v).hld = p.hld := rfl
@[simp] theorem Power.beginHoldover_drops (p : Power) (v : Bool) : (p.beginHoldover v).drops = p.drops := rfl
@[simp] theorem Power.beginHoldover_due (p : Power) (v : Bool) : (p.beginHoldover v).due = p.due := rfl

/-! ### `Power.clearHoldover` -/

@[simp] theorem Power.clearHoldover_toFront (p : Power) : p.clearHoldover.toFront = p.toFront := rfl
@[simp] theorem Power.clearHoldover_bayA (p : Power) : p.clearHoldover.bayA = p.bayA := rfl
@[simp] theorem Power.clearHoldover_bayB (p : Power) : p.clearHoldover.bayB = p.bayB := rfl
@[simp] theorem Power.clearHoldover_linkA (p : Power) : p.clearHoldover.linkA = p.linkA := rfl
@[simp] theorem Power.clearHoldover_linkB (p : Power) : p.clearHoldover.linkB = p.linkB := rfl
@[simp] theorem Power.clearHoldover_bayPolicy (p : Power) : p.clearHoldover.bayPolicy = p.bayPolicy := rfl
@[simp] theorem Power.clearHoldover_assignment (p : Power) : p.clearHoldover.assignment = p.assignment := rfl
@[simp] theorem Power.clearHoldover_fhu (p : Power) : p.clearHoldover.fhu = p.fhu := rfl
@[simp] theorem Power.clearHoldover_hld (p : Power) : p.clearHoldover.hld = p.hld := rfl
@[simp] theorem Power.clearHoldover_drops (p : Power) : p.clearHoldover.drops = p.drops := rfl
@[simp] theorem Power.clearHoldover_due (p : Power) : p.clearHoldover.due = p.due := rfl

/-! ### `Power.planTest` -/

@[simp] theorem Power.planTest_feed (p : Power) (l : Loads) : (p.planTest l).feed = { p.feed with lastPlan := planResult p.feed p.fhu.eShutInForce (l.lean p.hld.rProt) } := rfl
@[simp] theorem Power.planTest_toFront (p : Power) (l : Loads) : (p.planTest l).toFront = p.toFront := rfl
@[simp] theorem Power.planTest_bayA (p : Power) (l : Loads) : (p.planTest l).bayA = p.bayA := rfl
@[simp] theorem Power.planTest_bayB (p : Power) (l : Loads) : (p.planTest l).bayB = p.bayB := rfl
@[simp] theorem Power.planTest_linkA (p : Power) (l : Loads) : (p.planTest l).linkA = p.linkA := rfl
@[simp] theorem Power.planTest_linkB (p : Power) (l : Loads) : (p.planTest l).linkB = p.linkB := rfl
@[simp] theorem Power.planTest_bayPolicy (p : Power) (l : Loads) : (p.planTest l).bayPolicy = p.bayPolicy := rfl
@[simp] theorem Power.planTest_assignment (p : Power) (l : Loads) : (p.planTest l).assignment = p.assignment := rfl
@[simp] theorem Power.planTest_fhu (p : Power) (l : Loads) : (p.planTest l).fhu = p.fhu := rfl
@[simp] theorem Power.planTest_hld (p : Power) (l : Loads) : (p.planTest l).hld = p.hld := rfl
@[simp] theorem Power.planTest_drops (p : Power) (l : Loads) : (p.planTest l).drops = p.drops := rfl
@[simp] theorem Power.planTest_due (p : Power) (l : Loads) : (p.planTest l).due = p.due := rfl

/-! ### `Power.setDc` -/

@[simp] theorem Power.setDc_feed (p : Power) (v : Bool) : (p.setDc v).feed = { p.feed with dcPresent := v } := rfl
@[simp] theorem Power.setDc_toFront (p : Power) (v : Bool) : (p.setDc v).toFront = p.toFront := rfl
@[simp] theorem Power.setDc_bayA (p : Power) (v : Bool) : (p.setDc v).bayA = p.bayA := rfl
@[simp] theorem Power.setDc_bayB (p : Power) (v : Bool) : (p.setDc v).bayB = p.bayB := rfl
@[simp] theorem Power.setDc_linkA (p : Power) (v : Bool) : (p.setDc v).linkA = p.linkA := rfl
@[simp] theorem Power.setDc_linkB (p : Power) (v : Bool) : (p.setDc v).linkB = p.linkB := rfl
@[simp] theorem Power.setDc_bayPolicy (p : Power) (v : Bool) : (p.setDc v).bayPolicy = p.bayPolicy := rfl
@[simp] theorem Power.setDc_assignment (p : Power) (v : Bool) : (p.setDc v).assignment = p.assignment := rfl
@[simp] theorem Power.setDc_fhu (p : Power) (v : Bool) : (p.setDc v).fhu = p.fhu := rfl
@[simp] theorem Power.setDc_hld (p : Power) (v : Bool) : (p.setDc v).hld = p.hld := rfl
@[simp] theorem Power.setDc_drops (p : Power) (v : Bool) : (p.setDc v).drops = p.drops := rfl
@[simp] theorem Power.setDc_due (p : Power) (v : Bool) : (p.setDc v).due = p.due := rfl

/-! ### `Power.recordFaulted` -/

@[simp] theorem Power.recordFaulted_toFront (p : Power) : p.recordFaulted.toFront = p.toFront := rfl
@[simp] theorem Power.recordFaulted_bayA (p : Power) : p.recordFaulted.bayA = p.bayA := rfl
@[simp] theorem Power.recordFaulted_bayB (p : Power) : p.recordFaulted.bayB = p.bayB := rfl
@[simp] theorem Power.recordFaulted_linkA (p : Power) : p.recordFaulted.linkA = p.linkA := rfl
@[simp] theorem Power.recordFaulted_linkB (p : Power) : p.recordFaulted.linkB = p.linkB := rfl
@[simp] theorem Power.recordFaulted_bayPolicy (p : Power) : p.recordFaulted.bayPolicy = p.bayPolicy := rfl
@[simp] theorem Power.recordFaulted_assignment (p : Power) : p.recordFaulted.assignment = p.assignment := rfl
@[simp] theorem Power.recordFaulted_fhu (p : Power) : p.recordFaulted.fhu = p.fhu := rfl
@[simp] theorem Power.recordFaulted_hld (p : Power) : p.recordFaulted.hld = p.hld := rfl
@[simp] theorem Power.recordFaulted_drops (p : Power) : p.recordFaulted.drops = p.drops := rfl
@[simp] theorem Power.recordFaulted_due (p : Power) : p.recordFaulted.due = p.due := rfl

/-! ### `Power.recordLow` -/

@[simp] theorem Power.recordLow_toFront (p : Power) : p.recordLow.toFront = p.toFront := rfl
@[simp] theorem Power.recordLow_bayA (p : Power) : p.recordLow.bayA = p.bayA := rfl
@[simp] theorem Power.recordLow_bayB (p : Power) : p.recordLow.bayB = p.bayB := rfl
@[simp] theorem Power.recordLow_linkA (p : Power) : p.recordLow.linkA = p.linkA := rfl
@[simp] theorem Power.recordLow_linkB (p : Power) : p.recordLow.linkB = p.linkB := rfl
@[simp] theorem Power.recordLow_bayPolicy (p : Power) : p.recordLow.bayPolicy = p.bayPolicy := rfl
@[simp] theorem Power.recordLow_assignment (p : Power) : p.recordLow.assignment = p.assignment := rfl
@[simp] theorem Power.recordLow_fhu (p : Power) : p.recordLow.fhu = p.fhu := rfl
@[simp] theorem Power.recordLow_hld (p : Power) : p.recordLow.hld = p.hld := rfl
@[simp] theorem Power.recordLow_drops (p : Power) : p.recordLow.drops = p.drops := rfl
@[simp] theorem Power.recordLow_due (p : Power) : p.recordLow.due = p.due := rfl

/-! ### `Power.reassign` -/

@[simp] theorem Power.reassign_assignment (p : Power) : p.reassign.assignment = p.assign := rfl
@[simp] theorem Power.reassign_toFront (p : Power) : p.reassign.toFront = p.toFront := rfl
@[simp] theorem Power.reassign_bayA (p : Power) : p.reassign.bayA = p.bayA := rfl
@[simp] theorem Power.reassign_bayB (p : Power) : p.reassign.bayB = p.bayB := rfl
@[simp] theorem Power.reassign_linkA (p : Power) : p.reassign.linkA = p.linkA := rfl
@[simp] theorem Power.reassign_linkB (p : Power) : p.reassign.linkB = p.linkB := rfl
@[simp] theorem Power.reassign_bayPolicy (p : Power) : p.reassign.bayPolicy = p.bayPolicy := rfl
@[simp] theorem Power.reassign_feed (p : Power) : p.reassign.feed = p.feed := rfl
@[simp] theorem Power.reassign_fhu (p : Power) : p.reassign.fhu = p.fhu := rfl
@[simp] theorem Power.reassign_hld (p : Power) : p.reassign.hld = p.hld := rfl
@[simp] theorem Power.reassign_drops (p : Power) : p.reassign.drops = p.drops := rfl
@[simp] theorem Power.reassign_due (p : Power) : p.reassign.due = p.due := rfl

/-! ### `Power.recompute` -/

@[simp] theorem Power.recompute_feed (p : Power) (r : PowerReading) : (p.recompute r).feed = p.feed.recompute r := rfl
@[simp] theorem Power.recompute_fhu (p : Power) (r : PowerReading) : (p.recompute r).fhu = { p.fhu with eShutInForce := p.feed.eShut } := rfl
@[simp] theorem Power.recompute_toFront (p : Power) (r : PowerReading) : (p.recompute r).toFront = p.toFront := rfl
@[simp] theorem Power.recompute_bayA (p : Power) (r : PowerReading) : (p.recompute r).bayA = p.bayA := rfl
@[simp] theorem Power.recompute_bayB (p : Power) (r : PowerReading) : (p.recompute r).bayB = p.bayB := rfl
@[simp] theorem Power.recompute_linkA (p : Power) (r : PowerReading) : (p.recompute r).linkA = p.linkA := rfl
@[simp] theorem Power.recompute_linkB (p : Power) (r : PowerReading) : (p.recompute r).linkB = p.linkB := rfl
@[simp] theorem Power.recompute_bayPolicy (p : Power) (r : PowerReading) : (p.recompute r).bayPolicy = p.bayPolicy := rfl
@[simp] theorem Power.recompute_assignment (p : Power) (r : PowerReading) : (p.recompute r).assignment = p.assignment := rfl
@[simp] theorem Power.recompute_hld (p : Power) (r : PowerReading) : (p.recompute r).hld = p.hld := rfl
@[simp] theorem Power.recompute_drops (p : Power) (r : PowerReading) : (p.recompute r).drops = p.drops := rfl
@[simp] theorem Power.recompute_due (p : Power) (r : PowerReading) : (p.recompute r).due = p.due := rfl

/-! ### `Blocks.withPower` -/

@[simp] theorem Blocks.withPower_toPower (s : Blocks) (p : Power) : (s.withPower p).toPower = p := rfl
@[simp] theorem Blocks.withPower_powered (s : Blocks) (p : Power) : (s.withPower p).powered = s.powered := rfl
@[simp] theorem Blocks.withPower_sfe (s : Blocks) (p : Power) : (s.withPower p).sfe = s.sfe := rfl
@[simp] theorem Blocks.withPower_bud (s : Blocks) (p : Power) : (s.withPower p).bud = s.bud := rfl
@[simp] theorem Blocks.withPower_blc (s : Blocks) (p : Power) : (s.withPower p).blc = s.blc := rfl
@[simp] theorem Blocks.withPower_mot (s : Blocks) (p : Power) : (s.withPower p).mot = s.mot := rfl
@[simp] theorem Blocks.withPower_timers (s : Blocks) (p : Power) : (s.withPower p).timers = s.timers := rfl

/-! ### `Blocks.withFront` -/

@[simp] theorem Blocks.withFront_toFront (s : Blocks) (f : Front) : (s.withFront f).toFront = f := rfl
@[simp] theorem Blocks.withFront_bayA (s : Blocks) (f : Front) : (s.withFront f).bayA = s.bayA := rfl
@[simp] theorem Blocks.withFront_bayB (s : Blocks) (f : Front) : (s.withFront f).bayB = s.bayB := rfl
@[simp] theorem Blocks.withFront_linkA (s : Blocks) (f : Front) : (s.withFront f).linkA = s.linkA := rfl
@[simp] theorem Blocks.withFront_linkB (s : Blocks) (f : Front) : (s.withFront f).linkB = s.linkB := rfl
@[simp] theorem Blocks.withFront_bayPolicy (s : Blocks) (f : Front) : (s.withFront f).bayPolicy = s.bayPolicy := rfl
@[simp] theorem Blocks.withFront_assignment (s : Blocks) (f : Front) : (s.withFront f).assignment = s.assignment := rfl
@[simp] theorem Blocks.withFront_feed (s : Blocks) (f : Front) : (s.withFront f).feed = s.feed := rfl
@[simp] theorem Blocks.withFront_fhu (s : Blocks) (f : Front) : (s.withFront f).fhu = s.fhu := rfl
@[simp] theorem Blocks.withFront_hld (s : Blocks) (f : Front) : (s.withFront f).hld = s.hld := rfl
@[simp] theorem Blocks.withFront_drops (s : Blocks) (f : Front) : (s.withFront f).drops = s.drops := rfl
@[simp] theorem Blocks.withFront_due (s : Blocks) (f : Front) : (s.withFront f).due = s.due := rfl
@[simp] theorem Blocks.withFront_powered (s : Blocks) (f : Front) : (s.withFront f).powered = s.powered := rfl
@[simp] theorem Blocks.withFront_sfe (s : Blocks) (f : Front) : (s.withFront f).sfe = s.sfe := rfl
@[simp] theorem Blocks.withFront_bud (s : Blocks) (f : Front) : (s.withFront f).bud = s.bud := rfl
@[simp] theorem Blocks.withFront_blc (s : Blocks) (f : Front) : (s.withFront f).blc = s.blc := rfl
@[simp] theorem Blocks.withFront_mot (s : Blocks) (f : Front) : (s.withFront f).mot = s.mot := rfl
@[simp] theorem Blocks.withFront_timers (s : Blocks) (f : Front) : (s.withFront f).timers = s.timers := rfl

/-! ### `Blocks.withMot` -/

@[simp] theorem Blocks.withMot_mot (s : Blocks) (m : MotionRec) : (s.withMot m).mot = m := rfl
@[simp] theorem Blocks.withMot_toPower (s : Blocks) (m : MotionRec) : (s.withMot m).toPower = s.toPower := rfl
@[simp] theorem Blocks.withMot_powered (s : Blocks) (m : MotionRec) : (s.withMot m).powered = s.powered := rfl
@[simp] theorem Blocks.withMot_sfe (s : Blocks) (m : MotionRec) : (s.withMot m).sfe = s.sfe := rfl
@[simp] theorem Blocks.withMot_bud (s : Blocks) (m : MotionRec) : (s.withMot m).bud = s.bud := rfl
@[simp] theorem Blocks.withMot_blc (s : Blocks) (m : MotionRec) : (s.withMot m).blc = s.blc := rfl
@[simp] theorem Blocks.withMot_timers (s : Blocks) (m : MotionRec) : (s.withMot m).timers = s.timers := rfl

/-! ### `Blocks.withLight` -/

@[simp] theorem Blocks.withLight_blc (s : Blocks) (l : LightRec) : (s.withLight l).blc = l := rfl
@[simp] theorem Blocks.withLight_toPower (s : Blocks) (l : LightRec) : (s.withLight l).toPower = s.toPower := rfl
@[simp] theorem Blocks.withLight_powered (s : Blocks) (l : LightRec) : (s.withLight l).powered = s.powered := rfl
@[simp] theorem Blocks.withLight_sfe (s : Blocks) (l : LightRec) : (s.withLight l).sfe = s.sfe := rfl
@[simp] theorem Blocks.withLight_bud (s : Blocks) (l : LightRec) : (s.withLight l).bud = s.bud := rfl
@[simp] theorem Blocks.withLight_mot (s : Blocks) (l : LightRec) : (s.withLight l).mot = s.mot := rfl
@[simp] theorem Blocks.withLight_timers (s : Blocks) (l : LightRec) : (s.withLight l).timers = s.timers := rfl

/-! ### `Blocks.withTimers` -/

@[simp] theorem Blocks.withTimers_timers (s : Blocks) (t : Timers) : (s.withTimers t).timers = t := rfl
@[simp] theorem Blocks.withTimers_toPower (s : Blocks) (t : Timers) : (s.withTimers t).toPower = s.toPower := rfl
@[simp] theorem Blocks.withTimers_powered (s : Blocks) (t : Timers) : (s.withTimers t).powered = s.powered := rfl
@[simp] theorem Blocks.withTimers_sfe (s : Blocks) (t : Timers) : (s.withTimers t).sfe = s.sfe := rfl
@[simp] theorem Blocks.withTimers_bud (s : Blocks) (t : Timers) : (s.withTimers t).bud = s.bud := rfl
@[simp] theorem Blocks.withTimers_blc (s : Blocks) (t : Timers) : (s.withTimers t).blc = s.blc := rfl
@[simp] theorem Blocks.withTimers_mot (s : Blocks) (t : Timers) : (s.withTimers t).mot = s.mot := rfl

/-! ### `State.withBlocks` -/

@[simp] theorem State.withBlocks_toBlocks (s : State) (b : Blocks) : (s.withBlocks b).toBlocks = b := rfl
@[simp] theorem State.withBlocks_pins (s : State) (b : Blocks) : (s.withBlocks b).pins = derivePins b := rfl
@[simp] theorem State.withBlocks_pending (s : State) (b : Blocks) : (s.withBlocks b).pending = s.pending := rfl

/-! ### Two writes of one record -/

@[simp] theorem Blocks.withPower_withPower (s : Blocks) (p q : Power) : (s.withPower p).withPower q = s.withPower q := rfl
@[simp] theorem Blocks.withFront_withFront (s : Blocks) (f g : Front) : (s.withFront f).withFront g = s.withFront g := rfl
@[simp] theorem Blocks.withPower_self (s : Blocks) : s.withPower s.toPower = s := rfl
@[simp] theorem Blocks.withFront_self (s : Blocks) : s.withFront s.toFront = s := rfl
@[simp] theorem Power.setBay_self (p : Power) (b : Bay) : p.setBay b (p.bay b) = p := by cases b <;> rfl
@[simp] theorem Power.setLink_self (p : Power) (b : Bay) : p.setLink b (p.link b) = p := by cases b <;> rfl
@[simp] theorem otherBay_otherBay (b : Bay) : otherBay (otherBay b) = b := by cases b <;> rfl
@[simp] theorem bay_feedOf (b : Bay) : (feedOf b).bay = some b := by cases b <;> rfl
theorem eq_or_eq_otherBay (b c : Bay) : c = b ∨ c = otherBay b := by cases b <;> cases c <;> simp [otherBay]
theorem feedOf_inj {b c : Bay} : feedOf b = feedOf c ↔ b = c := by cases b <;> cases c <;> simp [feedOf]

end Sys2Proof.Machine
end

