-- ==== Sys2Proof/Laws/Front.lean ====
section
/-! SUPPORT. What the named operations of the host-facing blocks can do: a page update, a record and CMU's answer to it, an event, a completion, a re-read of the log. -/

namespace Sys2Proof.Machine

open Sys2Proof.Safety

/-! ## Events and records: the part of `Front` they may write -/

/-- Between `f` and `g` only records, the flags they raise and the monitors have changed, and memory only in their ranges. -/
structure Front.RecordStep (f g : Front) : Prop where
  shape : g = { f with
    mem := g.mem, summary := g.summary, log := { g.log with effRead := f.log.effRead }, monitors := g.monitors
    gens := { f.gens with monitor := g.gens.monitor } }
  kept : keepsOutside recordRanges f.mem g.mem
  wf : Memory.wf f.mem = true → Memory.wf g.mem = true

theorem Front.RecordStep.refl (f : Front) : f.RecordStep f := ⟨rfl, keepsOutside_refl _ _, id⟩

theorem Front.RecordStep.trans {f g h : Front} (a : f.RecordStep g) (b : g.RecordStep h) : f.RecordStep h := by
  refine ⟨?_, keepsOutside_trans a.kept b.kept, fun w => b.wf (a.wf w)⟩
  have hb := b.shape
  rw [a.shape] at hb
  rw [hb]

theorem recordRanges_index : indexRange ∈ recordRanges := by simp [recordRanges]
theorem recordRanges_missed : missedRange ∈ recordRanges := by simp [recordRanges]
theorem recordRanges_log : logRange ∈ recordRanges := by simp [recordRanges]
theorem recordRanges_monitor : pageRange .monitor ∈ recordRanges := by simp [recordRanges]

@[simp] theorem length_logBytes (r : LogRecord) (q : Word) (t : Timebase) : (r.bytes q t).length = 64 := by
  simp [LogRecord.bytes]

/-- An entry of the log lies in the log. -/
theorem logEntryAt_le (n : Nat) (h : n < 64) : 0x1000 ≤ logEntryAt n ∧ logEntryAt n + 64 ≤ 0x2000 := by
  simp only [logEntryAt]; omega

/-! ### One record -/

/-- A record that is written: shape and frame. -/
theorem Front.writeRecord_step (f : Front) (r : LogRecord) : f.RecordStep (f.writeRecord r) := by
  have hl := logEntryAt_le (f.log.writeIndex.toNat % 64) (Nat.mod_lt _ (by omega))
  have hk : keepsOutside recordRanges f.mem (writeBytes (writeBytes f.mem (logEntryAt (f.log.writeIndex.toNat % 64))
      (r.bytes f.log.writeIndex f.tmb)) 0x08 (leBytes 4 (f.log.writeIndex + 1).toNat)) :=
    keepsOutside_trans
      (keepsOutside_writeBytes _ _ _ logRange recordRanges_log (by simpa [logRange] using hl.1) (by simpa [logRange] using hl.2))
      (keepsOutside_writeBytes _ _ _ indexRange recordRanges_index (by simp [indexRange]) (by simp [indexRange]))
  unfold Front.writeRecord Front.raiseIfFull
  split
  · exact ⟨rfl, hk, fun w => wf_writeBytes _ _ (wf_writeBytes _ _ w)⟩
  · exact ⟨rfl, hk, fun w => wf_writeBytes _ _ (wf_writeBytes _ _ w)⟩

/-- A record that is missed: shape and frame. -/
theorem Front.missRecord_step (f : Front) : f.RecordStep f.missRecord := by
  refine ⟨rfl, ?_, fun w => wf_writeBytes _ _ (wf_writeBytes _ _ w)⟩
  exact keepsOutside_trans
    (keepsOutside_writeBytes _ _ _ indexRange recordRanges_index (by simp [indexRange]) (by simp [indexRange]))
    (keepsOutside_writeBytes _ _ _ missedRange recordRanges_missed (by simp [missedRange]) (by simp [missedRange]))

theorem Front.append_of_room (f : Front) (r : LogRecord) (h : f.log.full = false) :
    f.append r = ⟨f.writeRecord r, some f.log.writeIndex, ⟨.incident, 0, some r.code⟩⟩ := by simp [Front.append, h]

theorem Front.append_of_full (f : Front) (r : LogRecord) (h : f.log.full = true) :
    f.append r = ⟨f.missRecord, none, plainEvent .logMissed⟩ := by simp [Front.append, h]

/-- Appending a record: what it can write. -/
theorem Front.append_step (f : Front) (r : LogRecord) : f.RecordStep (f.append r).front := by
  unfold Front.append
  split
  · exact f.missRecord_step
  · exact f.writeRecord_step r

/-! ### CMU -/

/-- The monitors changed, nothing else. -/
theorem Front.monitors_step (f : Front) (ms : List Monitor) : f.RecordStep { f with monitors := ms } :=
  ⟨rfl, keepsOutside_refl _ _, id⟩

theorem Front.raise_step (f : Front) (b : SummaryFlag) : f.RecordStep (f.raise b) := ⟨rfl, keepsOutside_refl _ _, id⟩

theorem Front.publishMonitors_step (f : Front) : f.RecordStep f.publishMonitors := by
  refine ⟨rfl, ?_, fun w => wf_writeBytes _ _ w⟩
  exact keepsOutside_writeBytes _ _ _ (pageRange .monitor) recordRanges_monitor (by simp [pageRange]) (by simp [pageRange])

theorem alertRecords_step (ms : List Monitor) (as : List (Nat × Monitor)) (f : Front) : f.RecordStep (alertRecords ms as f).1 := by
  induction as generalizing f with
  | nil => exact .refl f
  | cons a as ih => exact ((f.raise_step .monitorAlert).trans (Front.append_step _ _)).trans (ih _)

theorem Front.takeOccurrence_step (f : Front) (o : Occurrence) : f.RecordStep (f.takeOccurrence o).1 := by
  unfold Front.takeOccurrence
  dsimp only
  split
  · exact ((alertRecords_step _ _ f).trans (Front.monitors_step _ _)).trans (Front.publishMonitors_step _)
  · exact (alertRecords_step _ _ f).trans (Front.monitors_step _ _)

theorem drainEvents_step (n : Nat) (os : List Occurrence) (f : Front) : f.RecordStep (drainEvents n os f) := by
  induction n generalizing os f with
  | zero => exact .refl f
  | succ n ih =>
    cases os with
    | nil => exact .refl f
    | cons o os => exact (f.takeOccurrence_step o).trans (ih _ _)

/-- Sending an event: what it can write. -/
theorem Front.sendEvent_step (f : Front) (o : Occurrence) : f.RecordStep (f.sendEvent o) := drainEvents_step _ _ f

/-- Making a record: what it can write. -/
theorem Front.makeRecord_step (f : Front) (r : LogRecord) : f.RecordStep (f.makeRecord r) :=
  (f.append_step r).trans (Front.sendEvent_step _ _)

/-- A record with its tied event: what they can write. -/
theorem Front.makeTied_step (f : Front) (r : LogRecord) (o : Occurrence) : f.RecordStep (f.makeTied r o) :=
  (f.makeRecord_step r).trans (Front.sendEvent_step _ _)

/-- A GAP record: what it can write. -/
theorem Front.writeGap_step (f : Front) : f.RecordStep f.writeGap := by
  unfold Front.writeGap
  dsimp only
  refine ((f.writeRecord_step (.gap f.log.missed)).trans ?_).trans (Front.sendEvent_step _ _)
  refine ⟨rfl, ?_, fun w => wf_writeBytes _ _ (wf_writeBytes _ _ w)⟩
  exact keepsOutside_trans
    (keepsOutside_writeBytes _ _ _ indexRange recordRanges_index (by simp [indexRange]) (by simp [indexRange]))
    (keepsOutside_writeBytes _ _ _ missedRange recordRanges_missed (by simp [missedRange]) (by simp [missedRange]))

/-- A monitor's number never changes: an event keeps the eight monitors eight. -/
theorem Front.takeOccurrence_length (f : Front) (o : Occurrence) : (f.takeOccurrence o).1.monitors.length = f.monitors.length := by
  unfold Front.takeOccurrence
  dsimp only
  split
  · simp [Front.publishMonitors]
  · simp

theorem drainEvents_length (n : Nat) (os : List Occurrence) (f : Front) : (drainEvents n os f).monitors.length = f.monitors.length := by
  induction n generalizing os f with
  | zero => rfl
  | succ n ih =>
    cases os with
    | nil => rfl
    | cons o os => exact (ih _ _).trans (f.takeOccurrence_length o)

/-- An occurrence that no monitor takes changes nothing. -/
theorem Monitor.offer_of_not_takes (m : Monitor) (o : Occurrence) (h : m.takes o = false) : m.offer o = m := by
  simp [Monitor.offer, h]

theorem Monitor.wraps_of_not_takes (m : Monitor) (o : Occurrence) (h : m.takes o = false) : m.wraps o = false := by
  simp [Monitor.wraps, Monitor.counts, h]

theorem alerting_of_no_wrap (o : Occurrence) (n : Nat) (ms : List Monitor) (h : ∀ m ∈ ms, m.wraps o = false) : alerting o n ms = [] := by
  induction ms generalizing n with
  | nil => rfl
  | cons m ms ih =>
    simp only [alerting, h m (by simp), Bool.false_and, Bool.false_eq_true, if_false]
    exact ih (n + 1) fun k hk => h k (by simp [hk])

/-- An occurrence without a wrap is offered to every monitor and does nothing else. -/
theorem Front.takeOccurrence_of_no_wrap (f : Front) (o : Occurrence) (h : ∀ m ∈ f.monitors, m.wraps o = false) :
    f.takeOccurrence o = ({ f with monitors := f.monitors.map fun m => m.offer o }, []) := by
  have ha : alerting o 0 f.monitors = [] := alerting_of_no_wrap o 0 f.monitors h
  have hw : (f.monitors.any fun m => m.wraps o) = false := by
    rw [List.any_eq_false]
    intro m hm; simp [h m hm]
  simp [Front.takeOccurrence, ha, alertRecords, frozenBy, hw]

/-- Without a wrap an event is offered to every monitor and does nothing else. -/
theorem Front.sendEvent_of_no_wrap (f : Front) (o : Occurrence) (h : ∀ m ∈ f.monitors, m.wraps o = false) :
    f.sendEvent o = { f with monitors := f.monitors.map fun m => m.offer o } := by
  unfold Front.sendEvent
  rw [drainEvents, Front.takeOccurrence_of_no_wrap f o h]
  rfl

/-- Where no monitor takes the event, it changes nothing. -/
theorem Front.sendEvent_of_not_taken (f : Front) (o : Occurrence) (h : ∀ m ∈ f.monitors, m.takes o = false) : f.sendEvent o = f := by
  rw [Front.sendEvent_of_no_wrap f o fun m hm => m.wraps_of_not_takes o (h m hm)]
  have : f.monitors.map (fun m => m.offer o) = f.monitors := by
    conv_rhs => rw [← List.map_id f.monitors]
    exact List.map_congr_left fun m hm => m.offer_of_not_takes o (h m hm)
  rw [this]

/-! ## Completion -/

/-- A slot lies between the request slots' ends. -/
theorem slotAt_le (i : Fin 32) : 0x0800 ≤ slotAt i ∧ slotAt i + 64 ≤ 0x1000 := by
  have := i.isLt
  simp only [slotAt]; omega

@[simp] theorem length_writeResult_head (a b c d : Byte) : [a, b, c, d].length = 4 := rfl

/-- A result's bytes: what they can write. -/
theorem Front.writeResult_frame (f : Front) (i : Fin 32) (k : Byte) (n : Bool) (t : Half) (c : Completion) :
    f.writeResult i k n t c = { f with mem := (f.writeResult i k n t c).mem }
    ∧ keepsOutside [slotRange i] f.mem (f.writeResult i k n t c).mem
    ∧ (Memory.wf f.mem = true → Memory.wf (f.writeResult i k n t c).mem = true) := by
  have hs : slotRange i ∈ [slotRange i] := by simp
  refine ⟨rfl, ?_, fun w => wf_writeBytes _ _ (wf_writeBytes _ _ (wf_writeBytes _ _ w))⟩
  refine keepsOutside_trans (keepsOutside_trans (keepsOutside_writeBytes _ _ _ _ hs ?_ ?_) (keepsOutside_writeBytes _ _ _ _ hs ?_ ?_))
    (keepsOutside_writeBytes _ _ _ _ hs ?_ ?_) <;> simp [slotRange]

/-- A completion of a slot that is not in flight does nothing. -/
theorem Front.complete_of_not_flying (f : Front) (i : Fin 32) (c : Completion) (h : f.entryOf i = none) : f.complete i c = f := by
  simp [Front.complete, h]

/-- A completion: the slot leaves the in-flight list, its bytes change, REQ_DONE may rise; nothing else. -/
theorem Front.complete_frame (f : Front) (i : Fin 32) (c : Completion) :
    f.complete i c = { f with
      mem := (f.complete i c).mem, inFlight := (f.complete i c).inFlight, summary := (f.complete i c).summary }
    ∧ keepsOutside [slotRange i] f.mem (f.complete i c).mem
    ∧ (Memory.wf f.mem = true → Memory.wf (f.complete i c).mem = true) := by
  unfold Front.complete
  cases h : f.entryOf i with
  | none => exact ⟨rfl, keepsOutside_refl _ _, id⟩
  | some e =>
    have hw := f.writeResult_frame i e.kind e.notify e.tag c
    dsimp only
    split
    · exact ⟨rfl, hw.2.1, hw.2.2⟩
    · exact ⟨rfl, hw.2.1, hw.2.2⟩

/-- The completion of a slot in flight, by its entry. -/
theorem Front.complete_of_flying (f : Front) (i : Fin 32) (c : Completion) (e : InFlight) (h : f.entryOf i = some e) :
    f.complete i c = { f.writeResult i e.kind e.notify e.tag c with
      inFlight := f.inFlight.filter fun x => decide (x.slot ≠ i)
      summary := if e.notify then f.summary ||| flagBit .reqDone else f.summary } := by
  simp only [Front.complete, h]
  split <;> rfl

/-! ## Pages and the trace -/

@[simp] theorem pageOffset_le (g : PageId) : g.offset + 256 ≤ 0x0800 := by cases g <;> simp [PageId.offset]

/-- A page update: what it can write. -/
theorem Front.publish_frame (f : Front) (g : PageId) (body : List Byte) :
    keepsOutside [pageRange g] f.mem (f.publish g body).mem
    ∧ (Memory.wf f.mem = true → Memory.wf (f.publish g body).mem = true)
    ∧ readBytes (f.publish g body).mem g.offset 256 = padTo 256 (leBytes 4 (f.gens.get g + 2).toNat ++ body) := by
  refine ⟨keepsOutside_writeBytes _ _ _ (pageRange g) (by simp) (by simp [pageRange]) (by simp [pageRange]),
    fun w => wf_writeBytes _ _ w, ?_⟩
  have := readBytes_writeBytes_self f.mem g.offset (padTo 256 (leBytes 4 (f.gens.get g + 2).toNat ++ body))
    (by have := pageOffset_le g; simp only [length_padTo, Config.areaSize]; omega)
  simpa using this

@[simp] theorem Generations.get_set_self (v : Word) (x : Generations) (g : PageId) : (x.set v g).get g = v := by cases g <;> rfl

theorem Generations.get_set_other (v : Word) (x : Generations) (g h : PageId) (n : h ≠ g) : (x.set v g).get h = x.get h := by
  cases g <;> cases h <;> first | rfl | exact absurd rfl n

end Sys2Proof.Machine
end

