-- ==== Sys2Proof/Laws/Power.lean ====
section
/-! SUPPORT. What the named operations of HLD, BAY and FHU can do: the hold table's outputs, a bay's state, a move of the feed, the charger assignment. -/

namespace Sys2Proof.Machine

open Sys2Proof.Safety

/-! ## The hold table -/

theorem placeEntry_length (e : HoldEntry) (es : List (Option HoldEntry)) : (placeEntry e es).length = es.length := by
  unfold placeEntry; split <;> simp

@[simp] theorem removeEntries_length (g : HoldEntry → Bool) (es : List (Option HoldEntry)) : (removeEntries g es).length = es.length := by
  simp [removeEntries]

/-- A removal leaves the entries that stay in their positions. -/
theorem getElem?_removeEntries (g : HoldEntry → Bool) (es : List (Option HoldEntry)) (n : Nat) :
    (removeEntries g es)[n]? = es[n]?.map fun o => o.filter fun e => !g e := by
  simp only [removeEntries, List.getElem?_map]
  congr 1
  funext o
  cases o with
  | none => rfl
  | some e => cases h : g e <;> simp [Option.filter, h]

theorem reserveSum_append (a b : List (Option HoldEntry)) : reserveSum (a ++ b) = reserveSum a + reserveSum b := by
  induction a with
  | nil => simp [reserveSum]
  | cons o a ih => cases o <;> simp [reserveSum, ih, Nat.add_assoc]

/-- A removal never raises R_prot. -/
theorem reserveSum_removeEntries_le (g : HoldEntry → Bool) (es : List (Option HoldEntry)) :
    reserveSum (removeEntries g es) ≤ reserveSum es := by
  induction es with
  | nil => simp [removeEntries, reserveSum]
  | cons o es ih =>
    cases o with
    | none => simpa [removeEntries, reserveSum] using ih
    | some e =>
      cases h : g e
      · simpa [removeEntries, reserveSum, h] using ih
      · simp only [removeEntries, List.map_cons, h, if_true, reserveSum]
        have : reserveSum (removeEntries g es) ≤ reserveSum es := ih
        simp only [removeEntries] at this
        omega

/-- The end of a wait: the table's entries and everything of BAY, FHU's feed record and SFE's readers stand. -/
theorem Power.endWait_frame (p : Power) (o : AckOutcome) :
    (p.endWait o).hld = { p.hld with wait := none, outcome := o } ∧ (p.endWait o).bayA = p.bayA ∧ (p.endWait o).bayB = p.bayB
    ∧ (p.endWait o).linkA = p.linkA ∧ (p.endWait o).linkB = p.linkB ∧ (p.endWait o).feed = p.feed
    ∧ (p.endWait o).assignment = p.assignment ∧ (p.endWait o).bayPolicy = p.bayPolicy ∧ (p.endWait o).due = p.due
    ∧ (p.endWait o).drops = [] ∧ (p.endWait o).fhu = { p.fhu with deferredEnd := none } := by
  unfold Power.endWait Power.writeDeferredEnd
  cases h : p.fhu.deferredEnd with
  | none =>
    have : (({ p with hld := { p.hld with wait := none, outcome := o } } : Power).publishMirror.writeDrops).fhu.deferredEnd = none := h
    simp only [this]
    refine ⟨rfl, rfl, rfl, rfl, rfl, rfl, rfl, rfl, rfl, rfl, ?_⟩
    show p.fhu = _
    rw [← h]
  | some d =>
    have : (({ p with hld := { p.hld with wait := none, outcome := o } } : Power).publishMirror.writeDrops).fhu.deferredEnd = some d := h
    simp only [this]
    exact ⟨rfl, rfl, rfl, rfl, rfl, rfl, rfl, rfl, rfl, rfl, rfl⟩

/-- HLD's outputs: the table becomes `es`; BAY, the feed record and the assignment stand. -/
theorem Power.putTable_frame (p : Power) (es : List (Option HoldEntry)) :
    (p.putTable es).hld.entries = es ∧ (p.putTable es).hld.ackLine = p.hld.ackLine ∧ (p.putTable es).bayA = p.bayA
    ∧ (p.putTable es).bayB = p.bayB ∧ (p.putTable es).linkA = p.linkA ∧ (p.putTable es).linkB = p.linkB
    ∧ (p.putTable es).feed = p.feed ∧ (p.putTable es).assignment = p.assignment ∧ (p.putTable es).bayPolicy = p.bayPolicy
    ∧ (p.putTable es).due = { p.due with hold := p.due.hold || decide (tableShape es ≠ tableShape p.hld.entries) } := by
  unfold Power.putTable
  dsimp only
  have hs : ∀ c : Bool, ((if c = true then HoldTable.startWait { p.hld with entries := es } p.tmb.uptime
      else { p.hld with entries := es }) : HoldTable).entries = es := by intro c; cases c <;> rfl
  have ha : ∀ c : Bool, ((if c = true then HoldTable.startWait { p.hld with entries := es } p.tmb.uptime
      else { p.hld with entries := es }) : HoldTable).ackLine = p.hld.ackLine := by intro c; cases c <;> rfl
  split
  · rename_i h
    refine ⟨?_, ?_, ?_⟩
    · rw [(Power.endWait_frame _ _).1]; exact hs _
    · rw [(Power.endWait_frame _ _).1]; exact ha _
    · obtain ⟨-, h2, h3, h4, h5, h6, h7, h8, h9, -⟩ := Power.endWait_frame _ _
      exact ⟨h2, h3, h4, h5, h6, h7, h8, h9⟩
  · split
    · refine ⟨?_, ?_, ?_⟩
      · rw [(Power.endWait_frame _ _).1]; exact hs _
      · rw [(Power.endWait_frame _ _).1]; exact ha _
      · obtain ⟨-, h2, h3, h4, h5, h6, h7, h8, h9, -⟩ := Power.endWait_frame _ _
        exact ⟨h2, h3, h4, h5, h6, h7, h8, h9⟩
    · exact ⟨hs _, ha _, rfl, rfl, rfl, rfl, rfl, rfl, rfl, rfl⟩

/-! ## Bays -/

/-- A bay's new state: the bay's state alone in its record; the link may fall idle; nothing else. -/
theorem Power.setState_frame (p : Power) (b : Bay) (st : BayState) :
    (p.setState b st).bay b = { p.bay b with state := st } ∧ (p.setState b st).bay (otherBay b) = p.bay (otherBay b)
    ∧ (p.setState b st).link (otherBay b) = p.link (otherBay b) ∧ (p.setState b st).toFront = p.toFront
    ∧ (p.setState b st).bayPolicy = p.bayPolicy ∧ (p.setState b st).assignment = p.assignment ∧ (p.setState b st).feed = p.feed
    ∧ (p.setState b st).fhu = p.fhu ∧ (p.setState b st).hld = p.hld ∧ (p.setState b st).drops = p.drops
    ∧ (p.setState b st).due = p.due := by
  unfold Power.setState
  dsimp only
  split
  · simp
  · split
    · simp
    · cases b <;> simp [Power.setBay, Power.setLink, Power.bay, Power.link, otherBay]

/-- The states that are polled keep their link. -/
theorem Power.setState_link_of_polls (p : Power) (b : Bay) (st : BayState) (h : st.polls = true) :
    (p.setState b st).link b = p.link b := by
  unfold Power.setState
  dsimp only
  split
  · simp
  · simp [h]

/-- Entry to SEATED: the bay's record and link, nothing else (R3, R7). -/
theorem Power.enterSeated_frame (p : Power) (b : Bay) :
    (p.enterSeated b).bay b
        = { p.bay b with state := .seated (p.tmb.uptime + 2000), identity := none, packState := none, failedPolls := 0 }
    ∧ (p.enterSeated b).link b = { p.link b with activity := .identRead 0 false p.tmb.uptime, pollAt := none }
    ∧ (p.enterSeated b).bay (otherBay b) = p.bay (otherBay b) ∧ (p.enterSeated b).link (otherBay b) = p.link (otherBay b)
    ∧ (p.enterSeated b).toFront = p.toFront ∧ (p.enterSeated b).feed = p.feed ∧ (p.enterSeated b).fhu = p.fhu
    ∧ (p.enterSeated b).hld = p.hld ∧ (p.enterSeated b).assignment = p.assignment ∧ (p.enterSeated b).bayPolicy = p.bayPolicy
    ∧ (p.enterSeated b).drops = p.drops ∧ (p.enterSeated b).due = p.due := by
  cases b <;> exact ⟨rfl, rfl, rfl, rfl, rfl, rfl, rfl, rfl, rfl, rfl, rfl, rfl⟩

/-! ## The feed -/

/-- A move of the feed has the target as the feed, no switchover in flight, the target's switch alone closed, no move pending. -/
theorem Power.moveFeed_feed (p : Power) (t : FeedKind) (c : MoveCause) (v : Bool) :
    (p.moveFeed t c v).feed.kind = t ∧ (p.moveFeed t c v).feed.switchover = none ∧ (p.moveFeed t c v).fhu.switches = switchesFor t
    ∧ (p.moveFeed t c v).feed.pending = ⟨false, false⟩ ∧ (p.moveFeed t c v).feed.dcPresent = p.feed.dcPresent
    ∧ (p.moveFeed t c v).due.feed = true := by
  have hl : ∀ x : Power, (x.leaveFeed c t).feed = x.feed := by
    intro x; unfold Power.leaveFeed; split
    · rfl
    · exact (Power.setState_frame _ _ _).2.2.2.2.2.2.1
  have hj : ∀ x : Power, (x.joinFeed t).feed = x.feed ∧ (x.joinFeed t).fhu = x.fhu ∧ (x.joinFeed t).due = x.due := by
    intro x; unfold Power.joinFeed; split
    · exact ⟨rfl, rfl, rfl⟩
    · obtain ⟨-, -, -, -, -, -, h1, h2, -, -, h3⟩ := Power.setState_frame x ‹Bay› (.feeding noFaults)
      exact ⟨h1, h2, h3⟩
  have he : ∀ (x : Power) (k : HoldoverEndCause), (x.endHoldover k).feed.kind = x.feed.kind
      ∧ (x.endHoldover k).feed.switchover = x.feed.switchover ∧ (x.endHoldover k).fhu.switches = x.fhu.switches
      ∧ (x.endHoldover k).feed.pending = x.feed.pending ∧ (x.endHoldover k).feed.dcPresent = x.feed.dcPresent
      ∧ (x.endHoldover k).due.feed = x.due.feed := by
    intro x k
    unfold Power.endHoldover
    split
    · exact ⟨rfl, rfl, rfl, rfl, rfl, rfl⟩
    · split
      · unfold Power.liftEnergy
        dsimp only
        have hw : ∀ y : Power, (y.writeDeferredEnd).feed = y.feed ∧ y.writeDeferredEnd.fhu.switches = y.fhu.switches
            ∧ y.writeDeferredEnd.due = y.due := by
          intro y; unfold Power.writeDeferredEnd; split <;> exact ⟨rfl, rfl, rfl⟩
        obtain ⟨w1, w2, w3⟩ := hw x
        have hk : ∀ y : Power, y.clearHoldover.feed.kind = y.feed.kind ∧ y.clearHoldover.feed.switchover = y.feed.switchover
            ∧ y.clearHoldover.feed.pending = y.feed.pending ∧ y.clearHoldover.feed.dcPresent = y.feed.dcPresent := fun _ =>
          ⟨rfl, rfl, rfl, rfl⟩
        split
        · exact ⟨congrArg (·.kind) w1, congrArg (·.switchover) w1, w2, congrArg (·.pending) w1, congrArg (·.dcPresent) w1,
            congrArg (·.feed) w3⟩
        · have hp : ∀ (y : Power) (es : List (Option HoldEntry)), (y.putTable es).fhu.switches = y.fhu.switches := by
            intro y es
            unfold Power.putTable
            dsimp only
            split
            · rw [(Power.endWait_frame _ _).2.2.2.2.2.2.2.2.2.2]; rfl
            · split
              · rw [(Power.endWait_frame _ _).2.2.2.2.2.2.2.2.2.2]; rfl
              · rfl
          obtain ⟨-, -, -, -, -, -, q1, -, -, q2⟩ := Power.putTable_frame x.writeDeferredEnd.clearHoldover
            (removeEntries (fun e => decide (e.holder = .energy)) x.writeDeferredEnd.clearHoldover.hld.entries)
          rw [q1, q2, hp]
          exact ⟨congrArg (·.kind) w1, congrArg (·.switchover) w1, w2, congrArg (·.pending) w1, congrArg (·.dcPresent) w1,
            congrArg (·.feed) w3⟩
      · exact ⟨rfl, rfl, rfl, rfl, rfl, rfl⟩
  obtain ⟨j1, j2, j3⟩ := hj ((p.leaveFeed c t).putFeed t)
  have hd : ((p.leaveFeed c t).putFeed t).feed.dcPresent = p.feed.dcPresent := by
    show (p.leaveFeed c t).feed.dcPresent = _; rw [hl]
  have base : (((p.leaveFeed c t).putFeed t).joinFeed t).feed.kind = t
      ∧ (((p.leaveFeed c t).putFeed t).joinFeed t).feed.switchover = none
      ∧ (((p.leaveFeed c t).putFeed t).joinFeed t).fhu.switches = switchesFor t
      ∧ (((p.leaveFeed c t).putFeed t).joinFeed t).feed.pending = ⟨false, false⟩
      ∧ (((p.leaveFeed c t).putFeed t).joinFeed t).feed.dcPresent = p.feed.dcPresent
      ∧ (((p.leaveFeed c t).putFeed t).joinFeed t).due.feed = true := by
    rw [j1, j2, j3]; exact ⟨rfl, rfl, rfl, rfl, hd, rfl⟩
  unfold Power.moveFeed
  dsimp only
  split
  · split
    · exact base
    · exact base
  · split
    · obtain ⟨e1, e2, e3, e4, e5, e6⟩ := he (((p.leaveFeed c t).putFeed t).joinFeed t) (if t = .dc then .dc else .pack)
      rw [e1, e2, e3, e4, e5, e6]; exact base
    · exact base

/-! ## The charger -/

/-- The assignment evaluated twice is the assignment evaluated once (R24). -/
theorem Power.assign_reassign (p : Power) : p.reassign.assign = p.assign := by
  have he : ∀ b, p.reassign.eligible b = p.eligible b := fun b => by cases b <;> rfl
  have hf : p.reassign.freshAssignment = p.freshAssignment := rfl
  have hfe : ∀ b, p.freshAssignment = some b → p.eligible b = true := by
    intro b h
    unfold Power.freshAssignment at h
    cases hA : p.eligible .A <;> cases hB : p.eligible .B <;> simp only [hA, hB, if_true, Bool.true_and, Bool.false_and,
      Bool.false_eq_true, if_false, Option.some.injEq, reduceCtorEq] at h
    · subst h; exact hB
    · subst h; exact hA
    · split at h <;> cases h <;> assumption
  by_cases hk : p.feed.kind = .dc
  · have hkeep : ∀ q : Option Bay, (∀ b, q = some b → p.eligible b = true) → p.assign = q → (q = none → p.freshAssignment = none) →
        p.reassign.assign = q := by
      intro q hq ha hn
      unfold Power.assign
      rw [if_pos (show p.reassign.feed.kind = .dc from hk), show p.reassign.assignment = q from ha]
      cases q with
      | none => rw [hf]; exact hn rfl
      | some b => simp only [he, hq b rfl, if_true]
    refine hkeep _ ?_ rfl ?_
    · intro b hb
      unfold Power.assign at hb
      rw [if_pos hk] at hb
      cases hm : p.assignment with
      | none => rw [hm] at hb; exact hfe b hb
      | some c =>
        rw [hm] at hb
        dsimp only at hb
        split at hb
        · cases hb; assumption
        · exact hfe b hb
    · intro hn
      unfold Power.assign at hn
      rw [if_pos hk] at hn
      cases hm : p.assignment with
      | none => rw [hm] at hn; exact hn
      | some c =>
        rw [hm] at hn
        dsimp only at hn
        split at hn
        · cases hn
        · exact hn
  · unfold Power.assign
    rw [if_neg (show ¬ p.reassign.feed.kind = .dc from hk), if_neg hk]

/-- After a re-evaluation the charger is settled. -/
theorem Power.chargerSettled_reassign (p : Power) : ChargerSettled p.reassign := p.assign_reassign.symm

/-- A settled charger is not changed by a re-evaluation. -/
theorem Power.reassign_of_settled (p : Power) (h : ChargerSettled p) : p.reassign = p := by
  unfold Power.reassign; rw [← h]

end Sys2Proof.Machine
end

