-- ==== Sys2Proof/Laws/Ops.lean ====
section
/-! SUPPORT. The frame of every event: what surrounds an event's own changes, when it adds nothing, and how a command and a step come to it. -/

namespace Sys2Proof.Machine

open Sys2Proof.Safety

/-! ## Commands -/

/-- A command on a running part is its blocks' change, the output signals derived from it. -/
theorem State.whilePowered_on (s : State) (f : Blocks → Blocks) (h : s.powered = true) :
    s.whilePowered f = .next (s.withBlocks (f s.toBlocks)) := by simp [State.whilePowered, h]

/-- A command on an unpowered part does nothing. -/
theorem State.whilePowered_off (s : State) (f : Blocks → Blocks) (h : s.powered = false) : s.whilePowered f = .next s := by
  simp [State.whilePowered, h]

/-- A command completes, and leaves the queue. -/
theorem State.whilePowered_next (s : State) (f : Blocks → Blocks) : ∃ t, s.whilePowered f = .next t ∧ t.pending = s.pending := by
  unfold State.whilePowered
  split
  · exact ⟨_, rfl, rfl⟩
  · exact ⟨_, rfl, rfl⟩

/-- Blocks that change nothing leave a state whose pins are driven as it is. -/
theorem State.withBlocks_self (s : State) (h : s.powered = true) (hp : PinsDriven s) : s.withBlocks s.toBlocks = s := by
  unfold PinsDriven at hp
  rw [if_pos h] at hp
  unfold State.withBlocks
  rw [← hp]

/-- After a command on a running part that still runs the pins are driven. -/
theorem State.pinsDriven_withBlocks (s : State) (b : Blocks) (h : b.powered = true) : PinsDriven (s.withBlocks b) := by
  unfold PinsDriven
  rw [show (s.withBlocks b).powered = true from h]
  rfl

/-- A deadline that is not armed. -/
@[simp] theorem Blocks.whenDue_none (s : Blocks) (f : Blocks → Blocks) : s.whenDue none f = s := rfl

theorem Blocks.whenDue_early (s : Blocks) (d : Nat) (f : Blocks → Blocks) (h : s.tmb.uptime < d) : s.whenDue (some d) f = s := by
  simp [Blocks.whenDue, Nat.not_le.mpr h]

theorem Blocks.whenDue_due (s : Blocks) (d : Nat) (f : Blocks → Blocks) (h : d ≤ s.tmb.uptime) : s.whenDue (some d) f = f s := by
  simp [Blocks.whenDue, h]

/-! ## What follows an event's own changes -/

@[simp] theorem PassCauses.any_noCauses : noCauses.any = false := rfl

/-- Without a trigger there is no pass. -/
theorem Blocks.runDuePass_of_none (s : Blocks) (h : s.due = noCauses) : s.runDuePass = s := by
  simp [Blocks.runDuePass, h]

/-- Outside RELEASE_WAIT every field of the model's bay record is one of Table 1-2. -/
theorem BayRec.listed_of_not_releaseWait (r : BayRec) (h : ∀ x, r.state ≠ .releaseWait x) : r.listed = r := by
  unfold BayRec.listed
  split
  · exact absurd ‹_› (h _)
  · rfl

/-- In RELEASE_WAIT whether the slot is still open is no field of Table 1-2. -/
theorem BayRec.listed_slotOpen (r : BayRec) (x : Release) (o : Bool) :
    BayRec.listed { r with state := .releaseWait { x with slotOpen := o } } = BayRec.listed { r with state := .releaseWait x } := rfl

/-- An event that leaves the motion state's code, the feed, the bays and the charger as they are publishes no page. -/
theorem Blocks.publishChanges_of_same (s old : Blocks) (hm : motionCode old.mot.state = motionCode s.mot.state)
    (he : energyChanged old s = false) : s.publishChanges old = s := by
  simp [Blocks.publishChanges, hm, he]

@[simp] theorem energyChanged_self (s : Blocks) : energyChanged s s = false := by simp [energyChanged]

/-- An event whose own changes are none changes nothing, where no trigger waits and the charger is settled. -/
theorem Blocks.runEvent_of_same (s : Blocks) (core : Blocks → Blocks) (h : core s = s) (hd : s.due = noCauses)
    (hc : ChargerSettled s.toPower) : s.runEvent core id = s := by
  have hr : s.withPower s.toPower.reassign = s := by rw [Power.reassign_of_settled _ hc]; rfl
  unfold Blocks.runEvent
  dsimp only
  rw [h, hr, Blocks.runDuePass_of_none s hd]
  exact Blocks.publishChanges_of_same s s rfl (energyChanged_self s)

/-- An event without a trigger is its own changes, the charger re-evaluated, and the pages. -/
theorem Blocks.runEvent_of_no_pass (s : Blocks) (core : Blocks → Blocks) (post : Front → Front) (h : (core s).due = noCauses) :
    s.runEvent core post
      = (((core s).withPower (core s).toPower.reassign).withFront (post (core s).toFront)).publishChanges s := by
  unfold Blocks.runEvent
  dsimp only
  rw [Blocks.runDuePass_of_none]
  · rfl
  · exact h

/-- The pages that an event brings: what they can write. -/
theorem Blocks.publishChanges_frame (s old : Blocks) :
    s.publishChanges old = { s with
      mem := (s.publishChanges old).mem
      gens := { s.gens with energy := (s.publishChanges old).gens.energy, motion := (s.publishChanges old).gens.motion } }
    ∧ keepsOutside [pageRange .motion, pageRange .energy] s.mem (s.publishChanges old).mem
    ∧ (Memory.wf s.mem = true → Memory.wf (s.publishChanges old).mem = true) := by
  have hm : keepsOutside [pageRange .motion, pageRange .energy] s.mem s.publishMotion.mem :=
    keepsOutside_mono (s.toFront.publish_frame .motion _).1 (by simp)
  have he : ∀ x : Blocks, keepsOutside [pageRange .motion, pageRange .energy] x.mem x.publishEnergy.mem := fun x =>
    keepsOutside_mono (x.toFront.publish_frame .energy _).1 (by simp)
  unfold Blocks.publishChanges
  dsimp only
  split
  · split
    · exact ⟨rfl, he s, fun w => wf_writeBytes _ _ w⟩
    · exact ⟨rfl, keepsOutside_refl _ _, id⟩
  · split
    · exact ⟨rfl, keepsOutside_trans hm (he _), fun w => wf_writeBytes _ _ (wf_writeBytes _ _ w)⟩
    · exact ⟨rfl, hm, fun w => wf_writeBytes _ _ w⟩

/-! ## A pass -/

/-- The pass's own record and BLC's intake: everything of the bays, FHU, HLD and the host's side stands. -/
theorem Blocks.takeResults_frame (s : Blocks) (b : BudgetRec) :
    (s.takeResults b).toPower = s.toPower ∧ (s.takeResults b).bud = b ∧ (s.takeResults b).mot = s.mot
    ∧ (s.takeResults b).sfe = s.sfe ∧ (s.takeResults b).timers = s.timers ∧ (s.takeResults b).powered = s.powered
    ∧ (s.takeResults b).blc = { s.blc with
        pendingDuty := b.dCmd, ceiling := b.ceiling
        liveDuty := if b.causes.emergency then min s.blc.liveDuty b.ceiling else s.blc.liveDuty } := by
  refine ⟨rfl, rfl, rfl, rfl, rfl, rfl, ?_⟩
  unfold Blocks.takeResults
  dsimp only
  split <;> rfl

/-- The four events of a pass: what they can write. -/
theorem Blocks.sendPassEvents_step (s : Blocks) : s.toFront.RecordStep s.sendPassEvents.toFront := by
  have hf : ∀ (os : List Occurrence) (f : Front), f.RecordStep (os.foldl Front.sendEvent f) := by
    intro os
    induction os with
    | nil => exact fun f => .refl f
    | cons o os ih => exact fun f => (f.sendEvent_step o).trans (ih _)
  exact (hf _ _).trans (Front.publishMonitors_step _)

/-! ## Reset -/

/-- The exchange area after reset is in its canonical form. -/
theorem wf_reset : Memory.wf State.reset.mem = true := by decide +kernel

end Sys2Proof.Machine
end

