-- ==== Sys2Proof/Tests/Slice0.lean ====
section
/-! SUPPORT. The model's own tests: ill-formed commands are told apart, a worked figure of the manual for each family, and, for every statement with hypotheses, a state that meets them together. -/

-- One theorem at a time: a hundred evaluations side by side ask for a thread's stack each.
set_option Elab.async false

namespace Sys2Proof.Tests

open Sys2Proof.Machine Sys2Proof.Safety

/-! ## States to test on -/

/-- Right after power-on reset. -/
def base : State := .reset

/-- The pins driven. -/
def driven (s : State) : State := { s with pins := derivePins s.toBlocks }

/-- The time. -/
def atTime (s : State) (u : Nat) : State := { s with tmb := { s.tmb with uptime := u } }

/-- The identity and the pack state of a healthy pack (the figures of 12.2). -/
def ident : Identity := ⟨0x1122334455667788, 1, 4, 5000, 60000, 30000, 16800, 100⟩
def pack (soc : Nat) (t : Int) : PackState := ⟨15000, 1000, t, soc, 1000, 10, 0, none⟩

/-- Both bays and the feed as given, at an uptime, the reservoir charged. -/
def bays (a b : BayState) (k : FeedKind) (u : Nat) : State :=
  { atTime base u with
    bayA := { base.bayA with state := a, identity := some ident, packState := some (pack 15 500), presence := true }
    bayB := { base.bayB with state := b, identity := some ident, packState := some (pack 80 250), presence := true }
    feed := { base.feed with kind := k, dcPresent := decide (k = .dc), eAvail := 963900 } }

/-- The loads of 12.2. -/
def load : PowerReading := ⟨31500, 8100, 0, 0, 15000, 2000, 15000, 100, 10800⟩

/-- A button's release in a sub-state over a former state. -/
def release (sub : SubState) (f : FormerState) : Release := ⟨sub, f, noFaults, .button, false, 100, 15100, none⟩

/-- The same asked for by software in slot 4, DC as its takeover source. -/
def software (sub : SubState) (f : FormerState) : Release := ⟨sub, f, noFaults, .software 4, true, 100, 15100, some .dc⟩

/-- Bay A in such a release under DC, slot 4 in flight. -/
def asked (sub : SubState) (f : FormerState) : State :=
  { bays (.releaseWait (software sub f)) .empty .dc 200 with inFlight := [⟨4, 1, true, 7⟩] }

/-- A SOFTWARE hold stands on a target, with its lines. -/
def latched (g : Target) (s : State) : State :=
  let es := s.hld.entries.set 0 (some ⟨.software, g, 500, 0, some 3000⟩)
  { s with hld := { s.hld with entries := es, wait := if g = .storage then some (s.tmb.uptime + 50) else none } }

/-- The latch of bay A reads open. -/
def ajar (s : State) : State := { s with bayA := { s.bayA with latchOpen := true } }

/-- The reservoir is empty. -/
def drained (s : State) : State := { s with feed := { s.feed with eAvail := 0 } }

/-- Bay A HELD over STANDBY in a holdover. -/
def returning : State :=
  { bays (.releaseWait (release .held .standby)) .empty .reservoir 200 with
    feed := { base.feed with holdover := some ⟨true, 100, false⟩, lean := true, eAvail := 900000 } }

/-- A bay in a state other than RELEASE_WAIT, or other than OPEN. -/
theorem bare {s : State} {b : Bay} {st : BayState} (h : (s.bay b).state = st) (k : ∀ r, st ≠ .releaseWait r) (r : Release) :
    (s.bay b).state ≠ .releaseWait r := fun e => k r (h.symm.trans e)
theorem shut {s : State} {b : Bay} {st : BayState} (h : (s.bay b).state = st) (k : ∀ u, st ≠ .opened u) (u : Nat) :
    (s.bay b).state ≠ .opened u := fun e => k u (h.symm.trans e)

/-- The exchange is enabled. -/
def enabled (s : State) : State := { s with exchangeEnable := true }

/-- A posting in slot 4. -/
def post4 : Posting := ⟨4, true, 7⟩

/-- The next state's answer to a question; false where the command stops. -/
def after (c : Instr) (s : State) (q : State → Bool) : Bool :=
  match exec c s with
  | .next t => q t
  | _ => false

/-! ## Ill-formed commands -/

theorem wellFormed_refuses_reading : (Instr.powerSenseSample (some ⟨2 ^ 32, 0, 0, 0, 0, 0, 0, 0, 0⟩)).wellFormed = false := by decide
theorem wellFormed_refuses_lux : (Instr.ambientSample 120001).wellFormed = false := by decide
theorem wellFormed_refuses_axis : (Instr.accelSample 0 (-16001) 0).wellFormed = false := by decide
theorem wellFormed_refuses_offset : (Instr.hostMemoryWrite 16381 (.four 0)).wellFormed = false := by decide
theorem wellFormed_refuses_known_kind : (Instr.unknownRequest post4 14).wellFormed = false := by decide
theorem no_word_spells_a_command : decodeTableWord 8 1 = none := rfl

/-! ## Worked figures of the manual -/

/-- R175, Table 11-3: the start. -/
theorem test_reset_record : base.log.writeIndex = 1 ∧ base.summary = 0x80 ∧ base.feed.kind = .reservoir := by decide +kernel

/-- R42 and R43 (2.7.1): 963,900 mJ, the plan at P_lean 23,775 mW, and 33 s at 24,000 mW. -/
theorem test_holdover_plan : availableEnergy 20000 4500 10800 = 963900 ∧ Loads.lean ⟨31500, 8100, 9600, 40⟩ 0 = 23775
    ∧ planResult { base.feed with eAvail := 963900 } 150000 23775 = .pass ∧ remainingHoldover 963900 150000 24000 = 33 := by decide +kernel

/-- Tables 4-5 and 4-6: the stages of a pass on a bay feed, without holds and with a fall's holds. -/
theorem test_pass_stages : packPower 60000 (tFactor 500) (sFactor 15) = 36000 ∧ usablePower 36000 10 = 32400
    ∧ rawAllowance 32400 23400 7000 = 2000 ∧ allowedDuty 9000 9600 = 960 ∧ allowedDuty 2000 9600 = 213
    ∧ cappedFlag 960 984 960 1024 = some .budget := by decide

/-- 5.2.1: the filter's steps, up and down and the least step. -/
theorem test_filter : filterStep 64 8 82500 5000 = 80079 ∧ filterStep 64 8 77733 100000 = 83299 ∧ filterStep 64 8 5010 5000 = 5009
    ∧ filterStep 64 8 5000 5003 = 5001 := by decide

/-- 5.3.2: the host curve at 85,000 lux, the bias and the target duty. -/
theorem test_curve : evalCurve [⟨0, 60⟩, ⟨500, 200⟩, ⟨5000, 500⟩, ⟨50000, 1000⟩, ⟨100000, 1400⟩] 85000 = 1280
    ∧ requestedNits .auto 1280 5 400 = 1344 ∧ targetDuty 1344 1400 = 984 := by decide

/-- Table 6-7: fall time and height on both sides of a band. -/
theorem test_fall_height : fallTime 396 = 247 ∧ fallHeight 247 = 299 ∧ fallHeight (fallTime 2400) = 11032 := by decide

/-- R110: the worked peaks. -/
theorem test_peak : floorSqrt 241000000 = 15524 ∧ floorSqrt 31290000 = 5593 ∧ dominantAxis ⟨-2000, 500, -5200⟩ = .minusZ := by decide

/-- R5 by hand: 17 bytes that sum to 0 modulo 256, and that do not. -/
theorem test_checksum : checksumGood (BitVec.ofNat 136 (1 + 255 * 256 ^ 16)) = true ∧ checksumGood 1 = false := by decide +kernel

/-- R169 by hand: SUMMARY is cleared by 1 in the byte written only. -/
theorem test_summary_clear : clearedSummary 0x83 ⟨1#4, 0x80⟩ = 0x03 ∧ clearedSummary 0x83 ⟨2#4, 0x80⟩ = 0x83 := by decide

/-- R31: DC arrival in the start-up condition moves the feed. -/
theorem test_dc_arrival : after .dcArrival (atTime base 50) (fun t => decide (t.feed.kind = .dc) && t.pins.switches.dc) = true := by decide +kernel

/-- R174, Table 11-2: the keep-alive supply fails. -/
theorem test_keep_alive_fail : after .keepAliveFail base (fun t => !t.powered && t.pins.latchLockA) = true := by decide +kernel

/-- R14: a release request on an EMPTY bay completes NOTHING_TO_RELEASE. -/
theorem test_release_empty :
    after (.releaseBay post4 0) (enabled base) (fun t => decide (readBytes t.mem (slotAt 4) 4 = [3, 1, 1, 0]
      ∧ t.inFlight = [] ∧ t.summary &&& 1 = 1)) = true := by decide +kernel

/-- R52, R60: a SOFTWARE hold on STORAGE raises the quiesce line and the wait. -/
theorem test_place_hold :
    after (.placeHold post4 2 500 3) (enabled base) (fun t => t.pins.quiesce && decide (t.hld.wait = some 50)) = true := by decide +kernel

/-- Table 10-1: a host write past the area faults. -/
theorem test_write_outside : exec (.hostMemoryWrite 16384 (.one 1)) base = .fault .outsideExchangeArea := rfl
/-- R169: what the window reads right after reset; a read across two registers. -/
theorem test_read_window : base.toFront.readWindow 0 4 = [0x80, 0, 0, 0] ∧ base.toFront.readWindow 0x10 4 = [1, 1, 0xA0, 0x31]
    ∧ base.toFront.readWindow 0x12 4 = [0xA0, 0x31, 0, 0] ∧ base.toFront.readWindow 0x1C 4 = [0, 0, 0, 0] := by decide +kernel

/-- R171, Table 11-3: the first conversion of the power sense is at 10 ms, the next at 20 ms. -/
theorem test_power_period : after (.powerSenseSample (some load)) (atTime base 9) (fun t => decide (t.sfe.powerHealth = .none)) = true
    ∧ after (.powerSenseSample (some load)) (atTime base 10) (fun t => decide (t.sfe.powerHealth = .valid ∧ t.timers.powerSense = 20)) = true := by
  decide +kernel

/-- R49: an adopted E_shut waits for the next recomputation of E_avail. -/
theorem test_shutdown_energy_waits : after (.setReservoir post4 20000 4500 400000 25000) (enabled base)
    (fun t => decide (t.feed.eShut = 400000 ∧ t.fhu.eShutInForce = 150000)) = true := by decide +kernel

/-! ## States that meet the hypotheses of the statements -/

/-- A command at the front; an empty queue. -/
theorem witness_StepRunsTheQueueOrCountsTime : ({ base with pending := [.dcArrival, .frameStart] } : State).pending = .dcArrival :: [.frameStart] ∧ base.pending = [] :=
  ⟨rfl, rfl⟩

/-- The last four bytes of the area. -/
theorem witness_EveryCommandCompletesInsideTheArea : (Instr.hostMemoryWrite 16380 (.four 7)).wellFormed = true :=
  by decide

/-- An unpowered part and a command. -/
theorem witness_UnpoweredPartDoesNothing : ({ base with powered := false } : State).powered = false ∧ Instr.dcArrival.wellFormed = true
    ∧ (∀ a b, Instr.dcArrival ≠ .powerOnReset a b) ∧ Instr.dcArrival ≠ .keepAliveFail :=
  ⟨rfl, rfl, nofun, nofun⟩

/-- A period that is one millisecond away. -/
theorem witness_DeadlinesWaitForTheirUptime_armed : deadlineOf (atTime base 99) .periodicTimer = some (some 100) ∧ (∀ n, some 100 = some n → (atTime base 99).tmb.uptime < n)
    ∧ (atTime base 99).powered = true ∧ Settled (atTime base 99) ∧ PinsDriven (atTime base 99) ∧ ChargerSettled (atTime base 99).toPower :=
  ⟨rfl, fun n h => by cases h; decide +kernel, rfl, rfl, (by decide +kernel : (atTime base 99).pins = _), rfl⟩

/-- A deadline that is not armed; the first events of R175 and the periods of the conversions. -/
theorem witness_DeadlinesWaitForTheirUptime_unarmed : deadlineOf base (.pollDue .A) = some none ∧ deadlineOf base (.presenceClosed .A) = some (some 200)
    ∧ deadlineOf base .dcArrival = some (some 50) ∧ deadlineOf base (.powerSenseSample none) = some (some 10)
    ∧ deadlineOf base (.thermistorReading 0) = some (some 100) :=
  ⟨rfl, rfl, rfl, rfl, rfl⟩

/-- An EMPTY bay, at the earliest moment. -/
theorem witness_SeatedBaysAreIdentifiedAnew_closed : Ready (atTime base 200) ∧ ((atTime base 200).bay .A).state = .empty ∧ 200 ≤ (atTime base 200).tmb.uptime :=
  ⟨⟨rfl, rfl⟩, rfl, by decide +kernel⟩

/-- An OPEN window that ends now. -/
theorem witness_SeatedBaysAreIdentifiedAnew_window : Ready (bays (.opened 50) .empty .reservoir 50) ∧ ((bays (.opened 50) .empty .reservoir 50).bay .A).state = .opened 50
    ∧ 50 ≤ (bays (.opened 50) .empty .reservoir 50).tmb.uptime :=
  ⟨⟨rfl, rfl⟩, rfl, by decide +kernel⟩

/-- A STANDBY bay under DC. -/
theorem witness_PresenceOpeningEmptiesTheBay_standby : Ready (bays .standby .empty .dc 50) ∧ (bays .standby .empty .dc 50).feed.kind ≠ feedOf .A
    ∧ ((bays .standby .empty .dc 50).bay .A).state ≠ .empty ∧ (∀ r, ((bays .standby .empty .dc 50).bay .A).state ≠ .releaseWait r)
    ∧ notTarget (bays .standby .empty .dc 50) .A :=
  ⟨⟨rfl, rfl⟩, by decide, by decide, bare (st := .standby) rfl nofun, nofun⟩

/-- A software release, its slot in flight. -/
theorem witness_PresenceOpeningEmptiesTheBay_release : Ready (asked (.unlatching 600) .standby) ∧ (asked (.unlatching 600) .standby).feed.kind ≠ feedOf .A
    ∧ ((asked (.unlatching 600) .standby).bay .A).state = .releaseWait (software (.unlatching 600) .standby)
    ∧ owedBy (asked (.unlatching 600) .standby) (software (.unlatching 600) .standby) = some ⟨4, 1, true, 7⟩ :=
  ⟨⟨rfl, rfl⟩, by decide, rfl, by decide +kernel⟩

/-- An EMPTY bay, its presence as debounced last open and closed. -/
theorem witness_PresenceOpeningEmptiesTheBay_empty : Ready base ∧ ChargerSettled base.toPower ∧ PinsDriven base ∧ (base.bay .A).state = .empty
    ∧ (base.bay .A).presence = false
    ∧ ({ base with bayA := { base.bayA with presence := true } } : State).bayA.presence = true :=
  ⟨⟨rfl, rfl⟩, rfl, (by decide +kernel : base.pins = _), rfl, rfl, rfl⟩

/-- A STANDBY bay under DC, its latch closed; a hold on its latch; its latch open. -/
theorem witness_ButtonStartsAndCancelsReleases_start : Ready (bays .standby .empty .dc 50) ∧ notTarget (bays .standby .empty .dc 50) .A
    ∧ ((bays .standby .empty .dc 50).bay .A).state.former = some .standby ∧ (bays .standby .empty .dc 50).feed.kind ≠ feedOf .A
    ∧ ((bays .standby .empty .dc 50).bay .A).latchOpen = false ∧ (bays .standby .empty .dc 50).hld.demand .A = false
    ∧ (latched .latchA (bays .standby .empty .dc 50)).hld.demand .A = true
    ∧ ((ajar (bays .standby .empty .dc 50)).bay .A).latchOpen = true :=
  ⟨⟨rfl, rfl⟩, nofun, rfl, by decide, rfl, by decide +kernel, by decide +kernel, rfl⟩

/-- A bay in TRANSFER. -/
theorem witness_ButtonStartsAndCancelsReleases_transfer : Ready (bays (.releaseWait (release (.transfer false) .standby)) .standby .dc 200)
    ∧ ((bays (.releaseWait (release (.transfer false) .standby)) .standby .dc 200).bay .A).state = .releaseWait (release (.transfer false) .standby)
    ∧ (release (.transfer false) .standby).sub = .transfer false :=
  ⟨⟨rfl, rfl⟩, rfl, rfl⟩

/-- A HELD software release under DC. -/
theorem witness_ButtonStartsAndCancelsReleases_quiet : Ready (asked .held .standby) ∧ ((asked .held .standby).bay .A).state = .releaseWait (software .held .standby)
    ∧ (∀ c, (software .held .standby).sub ≠ .transfer c) ∧ settlesQuietly (asked .held .standby) (software .held .standby) :=
  ⟨⟨rfl, rfl⟩, rfl, nofun, fun _ => ⟨by decide, rfl⟩⟩

/-- A HELD bay, the only candidate, in a holdover. -/
theorem witness_ButtonStartsAndCancelsReleases_choice : Ready returning ∧ (returning.bay .A).state = .releaseWait (release .held .standby)
    ∧ (release .held .standby).former = .standby ∧ returning.feed.kind = .reservoir ∧ returning.feed.dcPresent = false
    ∧ (returning.bay (otherBay .A)).candidate = false ∧ (returning.bay .A).packState.isSome = true ∧ 5 ≤ (returning.bay .A).soc
    ∧ (∀ h, returning.feed.holdover = some h → h.exhausted = false) :=
  ⟨⟨rfl, rfl⟩, rfl, rfl, rfl, rfl, by decide +kernel, by decide +kernel, by decide +kernel, fun h k => by cases k; rfl⟩

/-- A bay in UNLATCHING, by the button without a takeover source, by software with one. -/
theorem witness_LatchOpeningOpensTheBay_unlatching : Ready (bays (.releaseWait (release (.unlatching 600) .standby)) .standby .dc 200)
    ∧ ((bays (.releaseWait (release (.unlatching 600) .standby)) .standby .dc 200).bay .A).state = .releaseWait (release (.unlatching 600) .standby)
    ∧ (release (.unlatching 600) .standby).sub = .unlatching 600 ∧ (release (.unlatching 600) .standby).takeover = none
    ∧ Ready (asked (.unlatching 600) .standby)
    ∧ ((asked (.unlatching 600) .standby).bay .A).state = .releaseWait (software (.unlatching 600) .standby)
    ∧ (software (.unlatching 600) .standby).takeover = some .dc :=
  ⟨⟨rfl, rfl⟩, rfl, rfl, rfl, ⟨rfl, rfl⟩, rfl, rfl⟩

/-- A STANDBY bay whose sense opens. -/
theorem witness_LatchOpeningOpensTheBay_elsewhere : Ready (bays .standby .empty .dc 50) ∧ ((bays .standby .empty .dc 50).bay .A).latchOpen ≠ true
    ∧ (∀ r u, ((bays .standby .empty .dc 50).bay .A).state = .releaseWait r → r.sub ≠ .unlatching u) :=
  ⟨⟨rfl, rfl⟩, by decide, fun r _ e => absurd e (bare (st := .standby) rfl nofun r)⟩

/-- A software release still HELD at its limit. -/
theorem witness_BayDeadlinesAct_limit : Ready (atTime (asked .held .standby) 15100)
    ∧ ((atTime (asked .held .standby) 15100).bay .A).state = .releaseWait (software .held .standby) ∧ (software .held .standby).sub = .held
    ∧ (software .held .standby).limitAt ≤ (atTime (asked .held .standby) 15100).tmb.uptime
    ∧ settlesQuietly (atTime (asked .held .standby) 15100) (software .held .standby) :=
  ⟨⟨rfl, rfl⟩, rfl, rfl, by decide +kernel, fun _ => ⟨by decide, rfl⟩⟩

/-- An unlatch wait that ends with the latch closed. -/
theorem witness_BayDeadlinesAct_unlatch : Ready (atTime (asked (.unlatching 600) .standby) 600)
    ∧ ((atTime (asked (.unlatching 600) .standby) 600).bay .A).state = .releaseWait (software (.unlatching 600) .standby)
    ∧ (software (.unlatching 600) .standby).sub = .unlatching 600 ∧ 600 ≤ (atTime (asked (.unlatching 600) .standby) 600).tmb.uptime
    ∧ ((atTime (asked (.unlatching 600) .standby) 600).bay .A).latchOpen = false :=
  ⟨⟨rfl, rfl⟩, rfl, rfl, by decide +kernel, rfl⟩

/-- A bay SEATED at its deadline. -/
theorem witness_BayDeadlinesAct_identification : Ready (bays (.seated 2000) .empty .dc 2000) ∧ ((bays (.seated 2000) .empty .dc 2000).bay .A).state = .seated 2000
    ∧ 2000 ≤ (bays (.seated 2000) .empty .dc 2000).tmb.uptime :=
  ⟨⟨rfl, rfl⟩, rfl, by decide +kernel⟩

/-- A blink that ends. -/
theorem witness_BayDeadlinesAct_blink : Ready ({ atTime base 2000 with bayA := { base.bayA with blinkEnd := some 2000 } } : State)
    ∧ (({ atTime base 2000 with bayA := { base.bayA with blinkEnd := some 2000 } } : State).bay .A).blinkEnd = some 2000 ∧ 2000 ≤ ({ atTime base 2000 with bayA := { base.bayA with blinkEnd := some 2000 } } : State).tmb.uptime :=
  ⟨⟨rfl, rfl⟩, rfl, by decide +kernel⟩

/-- A bay A whose link does something, at 60 ms. -/
def linking (st : BayState) (a : LinkActivity) (poll : Option Nat) : State :=
  { bays st .empty .dc 60 with linkA := ⟨a, 0, 0, 0, poll⟩ }

/-- A reply whose bytes sum to 0 modulo 256. -/
def goodReply : BitVec 136 := BitVec.ofNat 136 (1 + 255 * 256 ^ 16)

/-- Block 0 arrives good at the last moment. -/
theorem witness_LinkTransactionsFollowTheirOrder_good : Ready (linking (.seated 2000) (.identRead 0 false 50) none) ∧ ChargerSettled (linking (.seated 2000) (.identRead 0 false 50) none).toPower
    ∧ ((linking (.seated 2000) (.identRead 0 false 50) none).link .A).activity = .identRead 0 false 50
    ∧ (linking (.seated 2000) (.identRead 0 false 50) none).tmb.uptime ≤ 50 + 10 ∧ ((List.range 17).map (blockByte goodReply)).sum % 256 = 0 :=
  ⟨⟨rfl, rfl⟩, rfl, rfl, by decide +kernel, by decide +kernel⟩

/-- A bad block arrives. -/
theorem witness_LinkTransactionsFollowTheirOrder_bad : ((linking (.seated 2000) (.identRead 0 false 50) none).link .A).activity = .identRead 0 false 50
    ∧ (linking (.seated 2000) (.identRead 0 false 50) none).tmb.uptime ≤ 50 + 10 ∧ ((List.range 17).map (blockByte (1 : BitVec 136))).sum % 256 ≠ 0 :=
  ⟨rfl, by decide +kernel, by decide +kernel⟩

/-- Both timeouts, the retry and the poll, each at its first moment. -/
theorem witness_LinkTransactionsFollowTheirOrder_times : (((linking .standby (.pollRead 3 false 50) (some 260)).link .A).activity = .pollRead 3 false 50
      ∧ 50 + 10 ≤ (linking .standby (.pollRead 3 false 50) (some 260)).tmb.uptime)
    ∧ (((linking (.seated 2000) (.identRead 3 true 50) none).link .A).activity = .identRead 3 true 50
      ∧ 50 + 10 ≤ (linking (.seated 2000) (.identRead 3 true 50) none).tmb.uptime)
    ∧ (((linking (.seated 2000) (.identWait 3 60) none).link .A).activity = .identWait 3 60 ∧ 60 ≤ (linking (.seated 2000) (.identWait 3 60) none).tmb.uptime)
    ∧ (((linking .standby .idle (some 60)).link .A).activity = .idle ∧ ((linking .standby .idle (some 60)).link .A).pollAt = some 60
      ∧ 60 ≤ (linking .standby .idle (some 60)).tmb.uptime) :=
  ⟨⟨rfl, by decide +kernel⟩, ⟨rfl, by decide +kernel⟩, ⟨rfl, by decide +kernel⟩, rfl, rfl, by decide +kernel⟩

/-- Bay A SEATED, block 1 awaited, block 0 with this many cells. -/
def judging (cells : Nat) : State :=
  { linking (.seated 2000) (.identRead 1 false 50) none with
    linkA := ⟨.identRead 1 false 50, BitVec.ofNat 128 (cells * 256 ^ 9 + 1000 * 256 ^ 10 + 150000 * 256 ^ 13), 0, 0, none⟩ }

/-- The identity of that block 0 and the good reply. -/
def judged (cells : Nat) : Identity := decodeIdentity ((judging cells).link .A).block0 (goodReply.extractLsb' 0 128)

/-- Block 1 arrives good: the identity is valid at the ends of its ranges, and one cell beyond them. -/
theorem witness_LinkTransactionsFollowTheirOrder_identity : ((judging 6).bay .A).state = .seated 2000
    ∧ ((judging 6).link .A).activity = .identRead 1 false 50 ∧ (judging 6).tmb.uptime ≤ 50 + 10
    ∧ (within 1 6 (judged 6).cells ∧ within 1000 200000 (judged 6).designCapacity ∧ within 5000 150000 (judged 6).packMax)
    ∧ ((judging 6).bay .A).identity ≠ some (judged 6) ∧ ¬ within 1 6 (judged 7).cells :=
  ⟨rfl, rfl, by decide +kernel, by unfold within; decide +kernel, by decide +kernel, by unfold within; decide +kernel⟩

/-- The repeat of a poll, timed out at its first moment, on a bay under DC with so many failed polls. -/
def failing (st : BayState) (n : Nat) : State :=
  let s := linking st (.pollRead 2 true 50) (some 260)
  { s with bayA := { s.bayA with failedPolls := n }, assignment := if st = .standby then some .A else none }

/-- The second and the third failed poll, in STANDBY, in FAULT(THERMAL) and beneath a release. -/
theorem witness_LinkTransactionsFollowTheirOrder_lost : Ready (failing .standby 2) ∧ ChargerSettled (failing .standby 2).toPower
    ∧ ((failing .standby 2).link .A).activity = .pollRead 2 true 50 ∧ 50 + 10 ≤ (failing .standby 2).tmb.uptime
    ∧ ((failing .standby 1).bay .A).failedPolls < 2 ∧ ((failing .standby 2).bay .A).failedPolls = 2
    ∧ (failing .standby 2).feed.kind ≠ feedOf .A ∧ ((failing .standby 2).bay .A).state = .standby ∧ notTarget (failing .standby 2) .A
    ∧ ((failing (.fault .thermal) 2).bay .A).state = .fault .thermal
    ∧ ((failing (.releaseWait (release .held .standby)) 2).bay .A).state = .releaseWait (release .held .standby)
    ∧ (release .held .standby).former ≠ .fault .pack ∧ (release .held .standby).former ≠ .fault .link :=
  ⟨⟨rfl, rfl⟩, (by decide +kernel : _ = _), rfl, by decide +kernel, by decide +kernel, rfl, by decide, rfl, nofun, rfl, rfl, by decide, by decide⟩

/-- Bay A SEATED, its last block awaited, its pack at 40 %. -/
def identifying : State :=
  { linking (.seated 2000) (.identRead 3 false 50) none with
    linkA := ⟨.identRead 3 false 50, 0, 0, BitVec.ofNat 128 (40 * 2 ^ 48), none⟩ }

/-- The last block of an identification arrives good, under DC; in a holdover, the pack with charge. -/
theorem witness_GoodBlocksFillThePackState_identified : Ready identifying ∧ (identifying.bay .A).state = .seated 2000
    ∧ (identifying.link .A).activity = .identRead 3 false 50 ∧ identifying.tmb.uptime ≤ 50 + 10 ∧ checksumGood goodReply = true
    ∧ (decodePackState (identifying.link .A).block2 (goodReply.extractLsb' 0 128) none).faultFlags &&& 0x0F = 0
    ∧ (decodePackState (identifying.link .A).block2 (goodReply.extractLsb' 0 128) none).temperature < 600
    ∧ identifying.feed.kind ≠ .reservoir ∧ identifying.feed.pending = ⟨false, false⟩
    ∧ ({ identifying with feed := returning.feed } : State).feed.kind = .reservoir
    ∧ 5 ≤ (decodePackState (identifying.link .A).block2 (goodReply.extractLsb' 0 128) none).soc
    ∧ (∀ h, ({ identifying with feed := returning.feed } : State).feed.holdover = some h → h.exhausted = false) :=
  ⟨⟨rfl, rfl⟩, rfl, rfl, by decide +kernel, by decide +kernel, by decide +kernel, by decide +kernel, by decide, rfl, rfl, by decide +kernel,
    fun h k => by cases k; rfl⟩

/-- A reply for block 3 whose pack reports a fault flag. -/
def sickReply : BitVec 136 := BitVec.ofNat 136 (256 ^ 2 + 255 * 256 ^ 16)

/-- Bay A in a state with a read of block 3 in progress, its pack at this temperature and 40 %. -/
def warm (st : BayState) (a : LinkActivity) (t : Nat) : State :=
  { linking st a none with linkA := ⟨a, 0, 0, BitVec.ofNat 128 (t * 2 ^ 32 + 40 * 2 ^ 48), none⟩ }

/-- What a reply then tells of the pack. -/
def told (st : BayState) (a : LinkActivity) (t : Nat) (r : BitVec 136) : PackState :=
  decodePackState ((warm st a t).link .A).block2 (r.extractLsb' 0 128) none

/-- The end of an identification with a fault flag, and at 600 dC. -/
theorem witness_GoodBlocksFillThePackState_faulty : checksumGood sickReply = true
    ∧ (told (.seated 2000) (.identRead 3 false 50) 250 sickReply).faultFlags &&& 0x0F ≠ 0
    ∧ (told (.seated 2000) (.identRead 3 false 50) 600 goodReply).faultFlags &&& 0x0F = 0
    ∧ 600 ≤ (told (.seated 2000) (.identRead 3 false 50) 600 goodReply).temperature
    ∧ Ready (warm (.seated 2000) (.identRead 3 false 50) 600) ∧ ((warm (.seated 2000) (.identRead 3 false 50) 600).bay .A).state = .seated 2000 :=
  ⟨by decide +kernel, by decide +kernel, by decide +kernel, by decide +kernel, ⟨rfl, rfl⟩, rfl⟩

/-- A holdover that is exhausted, its record deferred and its ENERGY hold standing, an acknowledgement awaited. -/
def spent (s : State) : State :=
  { s with
    feed := { base.feed with holdover := some ⟨true, 100, true⟩, lean := true, causes := ⟨false, false, true⟩ }
    fhu := { s.fhu with deferredEnd := some ⟨32, true⟩ }
    hld := { base.hld with
      entries := base.hld.entries.set 0 (some ⟨.energy, .storage, 4000, 32000, none⟩), wait := some 32150, outcome := .pending } }

/-- A pack identified in an exhausted holdover. -/
theorem witness_GoodBlocksFillThePackState_exhausted : Ready (spent identifying) ∧ ((spent identifying).bay .A).state = .seated 2000
    ∧ (spent identifying).feed.kind = .reservoir ∧ (spent identifying).feed.holdover = some ⟨true, 100, true⟩
    ∧ (⟨true, 100, true⟩ : Holdover).exhausted = true ∧ (spent identifying).drops = [] :=
  ⟨⟨rfl, rfl⟩, rfl, rfl, rfl, rfl, rfl⟩

/-- The last block of a poll arrives good. -/
theorem witness_GoodBlocksFillThePackState_polled : Ready (linking .standby (.pollRead 3 false 50) none)
    ∧ (linking .standby (.pollRead 3 false 50) none).feed.kind = .dc ∧ (linking .standby (.pollRead 3 false 50) none).feed.pending = ⟨false, false⟩
    ∧ ((linking .standby (.pollRead 3 false 50) none).bay .A).state = .standby
    ∧ ((linking .standby (.pollRead 3 false 50) none).link .A).activity = (.pollRead 3 false 50) ∧ (linking .standby (.pollRead 3 false 50) none).tmb.uptime ≤ 50 + 10 ∧ checksumGood goodReply = true
    ∧ (decodePackState ((linking .standby (.pollRead 3 false 50) none).link .A).block2 (goodReply.extractLsb' 0 128) (some (linking .standby (.pollRead 3 false 50) none).tmb.uptime)).faultFlags &&& 0x0F = 0
    ∧ (decodePackState ((linking .standby (.pollRead 3 false 50) none).link .A).block2 (goodReply.extractLsb' 0 128) (some (linking .standby (.pollRead 3 false 50) none).tmb.uptime)).temperature < 600
    ∧ ((linking .standby (.pollRead 3 false 50) none).bay .A).packState ≠ some (decodePackState ((linking .standby (.pollRead 3 false 50) none).link .A).block2 (goodReply.extractLsb' 0 128) (some (linking .standby (.pollRead 3 false 50) none).tmb.uptime)) :=
  ⟨⟨rfl, rfl⟩, rfl, rfl, rfl, rfl, by decide +kernel, by decide +kernel, by decide +kernel, by decide +kernel, by decide +kernel⟩

/-- The state of a release over FAULT(THERMAL). -/
def overThermal : BayState := .releaseWait (release .held (.fault .thermal))

/-- Polls of a bay that is not the feed: a fault flag, 600 dC, just below 550 dC and 550 dC, in STANDBY, in FAULT(THERMAL) and beneath
releases over STANDBY and over FAULT(THERMAL). -/
theorem witness_GoodBlocksFillThePackState_found : Ready (warm .standby (.pollRead 3 true 50) 600) ∧ notTarget (warm .standby (.pollRead 3 true 50) 600) .A
    ∧ (warm .standby (.pollRead 3 true 50) 600).feed.kind ≠ feedOf .A ∧ (warm .standby (.pollRead 3 true 50) 600).feed.pending = ⟨false, false⟩
    ∧ ((warm .standby (.pollRead 3 true 50) 600).bay .A).state = .standby
    ∧ ((warm (.fault .thermal) (.pollRead 3 true 50) 549).bay .A).state = .fault .thermal
    ∧ ((warm overThermal (.pollRead 3 true 50) 549).bay .A).state = overThermal
    ∧ ((warm (.releaseWait (release .held .standby)) (.pollRead 3 true 50) 600).bay .A).state = .releaseWait (release .held .standby)
    ∧ (told .standby (.pollRead 3 true 50) 600 goodReply).faultFlags &&& 0x0F = 0 ∧ 600 ≤ (told .standby (.pollRead 3 true 50) 600 goodReply).temperature
    ∧ (told .standby (.pollRead 3 true 50) 549 goodReply).temperature < 550 ∧ ¬ (told .standby (.pollRead 3 true 50) 550 goodReply).temperature < 550
    ∧ (release .held .standby).former ≠ .fault .pack ∧ (release .held .standby).former ≠ .fault .thermal
    ∧ monitorsOff (warm .standby (.pollRead 3 true 50) 600) :=
  ⟨⟨rfl, rfl⟩, nofun, by decide, rfl, rfl, rfl, rfl, rfl, by decide +kernel, by decide +kernel, by decide +kernel, by decide +kernel,
    by decide, by decide, by unfold monitorsOff; decide +kernel⟩

/-- A feeding bay A, bay B as given; light and loads of 12.2. -/
def fed (b : BayState) (dc : Bool) (loads : PowerReading) : State :=
  { bays (.feeding noFaults) b .bayA 200 with
    feed := { base.feed with kind := .bayA, dcPresent := dc, eAvail := 963900 }
    sfe := { base.sfe with power := loads } }

/-- A takeover of bay A by the reservoir in flight. -/
def taking (u : Nat) : State :=
  { bays (.releaseWait (release (.transfer false) .feeding)) .empty .bayA u with
    feed := { base.feed with kind := .bayA, switchover := some ⟨.reservoir, .takeover, 220⟩, eAvail := 963900 } }

/-- A feed bay without a hold, and each source that can take over; none, the reservoir empty. -/
theorem witness_ButtonOnTheFeedPlansATakeover : Ready (fed .standby true load) ∧ ((fed .standby true load).bay .A).state = .feeding noFaults
    ∧ (fed .standby true load).feed.kind = feedOf .A ∧ (fed .standby true load).feed.switchover = none ∧ (fed .standby true load).hld.demand .A = false
    ∧ sourceFor (fed .standby true load) .A true = some .dc ∧ sourceFor (fed .standby false load) .A true = some .bayB
    ∧ sourceFor (fed .empty false load) .A true = some .reservoir ∧ sourceFor (drained (fed .empty false load)) .A true = none :=
  ⟨⟨rfl, rfl⟩, rfl, rfl, rfl, by decide +kernel, by decide +kernel, by decide +kernel, by decide +kernel, by decide +kernel⟩

/-- A healthy feed bay. -/
theorem witness_DcArrivalTakesTheFeed_bay : Ready (fed .standby false load) ∧ ((fed .standby false load).bay .A).state = .feeding noFaults ∧ (fed .standby false load).feed.kind = feedOf .A
    ∧ (fed .standby false load).feed.switchover = none ∧ 50 ≤ (fed .standby false load).tmb.uptime :=
  ⟨⟨rfl, rfl⟩, rfl, rfl, rfl, by decide +kernel⟩

/-- A holdover under way, the reservoir near its end, at 32,100 ms. -/
def holding : State :=
  { atTime base 32100 with
    feed := { base.feed with holdover := some ⟨true, 100, false⟩, lean := true, eAvail := 160000 }
    sfe := { base.sfe with power := load } }

/-- A holdover that is not exhausted. -/
theorem witness_DcArrivalTakesTheFeed_holdover : Ready holding ∧ holding.feed.kind = .reservoir ∧ holding.feed.switchover = none
    ∧ holding.feed.holdover = some ⟨true, 100, false⟩ ∧ (⟨true, 100, false⟩ : Holdover).exhausted = false ∧ 50 ≤ holding.tmb.uptime :=
  ⟨⟨rfl, rfl⟩, rfl, rfl, rfl, rfl, by decide +kernel⟩

/-- An exhausted holdover, its record deferred. -/
theorem witness_DcArrivalTakesTheFeed_exhausted : Ready (spent holding) ∧ (spent holding).feed.kind = .reservoir ∧ (spent holding).feed.switchover = none
    ∧ (spent holding).feed.holdover = some ⟨true, 100, true⟩ ∧ (⟨true, 100, true⟩ : Holdover).exhausted = true ∧ (spent holding).drops = []
    ∧ (spent holding).fhu.deferredEnd = some ⟨32, true⟩ ∧ holding.fhu.deferredEnd = none
    ∧ (∀ m, m ∈ (spent holding).monitors → m.pending = none) ∧ 50 ≤ (spent holding).tmb.uptime :=
  ⟨⟨rfl, rfl⟩, rfl, rfl, rfl, rfl, rfl, rfl, rfl, by decide +kernel, by decide +kernel⟩

/-- DC as the feed; the loss choice is the reservoir, and the bay. -/
theorem witness_UnplannedLossesMoveTheFeedAtOnce_dc : Ready (bays .empty .empty .dc 200) ∧ (bays .empty .empty .dc 200).feed.kind = .dc ∧ (bays .empty .empty .dc 200).feed.holdover = none ∧ (bays .empty .empty .dc 200).feed.switchover = none
    ∧ FeedKind.reservoir = ({ (bays .empty .empty .dc 200).toPower with feed := { (bays .empty .empty .dc 200).feed with dcPresent := false } } : Power).choose
    ∧ FeedKind.bayB = ({ (bays .empty .standby .dc 200).toPower with feed := { (bays .empty .standby .dc 200).feed with dcPresent := false } } : Power).choose :=
  ⟨⟨rfl, rfl⟩, rfl, rfl, rfl, by decide +kernel, by decide +kernel⟩

/-- A feed bay, feeding for 5 ms and more; in a release; the choice, the other bay or the reservoir. -/
theorem witness_UnplannedLossesMoveTheFeedAtOnce_bay : Ready (fed .standby false load) ∧ (fed .standby false load).feed.kind = feedOf .A
    ∧ ((fed .standby false load).bay .A).state ≠ .empty ∧ (∀ r, ((fed .standby false load).bay .A).state ≠ .releaseWait r)
    ∧ ((fed .standby false load).bay .A).state = .feeding noFaults ∧ (fed .standby false load).fhu.collapseFrom + 5 ≤ (fed .standby false load).tmb.uptime
    ∧ ((fed .standby false load).toPower.setBay .A (emptiedBay (fed .standby false load) .A)).choose = .bayB
    ∧ ((fed .empty false load).toPower.setBay .A (emptiedBay (fed .empty false load) .A)).choose = .reservoir
    ∧ Ready (taking 219) ∧ (taking 219).feed.kind = feedOf .A ∧ ((taking 219).bay .A).state = .releaseWait (release (.transfer false) .feeding) :=
  ⟨⟨rfl, rfl⟩, rfl, by decide, bare (st := .feeding noFaults) rfl nofun, rfl, by decide +kernel, by decide +kernel, by decide +kernel, ⟨rfl, rfl⟩, rfl, rfl⟩

/-- A bay that is not the feed. -/
theorem witness_UnplannedLossesMoveTheFeedAtOnce_other : base.powered = true ∧ PinsDriven base ∧ base.feed.kind ≠ feedOf .A :=
  ⟨rfl, (by decide +kernel : base.pins = _), by decide⟩

/-- The last millisecond before the deadline: the release goes on, its latch free; a hold placed meanwhile; the other targets. -/
theorem witness_TakeoversAreConfirmedOrReverted_confirmed : Ready (taking 219) ∧ (taking 219).feed.kind = feedOf .A
    ∧ (taking 219).feed.switchover = some ⟨.reservoir, .takeover, 220⟩ ∧ (⟨.reservoir, .takeover, 220⟩ : Switchover).target ≠ feedOf .A
    ∧ ((taking 219).bay .A).state = .releaseWait (release (.transfer false) .feeding) ∧ (taking 219).timers.powerSense ≤ (taking 219).tmb.uptime
    ∧ (taking 219).tmb.uptime < 220 ∧ delivers load (taking 219).feed.vMin .reservoir ∧ (taking 219).feed.dcPresent = false
    ∧ (taking 219).feed.holdover = none ∧ (release (.transfer false) .feeding).sub = .transfer false
    ∧ (taking 219).hld.demand .A = false ∧ ((taking 219).bay .A).latchOpen = false
    ∧ (latched .latchA (taking 219)).hld.demand .A = true ∧ (taking 219).tmb.uptime < (release (.transfer false) .feeding).limitAt
    ∧ delivers { load with vDc := 9000 } (taking 219).feed.vMin .dc ∧ delivers load (taking 219).feed.vMin .bayB :=
  ⟨⟨rfl, rfl⟩, rfl, rfl, by decide, rfl, by decide +kernel, by decide +kernel, (by decide +kernel : _ < _), rfl, rfl, rfl, by decide +kernel,
    rfl, by decide +kernel, by decide +kernel, (by decide : 9000 ≤ 9000), (by decide +kernel : 5500 ≤ load.vB ∧ 0 < load.iB)⟩

/-- The other bay takes over from a software release with a cancel pending. -/
def crossing : State :=
  { bays (.releaseWait (software (.transfer true) .feeding)) .standby .bayA 219 with
    feed := { base.feed with kind := .bayA, switchover := some ⟨.bayB, .takeover, 220⟩ }
    inFlight := [⟨4, 1, true, 7⟩] }

/-- A cancel pending, the target not the reservoir. -/
theorem witness_TakeoversAreConfirmedOrReverted_cancelled : Ready crossing ∧ crossing.feed.kind = feedOf .A
    ∧ crossing.feed.switchover = some ⟨.bayB, .takeover, 220⟩ ∧ (crossing.bay .A).state = .releaseWait (software (.transfer true) .feeding)
    ∧ (software (.transfer true) .feeding).sub = .transfer true ∧ FeedKind.bayB ≠ .reservoir
    ∧ owedBy crossing (software (.transfer true) .feeding) = some ⟨4, 1, true, 7⟩ :=
  ⟨⟨rfl, rfl⟩, rfl, rfl, rfl, rfl, by decide, by decide +kernel⟩

/-- The deadline itself; the target bay's presence opens. -/
theorem witness_TakeoversAreConfirmedOrReverted_reverted : Ready (taking 220)
    ∧ (⟨.reservoir, .takeover, 220⟩ : Switchover).purpose = .takeover ∧ (release (.transfer false) .feeding).former = .feeding
    ∧ (taking 220).feed.dcPresent = false ∧ (taking 220).fhu.dueInFlight = ⟨false, false⟩ ∧ 220 ≤ (taking 220).tmb.uptime
    ∧ (software (.transfer true) .feeding).former = .feeding ∧ crossing.fhu.dueInFlight = ⟨false, false⟩
    ∧ FeedKind.bayB = feedOf (otherBay .A) ∧ (crossing.bay (otherBay .A)).state = .standby :=
  ⟨⟨rfl, rfl⟩, rfl, rfl, rfl, rfl, by decide +kernel, rfl, rfl, rfl, rfl⟩

/-- A FEEDING bay A with a block of its poll awaited; block 2 with a temperature, a charge and fault flags; the other bay as given. -/
def polling (f : FaultSet) (dC soc : Nat) (b : BayState) : State :=
  { fed b false load with
    bayA := { base.bayA with state := .feeding f, identity := some ident, packState := some (pack 15 500), failedPolls := 2, presence := true }
    linkA := ⟨.pollRead 3 true 195, 0, 0, BitVec.ofNat 128 (dC * 2 ^ 32 + soc * 2 ^ 48), none⟩ }

/-- A good last block with a fault flag. -/
def faultReply : BitVec 136 := BitVec.ofNat 136 (256 ^ 2 + 255 * 256 ^ 16)

/-- What such a poll brings with a good last block. -/
def found (f : FaultSet) (dC soc : Nat) : PackState :=
  decodePackState ((polling f dC soc .empty).link .A).block2 (goodReply.extractLsb' 0 128) (some 200)

/-- A fault flag, 600 dC, 3 % of charge, cooling to below 550 dC; each with the last block in time. -/
theorem witness_FeedPackFindingsSeekAMove_polled : Ready (polling noFaults 600 40 .empty) ∧ (polling noFaults 600 40 .empty).feed.kind = feedOf .A
    ∧ ((polling noFaults 600 40 .empty).bay .A).state = .feeding noFaults
    ∧ ((polling noFaults 600 40 .empty).link .A).activity = .pollRead 3 true 195 ∧ (polling noFaults 600 40 .empty).tmb.uptime ≤ 195 + 10
    ∧ checksumGood goodReply = true ∧ (polling noFaults 600 40 .empty).feed.switchover = none
    ∧ (polling noFaults 600 40 .empty).feed.pending = ⟨false, false⟩
    ∧ ((found noFaults 600 40).faultFlags &&& 0x0F = 0 ∧ 600 ≤ (found noFaults 600 40).temperature ∧ 3 < (found noFaults 600 40).soc)
    ∧ (checksumGood faultReply = true
      ∧ (decodePackState ((polling noFaults 250 40 .empty).link .A).block2 (faultReply.extractLsb' 0 128) none).faultFlags &&& 0x0F ≠ 0)
    ∧ ((found noFaults 599 3).temperature < 600 ∧ (found noFaults 599 3).soc ≤ 3)
    ∧ byOther (polling noFaults 599 3 .standby) .A = true ∧ byOther (polling noFaults 599 3 .empty) .A = false
    ∧ ((found ⟨false, true, false⟩ 549 4).temperature < 550 ∧ 3 < (found ⟨false, true, false⟩ 549 4).soc)
    ∧ (∀ m, m ∈ (polling noFaults 600 40 .empty).monitors → m.config.enable = false) :=
  ⟨⟨rfl, rfl⟩, rfl, rfl, rfl, by decide +kernel, by decide +kernel, rfl, rfl, by decide +kernel, by decide +kernel, by decide +kernel,
    by decide +kernel, by decide +kernel, by decide +kernel, by decide +kernel⟩

/-- The third failed poll. -/
theorem witness_FeedPackFindingsSeekAMove_link : Ready (atTime (polling noFaults 250 40 .empty) 205)
    ∧ ((atTime (polling noFaults 250 40 .empty) 205).link .A).activity = .pollRead 3 true 195
    ∧ 195 + 10 ≤ (atTime (polling noFaults 250 40 .empty) 205).tmb.uptime
    ∧ ((atTime (polling noFaults 250 40 .empty) 205).bay .A).failedPolls = 2 ∧ noFaults.link = false :=
  ⟨⟨rfl, rfl⟩, rfl, by decide +kernel, rfl, rfl⟩

/-- A move pending while the other bay is identified. -/
def relieved : State :=
  { polling ⟨true, false, false⟩ 250 40 (.seated 2000) with
    linkB := ⟨.identRead 3 false 195, 0, 0, BitVec.ofNat 128 (250 * 2 ^ 32 + 40 * 2 ^ 48), none⟩
    feed := { (fed .empty false load).feed with pending := ⟨true, false⟩ } }

/-- The pack the other bay is identified with qualifies. -/
theorem witness_FeedPackFindingsSeekAMove_other : Ready relieved ∧ relieved.feed.kind = feedOf .A ∧ (relieved.bay .A).state = .feeding ⟨true, false, false⟩
    ∧ (relieved.bay (otherBay .A)).state = .seated 2000 ∧ (relieved.link (otherBay .A)).activity = .identRead 3 false 195
    ∧ relieved.tmb.uptime ≤ 195 + 10 ∧ relieved.feed.switchover = none ∧ relieved.feed.dcPresent = false
    ∧ relieved.feed.pending ≠ ⟨false, false⟩
    ∧ (let k := decodePackState (relieved.link (otherBay .A)).block2 (goodReply.extractLsb' 0 128) none
      k.faultFlags &&& 0x0F = 0 ∧ k.temperature < 600 ∧ 5 ≤ k.soc
        ∧ relieved.sfe.power.pSys ≤ ({ relieved.bay (otherBay .A) with packState := some k } : BayRec).power) :=
  ⟨⟨rfl, rfl⟩, rfl, rfl, rfl, rfl, by decide +kernel, rfl, rfl, by decide +kernel, by decide +kernel⟩

/-- A fault move to the reservoir, a millisecond before its deadline. -/
theorem witness_FeedPackFindingsSeekAMove_moved :
    let s : State := { atTime (polling ⟨true, false, false⟩ 250 40 .empty) 219 with feed := (taking 219).feed }
    Ready s ∧ s.feed.kind = feedOf .A ∧ (s.bay .A).state = .feeding ⟨true, false, false⟩
    ∧ s.feed.switchover = some ⟨.reservoir, .takeover, 220⟩ ∧ s.timers.powerSense ≤ s.tmb.uptime ∧ s.tmb.uptime < 220
    ∧ delivers load s.feed.vMin .reservoir ∧ s.feed.dcPresent = false ∧ s.feed.holdover = none
    ∧ (⟨true, false, false⟩ : FaultSet) ≠ noFaults :=
  ⟨⟨rfl, rfl⟩, rfl, rfl, rfl, by decide +kernel, by decide +kernel, (by decide +kernel : _ < _), rfl, rfl, by decide⟩

/-- No holdover, no switchover, the first conversion; a bad sample wants the pins driven. -/
theorem witness_PowerSampleMeasuresTheReservoir : Ready (atTime base 10) ∧ ChargerSettled (atTime base 10).toPower ∧ (atTime base 10).feed.holdover = none
    ∧ (atTime base 10).feed.switchover = none ∧ (atTime base 10).timers.powerSense ≤ (atTime base 10).tmb.uptime ∧ PinsDriven (atTime base 10) :=
  ⟨⟨rfl, rfl⟩, rfl, rfl, rfl, by decide +kernel, (by decide +kernel : (atTime base 10).pins = _)⟩

/-- A holdover; a sample above V_min that leaves E_shut or less, no wait running; the same while one runs; one above. -/
theorem witness_ExhaustionHoldsStorageAndAsksForShutdown : Ready holding ∧ holding.feed.kind = .reservoir ∧ holding.feed.holdover = some ⟨true, 100, false⟩
    ∧ holding.feed.switchover = none ∧ holding.timers.powerSense ≤ holding.tmb.uptime ∧ (⟨true, 100, false⟩ : Holdover).exhausted = false
    ∧ (0 < energyOf holding { load with vRes := 5900 } ∧ energyOf holding { load with vRes := 5900 } ≤ holding.feed.eShut)
    ∧ positionOf .energy .storage holding.hld.entries = none ∧ freePosition holding.hld.entries = some 0 ∧ holding.drops = []
    ∧ holding.fhu.deferredEnd = none ∧ holding.hld.quiesce = false
    ∧ (∀ m, m ∈ holding.monitors → m.config.enable = false)
    ∧ holding.feed.eShut < energyOf holding load ∧ ChargerSettled holding.toPower :=
  ⟨⟨rfl, rfl⟩, rfl, rfl, rfl, by decide +kernel, rfl, by decide +kernel, by decide +kernel, by decide +kernel, rfl, rfl, by decide +kernel,
    by decide +kernel, by decide +kernel, rfl⟩

/-- The acknowledge line high, so that the record is written; a wait running, so that it is deferred. -/
theorem witness_ExhaustionHoldsStorageAndAsksForShutdown_waits :
    let waits (h : HoldTable) : Bool := if h.quiesce then h.wait.isSome else !h.ackLine
    waits { holding.hld with ackLine := true } = false ∧ waits (latched .storage holding).hld = true :=
  ⟨by decide +kernel, by decide +kernel⟩

/-- The first moment of each loss. -/
theorem witness_SensorReadingsAndLossesAreJudged_lost : (driven (atTime base 1000)).powered = true ∧ PinsDriven (driven (atTime base 1000))
    ∧ (driven (atTime base 50)).sfe.powerGoodAt + 50 ≤ (driven (atTime base 50)).tmb.uptime
    ∧ (driven (atTime base 1000)).sfe.thermGoodAt + 1000 ≤ (driven (atTime base 1000)).tmb.uptime
    ∧ (driven (atTime base 500)).blc.lastSampleAt.getD 0 + 500 ≤ (driven (atTime base 500)).tmb.uptime :=
  ⟨rfl, rfl, by decide +kernel, by decide +kernel, by decide +kernel⟩

/-- The ends of the range, and just past them, before and after a loss, at the first conversion. -/
theorem witness_SensorReadingsAndLossesAreJudged_thermistor : (atTime base 100).powered = true ∧ PinsDriven (atTime base 100)
    ∧ (atTime base 100).timers.thermistor ≤ (atTime base 100).tmb.uptime ∧ (-400 : Int) ≤ -400 ∧ (-400 : Int) ≤ 1500 ∧ ((-401 : Int) < -400 ∨ (1500 : Int) < -401)
    ∧ base.sfe.thermHealth ≠ .lost ∧ ({ base with sfe := { base.sfe with thermHealth := .lost } } : State).sfe.thermHealth = .lost :=
  ⟨rfl, (by decide +kernel : (atTime base 100).pins = _), by decide +kernel, by decide, by decide, by decide, by decide +kernel, rfl⟩

/-- A SOFTWARE hold on STORAGE that expires at 3,000 ms, and a MOTION hold, at that time. -/
def held : State :=
  { atTime base 3000 with
    hld := { base.hld with
      entries := (base.hld.entries.set 0 (some ⟨.software, .storage, 500, 0, some 3000⟩)).set 1 (some ⟨.motion, .latchA, 800, 5, none⟩) }
    mot := { base.mot with state := .settle 3000, health := .valid, liftDeadline := some 3000 } }

/-- With both bays EMPTY there is no release and no OPEN bay. -/
theorem calm (s : State) (hA : s.bayA.state = .empty) (hB : s.bayB.state = .empty) :
    (∀ b r, (s.bay b).state ≠ .releaseWait r) ∧ (∀ b u, (s.bay b).state ≠ .opened u) := by
  refine ⟨fun b r h => ?_, fun b u h => ?_⟩ <;> cases b
  · exact absurd (hA.symm.trans h) nofun
  · exact absurd (hB.symm.trans h) nofun
  · exact absurd (hA.symm.trans h) nofun
  · exact absurd (hB.symm.trans h) nofun

/-- A SOFTWARE hold at its expiry. -/
theorem witness_HoldsAreRemovedAtTheirDeadlines_expiry : Ready held ∧ held.hld.expiryOf .storage = some 3000 ∧ 3000 ≤ held.tmb.uptime ∧ held.drops = []
    ∧ (∀ b r, (held.bay b).state ≠ .releaseWait r) ∧ (∀ b u, (held.bay b).state ≠ .opened u) :=
  ⟨⟨rfl, rfl⟩, by decide +kernel, by decide +kernel, rfl, calm held rfl rfl⟩

/-- A MOTION hold at the settle limit and at the lift deadline. -/
theorem witness_HoldsAreRemovedAtTheirDeadlines_motion : Ready held ∧ 3000 ≤ held.tmb.uptime ∧ held.mot.state = .settle 3000 ∧ held.mot.liftDeadline = some 3000
    ∧ (∃ e, some e ∈ held.hld.entries ∧ e.holder = .motion) ∧ held.drops = []
    ∧ (∀ b r, (held.bay b).state ≠ .releaseWait r) ∧ (∀ b u, (held.bay b).state ≠ .opened u) :=
  ⟨⟨rfl, rfl⟩, by decide +kernel, rfl, rfl, ⟨⟨.motion, .latchA, 800, 5, none⟩, by decide +kernel, rfl⟩, rfl, calm held rfl rfl⟩

/-- An acknowledgement wait that ends at 50 ms, at that time. -/
def waiting : State := { atTime base 50 with hld := { base.hld with wait := some 50, outcome := .pending } }

/-- Two DROP records and a HOLDOVER_END record wait for the outcome. -/
def deferring : State :=
  { waiting with
    drops := [⟨200, 196, 5000, false, .plusX, .plusZ, .captured, some 1, ⟨true, true, true⟩, .dc⟩,
      ⟨90, 39, 16000, true, .minusY, .plusZ, .off, none, ⟨false, false, false⟩, .dc⟩]
    fhu := { waiting.fhu with deferredEnd := some ⟨32, true⟩ } }

/-- A wait at its deadline, with nothing deferred, and with two records and one. -/
theorem witness_AcknowledgementEndsTheWait : Ready waiting ∧ ChargerSettled waiting.toPower ∧ waiting.hld.wait = some 50 ∧ waiting.drops = [] ∧ waiting.fhu.deferredEnd = none
    ∧ 50 ≤ waiting.tmb.uptime ∧ Ready deferring ∧ ChargerSettled deferring.toPower ∧ deferring.hld.wait = some 50
    ∧ deferring.fhu.deferredEnd = some ⟨32, true⟩ ∧ monitorsOff deferring ∧ deferring.drops.length + 1 ≤ deferring.log.free
    ∧ (deferring.drops[1]?).isSome = true :=
  ⟨⟨rfl, rfl⟩, rfl, rfl, rfl, rfl, by decide +kernel, ⟨rfl, rfl⟩, rfl, rfl, rfl, by unfold monitorsOff; decide +kernel, by decide +kernel, rfl⟩

/-- A SOFTWARE entry with a given placed-at. -/
def soft (n : Nat) : HoldEntry := ⟨.software, .storage, 500, n, some 9000⟩

/-- The pair stands in position 1, behind another. -/
theorem witness_PlacementFollowsTheTable_refresh : ([some ⟨.motion, .storage, 1, 2, none⟩, some (soft 3)] : List (Option HoldEntry))[1]? = some (some (soft 3))
    ∧ (soft 3).holder = (soft 7).holder ∧ (soft 3).target = (soft 7).target
    ∧ (∀ m p, m < 1 → ([some ⟨.motion, .storage, 1, 2, none⟩, some (soft 3)] : List (Option HoldEntry))[m]? = some (some p) →
      ¬ (p.holder = (soft 7).holder ∧ p.target = (soft 7).target)) :=
  ⟨rfl, rfl, rfl, fun m p h k => by
    obtain rfl : m = 0 := by omega
    cases k; decide⟩

/-- A free position below a taken one. -/
theorem witness_PlacementFollowsTheTable_new : (∀ o, some o ∈ [none, some (⟨.motion, .storage, 1, 2, none⟩ : HoldEntry)] → ¬ (o.holder = (soft 7).holder ∧ o.target = (soft 7).target))
    ∧ softwareCount [none, some (⟨.motion, .storage, 1, 2, none⟩ : HoldEntry)] < 12
    ∧ [none, some (⟨.motion, .storage, 1, 2, none⟩ : HoldEntry)][0]? = some none ∧ (∀ m, m < 0 → [none, some (⟨.motion, .storage, 1, 2, none⟩ : HoldEntry)][m]? ≠ some none) :=
  ⟨fun o h => by simp at h; subst h; decide, by decide, rfl, nofun⟩

/-- Twelve SOFTWARE entries, which only a table outside the invariant holds with three targets; all on another target. -/
theorem witness_PlacementFollowsTheTable_full : (∀ o, some o ∈ List.replicate 12 (some (⟨.software, .latchA, 1, 2, none⟩ : HoldEntry)) → ¬ (o.holder = (soft 7).holder ∧ o.target = (soft 7).target))
    ∧ (soft 7).holder = .software ∧ 12 ≤ softwareCount (List.replicate 12 (some (⟨.software, .latchA, 1, 2, none⟩ : HoldEntry))) :=
  ⟨fun o h => by simp at h; subst h; decide, rfl, by decide⟩

/-- The first periodic pass, on a feed bay. -/
theorem witness_PeriodicPassFollowsTheStages : Ready ({ bays (.feeding noFaults) .standby .bayA 100 with feed := { base.feed with kind := .bayA } } : State) ∧ ChargerSettled ({ bays (.feeding noFaults) .standby .bayA 100 with feed := { base.feed with kind := .bayA } } : State).toPower
    ∧ ({ bays (.feeding noFaults) .standby .bayA 100 with feed := { base.feed with kind := .bayA } } : State).timers.pass ≤ ({ bays (.feeding noFaults) .standby .bayA 100 with feed := { base.feed with kind := .bayA } } : State).tmb.uptime
    ∧ ({ bays (.feeding noFaults) .standby .bayA 100 with feed := { base.feed with kind := .bayA } } : State).feed.pending = ⟨false, false⟩ ∧ ({ bays (.feeding noFaults) .standby .bayA 100 with feed := { base.feed with kind := .bayA } } : State).feed.kind = feedOf .A
    ∧ (({ bays (.feeding noFaults) .standby .bayA 100 with feed := { base.feed with kind := .bayA } } : State).bay .A).identity = some ident
    ∧ (({ bays (.feeding noFaults) .standby .bayA 100 with feed := { base.feed with kind := .bayA } } : State).bay .A).packState = some (pack 15 500) :=
  ⟨⟨rfl, rfl⟩, rfl, by decide +kernel, rfl, rfl, rfl, rfl⟩

/-- The brightest reading. -/
theorem witness_AmbientSampleMovesTheTarget_sample : base.powered = true ∧ PinsDriven base ∧ 120000 ≤ 120000 :=
  ⟨rfl, (by decide +kernel : base.pins = _), Nat.le_refl _⟩

/-- The ends of the gains, a gap of one each way, and none. -/
theorem witness_AmbientSampleMovesTheTarget_filter : within 1 256 1 ∧ within 1 256 256 ∧ 99 < 100 ∧ (100 : Nat) = 100 :=
  ⟨⟨by decide, by decide⟩, ⟨by decide, by decide⟩, by decide, rfl⟩

/-- The default curve; below its second point, past its last, and on a segment's first end. -/
theorem witness_AmbientSampleMovesTheTarget_curve : defaultCurve.Pairwise (fun p q => p.lux < q.lux)
    ∧ ([⟨1, 80⟩, ⟨1000, 300⟩] : List CurvePoint).head? = some ⟨1, 80⟩ ∧ 0 < (⟨1, 80⟩ : CurvePoint).lux
    ∧ defaultCurve.getLast? = some ⟨100000, 1400⟩ ∧ (⟨100000, 1400⟩ : CurvePoint).lux ≤ 100000
    ∧ defaultCurve[1]? = some ⟨1000, 300⟩ ∧ defaultCurve[1 + 1]? = some ⟨20000, 800⟩ ∧ (⟨1000, 300⟩ : CurvePoint).lux ≤ 1000
    ∧ 1000 < (⟨20000, 800⟩ : CurvePoint).lux :=
  ⟨by decide, rfl, by decide, rfl, by decide, rfl, rfl, by decide, by decide⟩

/-- A due free-run point, a due frame watch deadline, the panel off. -/
theorem witness_DutyStepsAtPointsAndPanelLine : (atTime base 16).powered = true ∧ (atTime base 16).blc.pendingCurve = none ∧ (atTime base 16).blc.appMode = .freeRun 16
    ∧ 16 ≤ (atTime base 16).tmb.uptime ∧ (atTime base 16).blc.panelEnable = false
    ∧ ({ atTime base 16 with blc := { base.blc with appMode := .frame 16 } } : State).blc.appMode = .frame 16 :=
  ⟨rfl, rfl, rfl, by decide +kernel, rfl, rfl⟩

/-- A pending curve whose slot is in flight. -/
def curved : State :=
  { base with
    blc := { base.blc with pendingCurve := some ⟨defaultCurve, 4, false⟩ }
    inFlight := [⟨4, 5, true, 7⟩] }

/-- A pending curve whose slot is in flight, at each kind of point. -/
theorem witness_PendingCurveIsAdoptedAtAPoint : curved.powered = true ∧ curved.blc.pendingCurve = some ⟨defaultCurve, 4, false⟩
    ∧ curved.entryOf 4 = some ⟨4, 5, true, 7⟩ ∧ (atTime curved 16).blc.appMode = .freeRun 16 ∧ 16 ≤ (atTime curved 16).tmb.uptime
    ∧ ({ atTime curved 16 with blc := { curved.blc with appMode := .frame 16 } } : State).blc.appMode = .frame 16 :=
  ⟨rfl, rfl, by decide +kernel, rfl, by decide +kernel, rfl⟩

/-- MOT in NORMAL with a free-fall run. -/
def moving (n : Nat) : State :=
  { base with mot := { base.mot with state := .normal, health := .valid, freeFall := ⟨n, 5, .plusX⟩, watchDeadline := 0 } }

/-- A capture that is FILLING, one entry short. -/
def capturing (s : State) : State := { s with trc := { s.trc with state := .filling, serial := 1, written := 1015 } }

/-- A sample on the free-fall threshold; one below it that starts the run, and one that takes it one short of N_ff; one that completes a
group of four while a capture fills. -/
theorem witness_QuietSampleIsTaken : Ready (moving 47) ∧ ChargerSettled (moving 47).toPower ∧ (moving 47).mot.state = .normal ∧ (moving 47).mot.health = .valid
    ∧ axisInRange 0 = true ∧ axisInRange (-350) = true ∧ axisInRange (-349) = true
    ∧ (moving 47).mot.config.tFf ^ 2 ≤ (0 : Int).natAbs ^ 2 + (0 : Int).natAbs ^ 2 + (-350 : Int).natAbs ^ 2
    ∧ (0 : Int).natAbs ^ 2 + (0 : Int).natAbs ^ 2 + (-350 : Int).natAbs ^ 2 ≤ (moving 47).mot.config.tImp ^ 2
    ∧ (0 : Int).natAbs ^ 2 + (0 : Int).natAbs ^ 2 + (-349 : Int).natAbs ^ 2 < (moving 46).mot.config.tFf ^ 2
    ∧ (moving 46).mot.freeFall.count + 1 < (moving 46).mot.config.nFf ∧ (moving 0).mot.freeFall.count = 0
    ∧ 0 < (moving 47).mot.config.nFf ∧ (capturing (moving 47)).trc.state = .filling ∧ (capturing (moving 47)).trc.written < 1016
    ∧ (3 : Word).toNat % 4 = 3 :=
  ⟨⟨rfl, rfl⟩, rfl, rfl, rfl, by decide, by decide, by decide, by decide +kernel, by decide +kernel, by decide +kernel, by decide +kernel, rfl,
    by decide +kernel, rfl, by decide +kernel, rfl⟩

/-- The three MOTION holds stand, with another reserve, and MOT settles. -/
def settling : State :=
  { moving 47 with
    mot := { (moving 47).mot with state := .settle 5000 }
    hld := { base.hld with
      entries := [some ⟨.motion, .storage, 9, 1, none⟩, none, some ⟨.motion, .latchB, 9, 1, none⟩, some ⟨.motion, .latchA, 9, 1, none⟩]
        ++ List.replicate 12 none } }

/-- The settings of a fall with protect and trace as given. -/
def switched (p t : Bool) (s : State) : State := { s with mot := { s.mot with config := { s.mot.config with protect := p, trace := t } } }

/-- The sample that brings the run to N_ff, on an empty table with a free trace. -/
theorem witness_FallConfirmationPlacesTheHolds : Ready (moving 47) ∧ ChargerSettled (moving 47).toPower ∧ (moving 47).mot.state = .normal
    ∧ (moving 47).mot.health = .valid ∧ axisInRange 10 = true ∧ axisInRange 0 = true
    ∧ (0 : Int).natAbs ^ 2 + (0 : Int).natAbs ^ 2 + (10 : Int).natAbs ^ 2 < (moving 47).mot.config.tFf ^ 2
    ∧ MotionInRange (moving 47).mot.config ∧ (moving 47).mot.config.nFf ≤ (moving 47).mot.freeFall.count + 1
    ∧ (moving 47).mot.ring.length ≤ 256 ∧ (moving 47).mot.config.protect = true ∧ (moving 47).mot.config.trace = true
    ∧ (moving 47).trc.state = .free ∧ (moving 47).hld.entries = List.replicate 16 none ∧ (moving 47).drops = [] ∧ baysCalm (moving 47) :=
  ⟨⟨rfl, rfl⟩, rfl, rfl, rfl, by decide, by decide, by decide +kernel, by unfold MotionInRange within; decide +kernel, by decide +kernel,
    by decide +kernel, rfl, rfl, by decide +kernel, rfl, rfl, calm (moving 47) rfl rfl⟩

/-- The same from SETTLE with the holds standing; with a capture FILLING, its last entry to come, and READY; with protect and trace off,
where the table is the same after as before. -/
theorem witness_FallConfirmationPlacesTheHolds_settle : (∃ d, settling.mot.state = .settle d) ∧ HoldsDistinct settling.hld
    ∧ (∀ g, positionOf .motion g settling.hld.entries ≠ none) ∧ baysCalm settling
    ∧ (capturing settling).trc.state = .filling ∧ (capturing settling).trc.written < 1016
    ∧ (traced (capturing settling) ⟨0, 0, 10⟩).trc.state = .filling
    ∧ (traced { settling with trc := { settling.trc with state := .ready } } ⟨0, 0, 10⟩).trc.state = .ready
    ∧ (switched false false settling).mot.config.protect = false ∧ (switched false false settling).mot.config.trace = false
    ∧ MotionInRange (switched false false settling).mot.config :=
  ⟨⟨5000, rfl⟩, ⟨by decide +kernel, by decide +kernel⟩, fun g => by cases g <;> decide +kernel, calm settling rfl rfl, rfl, by decide +kernel,
    by decide +kernel, by decide +kernel, rfl, rfl, by unfold MotionInRange within; decide +kernel⟩

/-- The watch deadline itself, without a capture and with one that fills. -/
theorem witness_SampleWatchDeclaresTheLoss_loss : Ready (moving 3) ∧ ChargerSettled (moving 3).toPower ∧ (moving 3).mot.state = .normal ∧ (moving 3).mot.health = .valid
    ∧ (moving 3).mot.watchDeadline ≤ (moving 3).tmb.uptime ∧ ¬ (moving 3).trc.state = .filling
    ∧ (capturing (moving 3)).trc.state = .filling ∧ (capturing (moving 3)).trc.written ≤ 1016 :=
  ⟨⟨rfl, rfl⟩, rfl, rfl, rfl, by decide +kernel, by decide +kernel, rfl, by decide +kernel⟩

/-- The first sample. -/
theorem witness_SampleWatchDeclaresTheLoss_return : Ready base ∧ ChargerSettled base.toPower ∧ base.mot.health ≠ .valid ∧ axisInRange 16000 = true ∧ axisInRange (-16000) = true
    ∧ (∀ e, some e ∈ base.hld.entries → e.holder ≠ .motion) :=
  ⟨⟨rfl, rfl⟩, rfl, by decide +kernel, by decide, by decide, fun e h => by
    have : base.hld.entries = List.replicate 16 none := rfl
    rw [this] at h; simp at h⟩

/-- The largest m² that 32 bits hold. -/
theorem witness_ImpactsAndFallsAreRecorded_peak : 2 ^ 32 - 1 < 2 ^ 32 := by decide

/-- MOT in a state, 10 samples after a fall began, 47 of them caught, one short of a settle run. -/
def inState (st : MotionState) : State :=
  { moving 0 with mot := { (moving 0).mot with state := st, index := 9, caught := ⟨47, 4⟩, settleRun := 3199 } }

/-- A fall that began with sample 0, and a window short of its last sample. -/
def fall : Episode := ⟨0, .dc, .plusX, ⟨true, true, true⟩, .captured, some 1, 0, 0⟩
def window (n : Nat) : ImpactWindow := ⟨5, n, 16000001, ⟨4001, 0, 0⟩, false⟩

/-- An impact, a catch and the length of a fall; windows going on and ending, with a wait and without; a shock from NORMAL and from
SETTLE; the settle run, going on and full, with holds to lift. -/
theorem witness_ImpactsAndFallsAreRecorded_samples : Ready (inState (.falling fall)) ∧ ChargerSettled (inState (.falling fall)).toPower
    ∧ (inState (.falling fall)).mot.health = .valid ∧ MotionInRange (inState (.falling fall)).mot.config
    ∧ axisInRange 4001 = true ∧ axisInRange 0 = true ∧ axisInRange 1000 = true
    ∧ (inState (.falling fall)).mot.state = .falling fall ∧ (4000 : Nat) ^ 2 < (4001 : Int).natAbs ^ 2 + 0 + 0
    ∧ ((350 : Nat) ^ 2 ≤ (1000 : Int).natAbs ^ 2 + 0 + 0 ∧ (inState (.falling fall)).mot.config.nFf ≤ (inState (.falling fall)).mot.caught.count + 1)
    ∧ 2400 ≤ ((2400 : Word) - fall.fallStart).toNat
    ∧ (window 30).counted + 1 < 32 ∧ 32 ≤ (window 31).counted + 1 ∧ base.hld.wait = none ∧ waiting.hld.wait.isSome = true
    ∧ (inState (.settle 5000)).mot.state = .settle 5000
    ∧ (inState (.settle 5000)).mot.config.tSettle ≤ min 3200 ((inState (.settle 5000)).mot.settleRun + 1)
    ∧ 1 < (inState (.settle 5000)).mot.config.tSettle
    ∧ baysCalm base ∧ (∃ e, some e ∈ held.hld.entries ∧ e.holder = .motion) ∧ base.drops = [] :=
  ⟨⟨rfl, rfl⟩, rfl, rfl, by unfold MotionInRange within; decide +kernel, by decide, by decide, by decide, rfl, by decide, by decide +kernel,
    by decide, by decide, by decide, rfl, rfl, rfl, by decide +kernel, by decide +kernel, calm base rfl rfl,
    ⟨⟨.motion, .latchA, 800, 5, none⟩, by decide +kernel, rfl⟩, rfl⟩

/-- In FALLING, a sample that breaks the caught run and one that adds to it, short of N_ff and of the longest fall; in SETTLE, one below the
free-fall threshold; a capture that fills. -/
theorem witness_ImpactsAndFallsAreRecorded_runs :
    (0 : Int).natAbs ^ 2 + (0 : Int).natAbs ^ 2 + (349 : Int).natAbs ^ 2 < (inState (.falling fall)).mot.config.tFf ^ 2
    ∧ ({ inState (.falling fall) with mot := { (inState (.falling fall)).mot with caught := ⟨46, 4⟩ } } : State).mot.caught.count + 1
      < (inState (.falling fall)).mot.config.nFf
    ∧ ((inState (.falling fall)).mot.index + 1 - fall.fallStart).toNat < 2400
    ∧ (inState (.settle 5000)).mot.freeFall.count + 1 < (inState (.settle 5000)).mot.config.nFf
    ∧ (capturing (inState (.falling fall))).trc.state = .filling ∧ (capturing (inState (.falling fall))).trc.written < 1016 :=
  ⟨by decide +kernel, by decide +kernel, by decide +kernel, by decide +kernel, rfl, by decide +kernel⟩

/-- The watch deadline in a window, of either kind. -/
theorem witness_ImpactsAndFallsAreRecorded_loss : (inState (.impactShock .normal (window 3))).mot.watchDeadline ≤ (inState (.impactShock .normal (window 3))).tmb.uptime
    ∧ (∃ ret, (inState (.impactShock .normal (window 3))).mot.state = .impactShock ret (window 3))
    ∧ (∃ e, (inState (.impactDrop fall (window 3))).mot.state = .impactDrop e (window 3))
    ∧ (∀ m, m ∈ base.monitors → m.config.enable = false) ∧ 2 ≤ base.log.free :=
  ⟨by decide +kernel, ⟨.normal, rfl⟩, ⟨fall, rfl⟩, by decide +kernel, by decide +kernel⟩

/-- A monitor at its last count, and an occurrence at its threshold. -/
def counting : Monitor := { powerOnMonitor with config := ⟨.drop, 2, 500, true, true, false, .none⟩, count := 0xFFFFFFFF }
def fell : Occurrence := ⟨.drop, 2, some 500⟩

/-- An occurrence that adds; with the edge memory set it does not; disabled, the monitor takes none. -/
theorem witness_MonitorTakesAnOccurrence_adds : (counting.config.kind = fell.kind ∧ counting.config.enable = true ∧ counting.frozen = false)
    ∧ (counting.config.kind = fell.kind ∧ (fell.kind.qualified = true → fell.bits &&& counting.config.mask ≠ 0)
      ∧ (∀ v, fell.value = some v → counting.config.threshold ≤ v))
    ∧ (counting.config.edge = true → counting.edgeMemory = false)
    ∧ ¬ (counting.config.edge = true → { counting with edgeMemory := true }.edgeMemory = false)
    ∧ ¬ ({ counting with frozen := true }.config.kind = fell.kind ∧ { counting with frozen := true }.config.enable = true
      ∧ { counting with frozen := true }.frozen = false) :=
  ⟨by decide, ⟨rfl, by decide, fun v h => by cases h; decide⟩, by decide, by decide, by decide⟩

/-- A pending configuration, the monitor free, then frozen. -/
theorem witness_MonitorTakesAnOccurrence_adopts : ({ counting with pending := some ⟨counting.config, some 5⟩ } : Monitor).pending = some ⟨counting.config, some 5⟩
    ∧ counting.frozen = false ∧ counting.pending = none ∧ ({ counting with frozen := true } : Monitor).frozen = true :=
  ⟨rfl, rfl, rfl, rfl⟩

/-- A monitor of incidents at its last count. -/
def brimming : Monitor := { powerOnMonitor with config := ⟨.incident, 0, 10, false, true, true, .g1⟩, count := 0xFFFFFFFF }

/-- It is monitor 2 and alone enabled, at the first moment of the ambient loss. -/
theorem witness_WrapAlertsFreezeTheirGroup :
    let s : State := { atTime base 500 with monitors := base.monitors.set 2 brimming }
    s.powered = true ∧ s.blc.ambient ≠ .stale ∧ s.blc.lastSampleAt.getD 0 + 500 ≤ s.tmb.uptime ∧ s.monitors[2]? = some brimming
    ∧ brimming.config.kind = .incident ∧ brimming.config.threshold ≤ 10 ∧ brimming.config.enable = true ∧ brimming.config.alert = true
    ∧ brimming.frozen = false ∧ brimming.edgeMemory = false ∧ brimming.count = 0xFFFFFFFF
    ∧ (∀ (j : Nat) (x : Monitor), s.monitors[j]? = some x → j ≠ 2 → x.config.enable = false) ∧ 2 ≤ s.log.free :=
  ⟨rfl, by decide +kernel, by decide +kernel, rfl, rfl, by decide, rfl, rfl, rfl, rfl, rfl,
    fun j x h n => by
      have h : (([powerOnMonitor, powerOnMonitor, brimming, powerOnMonitor, powerOnMonitor, powerOnMonitor, powerOnMonitor,
        powerOnMonitor] : List Monitor))[j]? = some x := h
      rcases j with _ | _ | _ | _ | _ | _ | _ | _ | j <;> first | exact absurd rfl n | (cases h; rfl) | (cases h),
    by decide +kernel⟩

/-- The log with so many entries unread. -/
def unread (n : Nat) : State := { base with log := ⟨BitVec.ofNat 32 n, 0, 0⟩ }

/-- The last free entry, and none. -/
theorem witness_RecordIsWrittenOrMissed : LogAccounted (unread 63).log ∧ ((unread 63).log.writeIndex - (unread 63).log.effRead).toNat < 64
    ∧ ((unread 63).log.writeIndex - (unread 63).log.effRead).toNat = 63
    ∧ LogAccounted (unread 64).log ∧ ((unread 64).log.writeIndex - (unread 64).log.effRead).toNat = 64 :=
  ⟨⟨by decide +kernel, fun _ => absurd rfl ‹_›⟩, by decide +kernel, by decide +kernel, ⟨by decide +kernel, fun _ => by decide +kernel⟩, by decide +kernel⟩

/-- A running part; the reset area's read index 0 with 1 entry unread leaves room, 64 do not. -/
theorem witness_LogReReadFreesSpace : Ready base ∧ ((unread 1).log.writeIndex - 0).toNat < 64 ∧ ¬ ((unread 64).log.writeIndex - 0).toNat < 64 ∧ LogRec.full (unread 63).log = false
    ∧ ({ base with log := ⟨64, 5, 1⟩ } : State).log.missed ≠ 0 :=
  ⟨⟨rfl, rfl⟩, by decide +kernel, by decide +kernel, by decide +kernel, by decide +kernel⟩

/-- Each period at its moment. -/
theorem witness_PagesAndCalendarKeepTheirPeriods : (driven (atTime base 1000)).powered = true ∧ PinsDriven (driven (atTime base 1000)) ∧ (driven (atTime base 1000)).timers.energyPage ≤ (driven (atTime base 1000)).tmb.uptime ∧ (driven (atTime base 1000)).timers.motionPage ≤ (driven (atTime base 1000)).tmb.uptime
    ∧ (driven (atTime base 1000)).timers.timePage ≤ (driven (atTime base 1000)).tmb.uptime
    ∧ ({ (driven (atTime base 1000)) with tmb := { (driven (atTime base 1000)).tmb with nextSecond := some 1000 } } : State).tmb.nextSecond = some 1000 :=
  ⟨rfl, rfl, by decide +kernel, by decide +kernel, by decide +kernel, rfl⟩

/-- A running part. -/
theorem witness_RegisterWritesActOnTheirBytes : base.powered = true :=
  rfl

/-- The last byte, the last two, the last four; and one past the end. -/
theorem witness_HostWriteChangesItsBytesAlone : base.powered = true ∧ PinsDriven base ∧ 16383 + 1 ≤ 16384 ∧ 16382 + 2 ≤ 16384 ∧ 16380 + 4 ≤ 16384
    ∧ 16384 < 16384 + (WriteData.one 1).size :=
  ⟨rfl, (by decide +kernel : base.pins = _), by decide, by decide, by decide, by decide⟩

/-- A READY trace, and one that is not. -/
theorem witness_TraceReleaseFreesAReadyTrace : base.powered = true ∧ PinsDriven base ∧ ({ base with trc := { base.trc with state := .ready } } : State).trc.state = .ready
    ∧ base.trc.state ≠ .ready :=
  ⟨rfl, (by decide +kernel : base.pins = _), rfl, by decide +kernel⟩

/-- Nothing posted, and one UNKNOWN_REQUEST posted in slot 4. -/
def posting : State := enabled { base with mem := writeBytes base.mem (slotAt 4) [1, 0, 1] }

/-- Nothing is posted; the sweep timer at its moment. -/
theorem witness_SweepsTakeWhatIsPosted_none : (driven (atTime base 20)).powered = true ∧ PinsDriven (driven (atTime base 20)) ∧ LogAccounted base.log ∧ base.log.missed = 0
    ∧ BitVec.ofNat 32 (readField base.mem 0x0C 4) = base.log.effRead ∧ (∀ i, base.posted i = true → base.flying i = true)
    ∧ base.exchangeEnable = false ∧ base.timers.sweep ≤ (driven (atTime base 20)).tmb.uptime :=
  ⟨rfl, rfl, ⟨by decide +kernel, fun h => absurd rfl h⟩, by decide +kernel, by decide +kernel, by decide +kernel, rfl, by decide +kernel⟩

/-- One slot is posted. -/
theorem witness_SweepsTakeWhatIsPosted_one : Ready posting ∧ ChargerSettled posting.toPower ∧ LogAccounted posting.log ∧ posting.log.missed = 0
    ∧ BitVec.ofNat 32 (readField posting.mem 0x0C 4) = posting.log.effRead ∧ posting.exchangeEnable = true
    ∧ posting.posted 4 = true ∧ (∀ j, posting.posted j = true → j = 4 ∨ posting.flying j = true)
    ∧ posting.flying 4 = false ∧ readByte posting.mem (slotAt 4 + 1) = 0 :=
  ⟨⟨rfl, rfl⟩, rfl, ⟨by decide +kernel, fun h => absurd rfl h⟩, by decide +kernel, by decide +kernel, rfl, by decide +kernel, by decide +kernel,
    by decide +kernel, by decide +kernel⟩

/-- Slots 4, 9 and 20 are posted, slot 20 in flight, slot 8 the last taken: the scan goes from 9 on and wraps to 4. -/
def crowded : State :=
  { posting with
    mem := writeBytes (writeBytes posting.mem (slotAt 9) [1, 0, 1]) (slotAt 20) [1, 1, 0], lastSlot := 8, inFlight := [⟨20, 1, false, 7⟩] }

/-- Two slots are posted beside one in flight. -/
theorem witness_SweepsTakeWhatIsPosted_two : Ready crowded ∧ ChargerSettled crowded.toPower ∧ LogAccounted crowded.log ∧ crowded.log.missed = 0
    ∧ BitVec.ofNat 32 (readField crowded.mem 0x0C 4) = crowded.log.effRead ∧ crowded.exchangeEnable = true
    ∧ crowded.posted 9 = true ∧ crowded.posted 4 = true ∧ (∀ n, crowded.posted n = true → n = 9 ∨ n = 4 ∨ crowded.flying n = true)
    ∧ crowded.flying 9 = false ∧ crowded.flying 4 = false ∧ readByte crowded.mem (slotAt 9 + 1) = 0 ∧ readByte crowded.mem (slotAt 4 + 1) = 0
    ∧ ((9 : Fin 32).val + 31 - crowded.lastSlot.val) % 32 < ((4 : Fin 32).val + 31 - crowded.lastSlot.val) % 32 :=
  ⟨⟨rfl, rfl⟩, rfl, ⟨by decide +kernel, fun h => absurd rfl h⟩, by decide +kernel, by decide +kernel, rfl, by decide +kernel, by decide +kernel,
    by decide +kernel, by decide +kernel, by decide +kernel, by decide +kernel, by decide +kernel, by decide +kernel⟩

/-- Both ways to restart, with no release. -/
theorem witness_ExchangeRestartClearsTheHostSide : Ready base ∧ (∃ e, Instr.exchangeRestart true = .exchangeRestart e) ∧ Instr.hostLinkReset = .hostLinkReset ∧ base.drops = []
    ∧ HoldsBeatReleases base.toPower ∧ (∀ b r, (base.bay b).state ≠ .releaseWait r) :=
  ⟨⟨rfl, rfl⟩, ⟨true, rfl⟩, rfl, rfl, fun b h => by cases b <;> exact absurd h (by decide), (calm base rfl rfl).1⟩

/-- Bay A in a release by software in a sub-state, bay B HELD by the button, a SOFTWARE hold alone on its latch, under DC. -/
def restarting (sub : SubState) : State :=
  latched .latchB { bays (.releaseWait (software sub .standby)) (.releaseWait (release .held .standby)) .dc 200 with inFlight := [⟨4, 1, true, 7⟩] }

/-- A software release in UNLATCHING and in TRANSFER, beside a button's release that the SOFTWARE hold alone keeps HELD. -/
theorem witness_ExchangeRestartClearsTheHostSide_releases : Ready (restarting (.unlatching 600)) ∧ (restarting (.unlatching 600)).drops = []
    ∧ HoldsBeatReleases (restarting (.unlatching 600)).toPower
    ∧ (∀ b r, ((restarting (.unlatching 600)).bay b).state = .releaseWait r → settlesQuietly (restarting (.unlatching 600)) r)
    ∧ ((restarting (.unlatching 600)).bay .A).state = .releaseWait (software (.unlatching 600) .standby)
    ∧ ((restarting (.transfer false)).bay .A).state = .releaseWait (software (.transfer false) .standby)
    ∧ ((restarting (.unlatching 600)).bay .B).state = .releaseWait (release .held .standby)
    ∧ (∃ e, some e ∈ (restarting (.unlatching 600)).hld.entries ∧ e.holder = .software)
    ∧ (restarting (.unlatching 600)).feed.kind ≠ feedOf .B ∧ ((restarting (.unlatching 600)).bay .B).latchOpen = false
    ∧ (∀ e, some e ∈ (restarting (.unlatching 600)).hld.entries → e.target = latchOf .B → e.holder = .software) :=
  ⟨⟨rfl, rfl⟩, rfl, fun b h => by
      cases b
      · decide +kernel
      · exact absurd h (by decide +kernel), fun b r h k => ⟨by decide, rfl⟩, rfl, rfl, rfl,
    ⟨⟨.software, .latchB, 500, 0, some 3000⟩, by decide +kernel, rfl⟩, by decide, rfl, fun e h _ => by
      have : (restarting (.unlatching 600)).hld.entries = some ⟨.software, .latchB, 500, 0, some 3000⟩ :: List.replicate 15 none := rfl
      rw [this] at h
      simp at h
      rw [h]⟩

/-- A software release in TRANSFER with cancel already pending, no SOFTWARE hold, the charger settled: nothing changes on a page. Beside it, one whose cancellation changes its bay record. -/
theorem witness_ExchangeRestartClearsTheHostSide_unchanged :
    let s := { bays (.releaseWait (software (.transfer true) .feeding)) .standby .bayA 200 with inFlight := [⟨4, 1, true, 7⟩] }
    let u := { bays (.releaseWait (software (.transfer false) .feeding)) .standby .bayA 200 with inFlight := [⟨4, 1, true, 7⟩] }
    Ready s ∧ s.drops = [] ∧ HoldsBeatReleases s.toPower ∧ (∀ e, some e ∉ s.hld.entries) ∧ ChargerSettled s.toPower
    ∧ (s.bay .A).state = .releaseWait (software (.transfer true) .feeding) ∧ (s.bay .B).state = .standby
    ∧ (u.bay .A).state = .releaseWait (software (.transfer false) .feeding)
    ∧ energyChanged s.toBlocks s.restartJobs = false ∧ energyChanged u.toBlocks u.restartJobs = true :=
  ⟨⟨rfl, rfl⟩, rfl, fun b h => by cases b <;> exact absurd h (by decide), fun e h => by
      have : some e ∈ List.replicate 16 (none : Option HoldEntry) := h
      simp at this, rfl, rfl, rfl, rfl, by decide +kernel, by decide +kernel⟩

/-- Where a SOFTWARE hold is lifted: no monitor enabled and no HOLDOVER_END record deferred, so the RESTART record has its place. -/
theorem witness_ExchangeRestartClearsTheHostSide_recorded :
    monitorsOff (restarting (.unlatching 600)) ∧ (restarting (.unlatching 600)).fhu.deferredEnd = none
    ∧ (restarting (.unlatching 600)).log.full = false :=
  ⟨fun m h => by
      have : m ∈ List.replicate 8 powerOnMonitor := h
      rw [List.eq_of_mem_replicate this]; rfl, rfl, rfl⟩

/-- A request of every argument width, and an unknown kind at either end. -/
theorem witness_PostedRequestIsReadBackWhole : requestOf (.setMonitor post4 7 13 255 1 1 1 2 1 0xFFFFFFFF 1) = some (post4, .setMonitor 7 13 255 1 1 1 2 1 0xFFFFFFFF 1)
    ∧ (Instr.setMonitor post4 7 13 255 1 1 1 2 1 0xFFFFFFFF 1).wellFormed = true
    ∧ requestOf (.unknownRequest post4 15) = some (post4, .unknown 15) ∧ (Instr.unknownRequest post4 15).wellFormed = true
    ∧ (Instr.unknownRequest post4 0).wellFormed = true :=
  ⟨rfl, rfl, rfl, rfl, rfl⟩

/-- The exchange not enabled; enabled, with the slot in flight. -/
theorem witness_RequestWaitsWhileNotTaken : requestOf (.setTime post4 9) = some (post4, .setTime 9) ∧ base.powered = true ∧ PinsDriven base ∧ base.exchangeEnable = false
    ∧ curved.flying post4.slot = true :=
  ⟨rfl, rfl, (by decide +kernel : base.pins = _), rfl, by decide +kernel⟩

/-- An EMPTY bay, a bay in RELEASE_WAIT, an OPEN one; no SOFTWARE hold; the first bytes out of range. -/
theorem witness_RequestsWithoutEffectAreAnswered : Taken (enabled base) post4 ∧ ChargerSettled (enabled base).toPower ∧ ((enabled base).bay .A).state = .empty
    ∧ (∀ r, ((enabled base).bay .A).state ≠ .releaseWait r) ∧ positionOf .software .storage (enabled base).hld.entries = none
    ∧ (enabled base).monitors.length ≤ (8 : Byte).toNat ∧ (2 : Byte).toNat = 2 ∧ 3 ≤ (3 : Byte).toNat ∧ 15 ≤ (15 : Byte).toNat
    ∧ ((enabled (bays (.releaseWait (release .held .standby)) (.opened 900) .dc 200)).bay .A).state = .releaseWait (release .held .standby)
    ∧ ((enabled (bays (.releaseWait (release .held .standby)) (.opened 900) .dc 200)).bay .B).state = .opened 900 :=
  ⟨⟨⟨rfl, rfl⟩, rfl, by decide +kernel⟩, rfl, rfl, bare (st := .empty) rfl nofun, by decide +kernel, by decide +kernel, rfl, by decide, by decide, rfl, rfl⟩

/-- A STANDBY bay under DC; with a hold on its latch; with its latch open; a feed bay with a source. -/
theorem witness_ReleaseRequestsStartAndCancel_start : Taken (enabled (bays .standby .empty .dc 50)) post4 ∧ (enabled (bays .standby .empty .dc 50)).feed.kind ≠ feedOf .A ∧ notTarget (enabled (bays .standby .empty .dc 50)) .A
    ∧ ((enabled (bays .standby .empty .dc 50)).bay .A).state.former = some .standby ∧ ((enabled (bays .standby .empty .dc 50)).bay .A).latchOpen = false
    ∧ (latched .latchA (enabled (bays .standby .empty .dc 50))).hld.demand .A = true
    ∧ ((ajar (enabled (bays .standby .empty .dc 50))).bay .A).latchOpen = true ∧ (enabled (bays .standby .empty .dc 50)).hld.demand .A = false
    ∧ ((enabled (fed .standby false load)).bay .A).state = .feeding noFaults ∧ sourceFor (enabled (fed .standby false load)) .A true = some .bayB :=
  ⟨⟨⟨rfl, rfl⟩, rfl, by decide +kernel⟩, by decide, nofun, rfl, rfl, by decide +kernel, rfl, by decide +kernel, rfl, by decide +kernel⟩

/-- A software release of another slot to cancel, its slot in flight. -/
theorem witness_ReleaseRequestsStartAndCancel_held : Taken (enabled (asked .held .standby)) { post4 with slot := 9 }
    ∧ ((enabled (asked .held .standby)).bay .A).state = .releaseWait (software .held .standby)
    ∧ (software .held .standby).origin ≠ .software 9 ∧ (∀ c, (software .held .standby).sub ≠ .transfer c)
    ∧ settlesQuietly (enabled (asked .held .standby)) (software .held .standby) :=
  ⟨⟨⟨rfl, rfl⟩, rfl, by decide +kernel⟩, rfl, by decide, nofun, fun _ => ⟨by decide, rfl⟩⟩

/-- A button's release to cancel. -/
theorem witness_ReleaseRequestsStartAndCancel_transfer : Taken (enabled (taking 219)) post4
    ∧ ((enabled (taking 219)).bay .A).state = .releaseWait (release (.transfer false) .feeding)
    ∧ (release (.transfer false) .feeding).origin ≠ .software post4.slot ∧ (release (.transfer false) .feeding).sub = .transfer false :=
  ⟨⟨⟨rfl, rfl⟩, rfl, by decide +kernel⟩, rfl, by decide, rfl⟩

/-- No move of the feed pending. -/
theorem witness_PowerSettingsAreAdoptedClamped : Taken (enabled base) post4 ∧ ChargerSettled (enabled base).toPower ∧ (enabled base).feed.pending = ⟨false, false⟩ :=
  ⟨⟨⟨rfl, rfl⟩, rfl, by decide +kernel⟩, rfl, rfl⟩

/-- Two points staged from the first position: one curve that passes, one whose second point does not rise. -/
def staged (lux : Nat) : State :=
  enabled { base with mem := writeBytes base.mem 0x80 (leBytes 4 0 ++ leBytes 2 80 ++ leBytes 2 0 ++ leBytes 4 lux ++ leBytes 2 1400) }

/-- The staged points. -/
def stagedPoint (lux i : Nat) : CurvePoint :=
  ⟨readField (staged lux).mem (0x80 + 8 * (0 + i)) 4, readField (staged lux).mem (0x80 + 8 * (0 + i) + 4) 2⟩

/-- A staged point passes. -/
def stagedGood (lux i : Nat) : Prop :=
  (stagedPoint lux i).nits ≤ (staged lux).blc.panel.nMax
    ∧ (0 < i → (stagedPoint lux (i - 1)).lux < (stagedPoint lux i).lux ∧ (stagedPoint lux (i - 1)).nits ≤ (stagedPoint lux i).nits)

/-- The smallest curve at the first position, its count as given and clamped up to it; a curve pending from another slot, and none. -/
theorem witness_LoadedCurveIsCheckedAndPends_base : Taken (staged 1) post4 ∧ ChargerSettled (staged 1).toPower ∧ (staged 1).blc.pendingCurve = none
    ∧ min 32 (0 : Byte).toNat = 0 ∧ max 2 (min 16 (2 : Byte).toNat) = 2 ∧ max 2 (min 16 (1 : Byte).toNat) = 2 ∧ min 32 (33 : Byte).toNat = 32
    ∧ ({ staged 1 with blc := curved.blc, inFlight := curved.inFlight } : State).flying 9 = false
    ∧ ({ staged 1 with blc := curved.blc, inFlight := curved.inFlight } : State).entryOf 4 = some ⟨4, 5, true, 7⟩ :=
  ⟨⟨⟨rfl, rfl⟩, rfl, by decide +kernel⟩, rfl, rfl, by decide, by decide, by decide, by decide, by decide +kernel, by decide +kernel⟩

/-- Both points pass. -/
theorem witness_LoadedCurveIsCheckedAndPends_good : ∀ i, i < 2 → stagedGood 1 i :=
  fun i h => by
    interval_cases i
    · exact ⟨by decide +kernel, by decide⟩
    · exact ⟨by decide +kernel, fun _ => by decide +kernel⟩

/-- The first point passes, the second does not. -/
theorem witness_LoadedCurveIsCheckedAndPends_bad : 1 < 2 ∧ (∀ j, j < 1 → stagedGood 0 j) ∧ ¬ stagedGood 0 1 :=
  ⟨by decide, fun j h => by
      obtain rfl : j = 0 := by omega
      exact ⟨by decide +kernel, by decide⟩,
    fun h => absurd (h.2 (by decide)).1 (by decide +kernel)⟩

/-- A request that is taken. -/
theorem witness_LightSettingsAreAdoptedAtTheirPass : Taken (enabled base) post4 :=
  ⟨⟨rfl, rfl⟩, rfl, by decide +kernel⟩

/-- A request that is taken. -/
theorem witness_MotionSettingsAreAdoptedClamped : Taken (enabled base) post4 ∧ ChargerSettled (enabled base).toPower :=
  ⟨⟨⟨rfl, rfl⟩, rfl, by decide +kernel⟩, rfl⟩

/-- An empty table; a bay A that is OPEN, UNLATCHING before its limit, or in TRANSFER, the other EMPTY. -/
theorem witness_HoldRequestsPlaceAndLift_new : Taken (enabled base) post4 ∧ positionOf .software .latchA (enabled base).hld.entries = none ∧ softwareCount (enabled base).hld.entries < 12
    ∧ freePosition (enabled base).hld.entries = some 0 ∧ (enabled base).drops = [] ∧ baysCalm (enabled base)
    ∧ Target.latchA = latchOf .A ∧ (∀ q, (base.bay (otherBay .A)).state ≠ .releaseWait q) ∧ (∀ u, (base.bay (otherBay .A)).state ≠ .opened u)
    ∧ base.hld.demand .A = false ∧ ((enabled (bays (.opened 900) .empty .dc 200)).bay .A).state = .opened 900
    ∧ ((enabled (asked (.unlatching 600) .standby)).bay .A).state = .releaseWait (software (.unlatching 600) .standby)
    ∧ (enabled (asked (.unlatching 600) .standby)).tmb.uptime < (software (.unlatching 600) .standby).limitAt
    ∧ (∀ u, (software (.transfer false) .feeding).sub ≠ .unlatching u) :=
  ⟨⟨⟨rfl, rfl⟩, rfl, by decide +kernel⟩, by decide +kernel, by decide +kernel, by decide +kernel, rfl, calm (enabled base) rfl rfl,
    rfl, bare (st := .empty) rfl nofun, shut (st := .empty) rfl nofun, by decide +kernel, rfl, rfl, by decide +kernel, nofun⟩

/-- A SOFTWARE hold on STORAGE that stands, to refresh with its reserve or another, and to lift; a full table. -/
theorem witness_HoldRequestsPlaceAndLift_standing : Taken (enabled held) post4 ∧ positionOf .software .storage (enabled held).hld.entries = some 0
    ∧ (enabled held).hld.entries[0]? = some (some ⟨.software, .storage, 500, 0, some 3000⟩) ∧ (enabled held).drops = [] ∧ baysCalm (enabled held)
    ∧ ChargerSettled (enabled held).toPower ∧ (500 : Nat) ≠ 501
    ∧ freePosition (List.replicate 16 (some (⟨.motion, .latchA, 1, 2, none⟩ : HoldEntry))) = none
    ∧ positionOf .software .storage (List.replicate 16 (some (⟨.motion, .latchA, 1, 2, none⟩ : HoldEntry))) = none :=
  ⟨⟨⟨rfl, rfl⟩, rfl, by decide +kernel⟩, by decide +kernel, by decide +kernel, rfl, calm (enabled held) rfl rfl, rfl, by decide,
    by decide +kernel, by decide +kernel⟩

/-- A HELD bay that is not the feed, the hold to lift the only one on its latch. -/
theorem witness_HoldRequestsPlaceAndLift_unlatch :
    let s : State := enabled (latched .latchA (bays (.releaseWait (release .held .standby)) .empty .dc 200))
    Taken s post4 ∧ positionOf .software .latchA s.hld.entries = some 0 ∧ s.hld.entries[0]? = some (some ⟨.software, .latchA, 500, 0, some 3000⟩)
    ∧ s.drops = [] ∧ (s.bay .A).state = .releaseWait (release .held .standby) ∧ (release .held .standby).sub = .held
    ∧ s.feed.kind ≠ feedOf .A ∧ (s.bay .A).latchOpen = false ∧ (∀ q, (s.bay (otherBay .A)).state ≠ .releaseWait q)
    ∧ (∀ u, (s.bay (otherBay .A)).state ≠ .opened u)
    ∧ (∀ m x, s.hld.entries[m]? = some (some x) → x.target = .latchA → m = 0) :=
  ⟨⟨⟨rfl, rfl⟩, rfl, by decide +kernel⟩, by decide +kernel, by decide +kernel, rfl, rfl, rfl, by decide, rfl, bare (st := .empty) rfl nofun,
    shut (st := .empty) rfl nofun, fun m x h _ => by
      rcases m with _ | m
      · rfl
      · have h : (List.replicate 15 (none : Option HoldEntry))[m]? = some (some x) := h
        exact absurd (List.mem_of_getElem? h) (by simp)⟩

/-- The last monitor. -/
theorem witness_MonitorRequestsActOnTheNamedMonitors : Taken (enabled base) post4 ∧ ChargerSettled (enabled base).toPower ∧ (enabled base).monitors.length = 8 ∧ (7 : Byte).toNat < 8 :=
  ⟨⟨⟨rfl, rfl⟩, rfl, by decide +kernel⟩, rfl, by decide +kernel, by decide⟩

/-- A request that is taken. -/
theorem witness_SetTimeMovesTheCalendar : Taken (enabled base) post4 ∧ ChargerSettled (enabled base).toPower :=
  ⟨⟨⟨rfl, rfl⟩, rfl, by decide +kernel⟩, rfl⟩

/-- DC as the feed, a STANDBY bay, a departure of DC waiting in the queue. -/
def running : State := { driven (bays .standby .empty .dc 50) with pending := [.dcDeparture], assignment := some .A }

theorem running_steps : ∃ t, step running = .next t := ⟨_, rfl⟩

/-- One feed, and a step. -/
theorem witness_EveryStepKeepsOneFeed : OneFeed running.toPower ∧ ∃ t, step running = .next t := by
  refine ⟨⟨fun b => ?_, fun b => ?_, fun b => ?_, nofun, fun w h => ?_, nofun, rfl, fun _ => rfl, fun _ => .inl rfl⟩, running_steps⟩
  · cases b <;> decide +kernel
  · cases b <;> rfl
  · cases b <;> nofun
  · exact absurd (show (none : Option Switchover) = some w from h) nofun

/-- Bay A unlatches while a hold stands on the latch of bay B, a frame start waiting. -/
def unlatched : State :=
  { bays (.releaseWait (release (.unlatching 600) .standby)) .standby .dc 200 with
    hld := { base.hld with entries := base.hld.entries.set 0 (some ⟨.software, .latchB, 500, 0, some 3000⟩) }
    pending := [.frameStart] }

/-- A bay unlocked by its own demand, a hold on the other, and a step. -/
theorem witness_EveryStepKeepsHoldsOverReleases : HoldsBeatReleases unlatched.toPower ∧ unlocked (unlatched.bay .A).state = true
    ∧ ∃ t, step unlatched = .next t :=
  ⟨fun b h => by
    cases b
    · decide +kernel
    · exact absurd h (by decide +kernel), rfl, ⟨_, rfl⟩⟩

/-- No slot in flight and none owed, and a step. -/
theorem witness_EveryStepKeepsSlotsOwed : OneFeed running.toPower ∧ SlotsOwed running.toBlocks ∧ ∃ t, step running = .next t := by
  refine ⟨witness_EveryStepKeepsOneFeed.1, ⟨fun i => ⟨nofun, ?_⟩, fun i h => h.1, fun i h => h.1, fun i h => h.1⟩, running_steps⟩
  rintro (h | h | ⟨c, h, -⟩)
  · exact h.elim
  · exact h.elim
  · exact absurd (show (none : Option PendingCurve) = some c from h) nofun

/-- One entry unread, and a step. -/
theorem witness_EveryStepKeepsTheLogAccounted : LogAccounted running.log ∧ ∃ t, step running = .next t :=
  ⟨⟨by decide +kernel, fun h => absurd rfl h⟩, running_steps⟩

/-- An empty table without a wait, and a step. -/
theorem witness_EveryStepKeepsTheHoldTable : HoldsDistinct running.hld ∧ WaitRuns running.hld ∧ ∃ t, step running = .next t :=
  ⟨⟨by decide +kernel, by decide +kernel⟩, nofun, running_steps⟩

/-- The default panel, motion settings and policy, and a step. -/
theorem witness_EveryStepKeepsDutiesAndSettings : PanelInRange running.blc.panel ∧ DutiesInRange running.blc ∧ DarkWhenOff running.blc
    ∧ MotionInRange running.mot.config ∧ PolicyInRange running.feed running.bayPolicy ∧ ∃ t, step running = .next t :=
  ⟨by unfold PanelInRange within; decide +kernel, by unfold DutiesInRange; decide +kernel, fun _ => rfl,
    by unfold MotionInRange within; decide +kernel, by unfold PolicyInRange within; decide +kernel, running_steps⟩

/-- A canonical area, whole pages, no trigger, the pins driven, the charger settled, and a step. -/
theorem witness_EveryStepLeavesTheOutsideInOrder : MemCanonical running ∧ GensEven running.gens ∧ Settled running ∧ PinsDriven running
    ∧ ChargerSettled running.toPower ∧ ∃ t, step running = .next t :=
  ⟨(by decide +kernel : Memory.wf running.mem = true), fun p => by cases p <;> decide +kernel, rfl, by unfold PinsDriven; decide +kernel,
    (by decide +kernel : _ = _), running_steps⟩

end Sys2Proof.Tests
end

section
/-! PROOF. Backlight and ambient light: an ambient sample, the filter step and the curve (R79, R80, R83). -/

namespace Sys2Proof.Machine

open Sys2Proof.Safety

/-! ## The light record and the output signals -/

/-- A change of the light record that keeps the panel enable line and the live duty moves no output signal (Table 11-2). -/
theorem State.withBlocks_withLight (s : State) (l : LightRec) (h : s.powered = true) (hp : PinsDriven s)
    (he : l.panelEnable = s.blc.panelEnable) (hd : l.liveDuty = s.blc.liveDuty) :
    s.withBlocks (s.toBlocks.withLight l) = { s with blc := l } := by
  have pins_kept : derivePins (s.toBlocks.withLight l) = s.pins := by
    unfold PinsDriven at hp
    rw [hp, if_pos h]
    simp only [derivePins, Blocks.withLight_blc, he, hd]
    rfl
  rw [State.withBlocks, pins_kept]
  rfl

/-- R79: a sample changes the light record alone. -/
theorem exec_ambientSample (lux : Nat) (s : State) (h : s.powered = true) (hp : PinsDriven s) (hl : lux ≤ 120000) :
    exec (.ambientSample lux) s = .next { s with blc := s.blc.sample lux s.tmb.uptime } :=
  calc exec (.ambientSample lux) s
      = s.whilePowered fun x => x.withLight (x.blc.sample (min 120000 lux) x.tmb.uptime) := rfl
    _ = .next (s.withBlocks (s.toBlocks.withLight (s.blc.sample (min 120000 lux) s.tmb.uptime))) := s.whilePowered_on _ h
    _ = .next { s with blc := s.blc.sample lux s.tmb.uptime } := by
        rw [Nat.min_eq_right hl, s.withBlocks_withLight (s.blc.sample lux s.tmb.uptime) h hp rfl rfl]

/-! ## The ambient filter -/

/-- A step of the filter closes at least 1 of a gap and never more than the gap, whatever the gain up to 256. -/
theorem filterMove_within {gap k : Nat} (hg : 0 < gap) (hk : k ≤ 256) : within 1 gap (max 1 (gap * k / 256)) := by
  have share_le : gap * k / 256 ≤ gap := Nat.div_le_of_le_mul (by rw [Nat.mul_comm]; exact Nat.mul_le_mul_right gap hk)
  exact ⟨Nat.le_max_left .., Nat.max_le.mpr ⟨hg, share_le⟩⟩

/-- The gain 256 closes the whole gap. -/
theorem filterMove_full {gap : Nat} (hg : 0 < gap) : max 1 (gap * 256 / 256) = gap := by
  rw [Nat.mul_div_cancel gap (by decide)]
  exact Nat.max_eq_right hg

section
variable {kUp kDown f lux : Nat}

theorem filterStep_of_lt (h : f < lux) : filterStep kUp kDown f lux = f + max 1 ((lux - f) * kUp / 256) := if_pos h

theorem filterStep_of_gt (h : lux < f) : filterStep kUp kDown f lux = f - max 1 ((f - lux) * kDown / 256) := by
  rw [filterStep, if_neg h.asymm, if_pos h]

@[simp] theorem filterStep_self : filterStep kUp kDown f f = f := by simp [filterStep]

/-- R80, the light above the filter: it rises by the gain's share of the gap, and not past the light. -/
theorem filterStep_rises (hk : kUp ≤ 256) (h : f < lux) :
    f < filterStep kUp kDown f lux ∧ filterStep kUp kDown f lux ≤ lux ∧ (kUp = 256 → filterStep kUp kDown f lux = lux) := by
  have gap_pos : 0 < lux - f := Nat.sub_pos_of_lt h
  obtain ⟨one_le, le_gap⟩ := filterMove_within gap_pos hk
  rw [filterStep_of_lt h]
  refine ⟨by omega, by omega, ?_⟩
  rintro rfl
  rw [filterMove_full gap_pos]
  omega

/-- R80, the light below the filter: it falls by the gain's share of the gap, and not past the light. -/
theorem filterStep_falls (hk : kDown ≤ 256) (h : lux < f) :
    filterStep kUp kDown f lux < f ∧ lux ≤ filterStep kUp kDown f lux ∧ (kDown = 256 → filterStep kUp kDown f lux = lux) := by
  have gap_pos : 0 < f - lux := Nat.sub_pos_of_lt h
  obtain ⟨one_le, le_gap⟩ := filterMove_within gap_pos hk
  rw [filterStep_of_gt h]
  refine ⟨by omega, by omega, ?_⟩
  rintro rfl
  rw [filterMove_full gap_pos]
  omega

end

/-! ## The curve -/

section
variable {ps : List CurvePoint} {a p q : CurvePoint} {x : Nat}

/-- Below point 0 the curve stands at its nits. -/
theorem evalCurve_of_lt_head (hx : x < p.lux) : evalCurve (p :: ps) x = p.nits := by
  cases ps with
  | nil => rfl
  | cons q qs => exact if_pos hx

/-- Between the first two points the curve is their segment. -/
theorem evalCurve_first_segment (hp : p.lux ≤ x) (hq : x < q.lux) :
    evalCurve (p :: q :: ps) x = p.nits + (q.nits - p.nits) * (x - p.lux) / (q.lux - p.lux) := by
  rw [evalCurve, if_neg hp.not_gt, if_pos hq]

/-- In a rising curve a point matters no more once a later one is reached: the rest of the curve decides. -/
theorem evalCurve_cons_of_reached (rising : (a :: ps).Pairwise fun u v => u.lux < v.lux) (hp : p ∈ ps) (hx : p.lux ≤ x) :
    evalCurve (a :: ps) x = evalCurve ps x := by
  cases ps with
  | nil => exact absurd hp List.not_mem_nil
  | cons b bs =>
    obtain ⟨first_lt, rest_rising⟩ := List.pairwise_cons.mp rising
    have second_reached : b.lux ≤ x := by
      rcases List.mem_cons.mp hp with rfl | later
      · exact hx
      · exact (List.rel_of_pairwise_cons rest_rising later).le.trans hx
    have first_reached : a.lux ≤ x := (first_lt b List.mem_cons_self).le.trans second_reached
    rw [evalCurve, if_neg first_reached.not_gt, if_neg second_reached.not_gt]

/-- At or above its last point a rising curve stands at that point's nits. -/
theorem evalCurve_of_last_reached (rising : ps.Pairwise fun u v => u.lux < v.lux) (hp : ps.getLast? = some p) (hx : p.lux ≤ x) :
    evalCurve ps x = p.nits := by
  induction ps with
  | nil => exact nomatch hp
  | cons a ps ih =>
    cases ps with
    | nil => cases hp; rfl
    | cons b bs =>
      have last_of_rest : (b :: bs).getLast? = some p := hp
      rw [evalCurve_cons_of_reached rising (List.mem_of_getLast? last_of_rest) hx]
      exact ih rising.of_cons last_of_rest

/-- Between neighbouring points a rising curve is their segment (R83). -/
theorem evalCurve_segment (rising : ps.Pairwise fun u v => u.lux < v.lux) {i : Nat} (hp : ps[i]? = some p) (hq : ps[i + 1]? = some q)
    (hx : p.lux ≤ x) (hxq : x < q.lux) :
    evalCurve ps x = p.nits + (q.nits - p.nits) * (x - p.lux) / (q.lux - p.lux) := by
  induction ps generalizing i with
  | nil => exact nomatch hp
  | cons a ps ih =>
    rw [List.getElem?_cons_succ] at hq
    cases i with
    | zero =>
      cases ps with
      | nil => exact nomatch hq
      | cons b bs => cases hp; cases hq; exact evalCurve_first_segment hx hxq
    | succ i =>
      rw [List.getElem?_cons_succ] at hp
      rw [evalCurve_cons_of_reached rising (List.mem_of_getElem? hp) hx]
      exact ih rising.of_cons hp hq

end

/-! ## The statement -/

/-- Settles O25: the sample through the light record's own operation, the filter by the bounds of its step, and the curve by induction on
its points. -/
theorem ambientSampleMovesTheTarget : Obligations.AmbientSampleMovesTheTarget := by
  refine ⟨fun lux s powered driven inRange => ?sample, fun kUp kDown f lux up down => ?filter, fun ps x rising => ?curve⟩
  case sample =>
    rw [exec_ambientSample lux s powered driven inRange]
    rfl
  case filter =>
    refine ⟨fun h => ⟨filterStep_of_lt h, filterStep_rises up.2 h⟩, fun h => ⟨filterStep_of_gt h, filterStep_falls down.2 h⟩, ?_⟩
    rintro rfl
    exact filterStep_self
  case curve =>
    refine ⟨fun p head below => ?_, fun p last reached => evalCurve_of_last_reached rising last reached,
      fun i p q hp hq reached below => evalCurve_segment rising hp hq reached below⟩
    obtain ⟨rest, rfl⟩ := List.head?_eq_some_iff.mp head
    exact evalCurve_of_lt_head below

end Sys2Proof.Machine
end

section
/-! PROOF. Fall trace: the host's release of a READY trace (R128). -/

namespace Sys2Proof.Machine

open Sys2Proof.Safety

/-! ## The trace header in the exchange area -/

@[simp] theorem length_traceHeader (t : TraceRec) : (traceHeader t).length = 64 := by
  simp [traceHeader, layoutFrom, w16, w32, zeros]

/-- R122: the header in the area shows the record just put. -/
theorem Front.putTrace_header (f : Front) (t : TraceRec) : readBytes (f.putTrace t).mem 0x2000 64 = traceHeader t := by
  have fits : 0x2000 + (traceHeader t).length ≤ Config.areaSize := by
    rw [length_traceHeader]
    decide
  have read_back := readBytes_writeBytes_self f.mem 0x2000 (traceHeader t) fits
  rwa [length_traceHeader] at read_back

/-- Putting a trace record writes the header's 64 bytes and no other (Table 10-1). -/
theorem Front.putTrace_keepsOutside (f : Front) (t : TraceRec) : keepsOutside [(0x2000, 0x2040)] f.mem (f.putTrace t).mem :=
  keepsOutside_writeBytes f.mem 0x2000 (traceHeader t) (0x2000, 0x2040) List.mem_cons_self (Nat.le_refl _)
    (by rw [length_traceHeader])

/-! ## The release -/

theorem Front.releaseTrace_of_ready {f : Front} (h : f.trc.state = .ready) :
    f.releaseTrace = f.putTrace { f.trc with state := .free } := if_pos h

theorem Front.releaseTrace_of_not_ready {f : Front} (h : f.trc.state ≠ .ready) : f.releaseTrace = f := if_neg h

/-- Of the host-facing blocks only SUMMARY and its mask drive an output signal, the interrupt line (Table 11-2). -/
theorem State.withBlocks_withFront (s : State) (f : Front) (h : s.powered = true) (hp : PinsDriven s) (hs : f.summary = s.summary)
    (he : f.summaryEnable = s.summaryEnable) : s.withBlocks (s.toBlocks.withFront f) = { s with toFront := f } := by
  have pins_kept : derivePins (s.toBlocks.withFront f) = s.pins := by
    unfold PinsDriven at hp
    rw [hp, if_pos h]
    simp only [derivePins, Blocks.withFront_toFront, hs, he]
    rfl
  rw [State.withBlocks, pins_kept]
  rfl

/-- R167: ATTENTION.TRACE on a running part is the release alone. -/
theorem exec_attentionTrace (s : State) (h : s.powered = true) :
    exec .attentionTrace s = .next (s.withBlocks (s.toBlocks.withFront s.toFront.releaseTrace)) :=
  s.whilePowered_on (fun x => x.quiet Front.releaseTrace) h

/-! ## The statement -/

/-- Settles O39: a READY trace through the record that the release puts, any other through the release that does nothing. -/
theorem traceReleaseFreesAReadyTrace : Obligations.TraceReleaseFreesAReadyTrace := by
  intro s powered driven
  rw [exec_attentionTrace s powered]
  refine ⟨fun ready => ?ready, fun notReady => ?notReady⟩
  case ready =>
    rw [Front.releaseTrace_of_ready ready, s.withBlocks_withFront _ powered driven (Front.putTrace_summary ..) (Front.putTrace_summaryEnable ..)]
    exact ⟨_, rfl, rfl, s.toFront.putTrace_header _, s.toFront.putTrace_keepsOutside _⟩
  case notReady =>
    rw [Front.releaseTrace_of_not_ready notReady, Blocks.withFront_self, s.withBlocks_self powered driven]

end Sys2Proof.Machine
end

section
/-! PROOF. Condition monitors: one occurrence at one monitor (R131 to R133, R135) and adoption at a pass boundary (R139). -/

namespace Sys2Proof.Machine

/-! ## When an occurrence qualifies, is taken, is counted and wraps -/

theorem Monitor.qualifies_iff (m : Monitor) (o : Occurrence) :
    m.qualifies o = true ↔ m.config.kind = o.kind ∧ (o.kind.qualified = true → o.bits &&& m.config.mask ≠ 0)
      ∧ (∀ v, o.value = some v → m.config.threshold ≤ v) := by
  rw [Monitor.qualifies]
  cases o.value <;> cases o.kind.qualified <;> simp [and_assoc]

theorem Monitor.takes_iff (m : Monitor) (o : Occurrence) :
    m.takes o = true ↔ m.config.kind = o.kind ∧ m.config.enable = true ∧ m.frozen = false := by
  simp [Monitor.takes, and_assoc]

/-- R132 and R133 in one: edge mode alone asks for a clear edge memory. -/
theorem Monitor.counts_iff (m : Monitor) (o : Occurrence) :
    m.counts o = true ↔ m.takes o = true ∧ m.qualifies o = true ∧ (m.config.edge = true → m.edgeMemory = false) := by
  rw [Monitor.counts]
  cases m.config.edge <;> simp [and_assoc]

theorem Monitor.wraps_iff (m : Monitor) (o : Occurrence) : m.wraps o = true ↔ m.counts o = true ∧ m.count = 0xFFFFFFFF := by
  simp [Monitor.wraps]

theorem Monitor.wraps_of_not_counts {m : Monitor} {o : Occurrence} (h : ¬ m.counts o = true) : m.wraps o = false :=
  Bool.eq_false_iff.mpr fun wraps => h ((m.wraps_iff o).mp wraps).1

/-! ## The monitor after an occurrence -/

theorem Monitor.offer_of_takes {m : Monitor} {o : Occurrence} (h : m.takes o = true) :
    m.offer o = { m with count := if m.counts o then m.count + 1 else m.count, wrapped := m.wrapped || m.wraps o,
                         edgeMemory := m.qualifies o } := if_pos h

@[simp] theorem Monitor.offer_config (m : Monitor) (o : Occurrence) : (m.offer o).config = m.config := by
  rw [Monitor.offer]; split <;> rfl

@[simp] theorem Monitor.offer_frozen (m : Monitor) (o : Occurrence) : (m.offer o).frozen = m.frozen := by
  rw [Monitor.offer]; split <;> rfl

@[simp] theorem Monitor.offer_pending (m : Monitor) (o : Occurrence) : (m.offer o).pending = m.pending := by
  rw [Monitor.offer]; split <;> rfl

theorem Monitor.offer_edgeMemory_of_takes {m : Monitor} {o : Occurrence} (h : m.takes o = true) :
    (m.offer o).edgeMemory = m.qualifies o := by
  rw [Monitor.offer_of_takes h]

/-- R135: the count goes up modulo 2^32, and the wrapped flag once set stays set. -/
theorem Monitor.offer_of_counts {m : Monitor} {o : Occurrence} (h : m.counts o = true) :
    (m.offer o).count = m.count + 1 ∧ ((m.offer o).wrapped = true ↔ m.wrapped = true ∨ m.count = 0xFFFFFFFF) := by
  have takes := ((m.counts_iff o).mp h).1
  simp [Monitor.offer_of_takes takes, Monitor.wraps_iff, h]

theorem Monitor.offer_of_not_counts {m : Monitor} {o : Occurrence} (h : ¬ m.counts o = true) :
    (m.offer o).count = m.count ∧ (m.offer o).wrapped = m.wrapped := by
  by_cases takes : m.takes o = true
  · simp [Monitor.offer_of_takes takes, Monitor.wraps_of_not_counts h, h]
  · simp [m.offer_of_not_takes o (Bool.eq_false_iff.mpr takes)]

/-! ## Adoption at a pass boundary -/

theorem Monitor.adopt_of_pending {m : Monitor} {q : PendingConfig} (h : m.pending = some q) (free : m.frozen = false) :
    m.adopt = ⟨q.config, q.preload.getD m.count, m.wrapped && q.preload.isNone, m.frozen, false, none⟩ := by
  simp only [Monitor.adopt, h, free]
  cases q.preload <;> simp

theorem Monitor.adopt_of_not_pending {m : Monitor} (h : m.pending = none) : m.adopt = m := by
  simp [Monitor.adopt, h]

theorem Monitor.adopt_of_frozen {m : Monitor} (h : m.frozen = true) : m.adopt = m := by
  rw [Monitor.adopt]
  split
  · rfl
  · exact if_pos h

/-! ## The statement -/

/-- Settles O32: the model's tests restated as the rules' conditions, then one clause for each outcome of the offer and of the adoption. -/
theorem monitorTakesAnOccurrence : Obligations.MonitorTakesAnOccurrence := by
  refine ⟨fun m o => ?occurrence, fun m => ?boundary⟩
  case occurrence =>
    refine ⟨fun ignored => ?ignored, fun taken => ?edgeMemory, fun taken added => ?added, fun _ notAdded => ?notAdded,
      m.offer_config o, m.offer_frozen o, m.offer_pending o⟩
    case ignored => exact m.offer_of_not_takes o (Bool.eq_false_iff.mpr (mt (m.takes_iff o).mp ignored))
    case edgeMemory => rw [Monitor.offer_edgeMemory_of_takes ((m.takes_iff o).mpr taken), m.qualifies_iff o]
    case added =>
      obtain ⟨qualified, edge_clear⟩ := added
      exact Monitor.offer_of_counts ((m.counts_iff o).mpr ⟨(m.takes_iff o).mpr taken, (m.qualifies_iff o).mpr qualified, edge_clear⟩)
    case notAdded =>
      refine Monitor.offer_of_not_counts fun counted => notAdded ?_
      obtain ⟨_, qualified, edge_clear⟩ := (m.counts_iff o).mp counted
      exact ⟨(m.qualifies_iff o).mp qualified, edge_clear⟩
  case boundary =>
    refine ⟨fun q pending free => Monitor.adopt_of_pending pending free, ?_⟩
    rintro (notPending | frozen)
    · exact Monitor.adopt_of_not_pending notPending
    · exact Monitor.adopt_of_frozen frozen

end Sys2Proof.Machine
end

section
/-! PROOF. What every operation of the host-facing blocks keeps: the canonical area, even page generations, an accounted log (R148 to R151, R157). -/

namespace Sys2Proof.Machine

open Sys2Proof.Safety

/-! ## The log's count of unread entries -/

theorem LogRec.full_iff (l : LogRec) : l.full = true ↔ 64 ≤ (l.writeIndex - l.effRead).toNat := by
  simp [LogRec.full, LogRec.free, Nat.sub_eq_zero_iff_le]

/-- One more entry is one more unread, where there is room. -/
theorem unread_succ {w e : Word} (h : (w - e).toNat < 64) : (w + 1 - e).toNat = (w - e).toNat + 1 := by
  bv_omega

theorem unread_effectiveRead (w r : Word) : (w - effectiveRead w r).toNat ≤ 64 := by
  unfold effectiveRead
  dsimp only
  split
  · assumption
  · split
    · bv_omega
    · simp

/-! ## The invariants of the host's side, kept together -/

/-- Between `f` and `g` the host's side stays in order. -/
structure Front.Orderly (f g : Front) : Prop where
  area : Memory.wf f.mem = true → Memory.wf g.mem = true
  gens : GensEven f.gens → GensEven g.gens
  log  : LogAccounted f.log → LogAccounted g.log

namespace Front.Orderly

theorem refl (f : Front) : f.Orderly f := ⟨id, id, id⟩

theorem trans {f g h : Front} (a : f.Orderly g) (b : g.Orderly h) : f.Orderly h :=
  ⟨b.area ∘ a.area, b.gens ∘ a.gens, b.log ∘ a.log⟩

/-- A change of other fields alone. -/
theorem of_same {f g : Front} (hm : g.mem = f.mem) (hg : g.gens = f.gens) (hl : g.log = f.log) : f.Orderly g :=
  ⟨fun h => hm ▸ h, fun h => hg ▸ h, fun h => hl ▸ h⟩

/-- A fold of orderly steps. -/
theorem foldl {α : Type} {step : Front → α → Front} (h : ∀ (f : Front) (a : α), f.Orderly (step f a)) (as : List α) (f : Front) :
    f.Orderly (as.foldl step f) := by
  induction as generalizing f with
  | nil => exact refl f
  | cons a as ih => exact (h f a).trans (ih _)

end Front.Orderly

theorem Front.setMonitors_orderly (f : Front) (ms : List Monitor) : f.Orderly { f with monitors := ms } := .of_same rfl rfl rfl

theorem Front.setSummary_orderly (f : Front) (w : Word) : f.Orderly { f with summary := w } := .of_same rfl rfl rfl

theorem Front.setInFlight_orderly (f : Front) (es : List InFlight) : f.Orderly { f with inFlight := es } := .of_same rfl rfl rfl

theorem Front.raise_orderly (f : Front) (b : SummaryFlag) : f.Orderly (f.raise b) := .of_same rfl rfl rfl

theorem Front.write_orderly (f : Front) (a : Nat) (bs : List Byte) : f.Orderly (f.write a bs) := ⟨wf_writeBytes a bs, id, id⟩

theorem gensEven_set_succ {g : Generations} (h : GensEven g) (p : PageId) : GensEven (g.set (g.get p + 2) p) := by
  intro q
  by_cases hq : q = p
  · subst hq
    have := h q
    rw [Generations.get_set_self]
    bv_omega
  · rw [Generations.get_set_other _ _ _ _ hq]
    exact h q

theorem Front.publish_orderly (f : Front) (p : PageId) (body : List Byte) : f.Orderly (f.publish p body) :=
  ⟨wf_writeBytes _ _, fun h => gensEven_set_succ h p, id⟩

theorem Front.publishMonitors_orderly (f : Front) : f.Orderly f.publishMonitors := f.publish_orderly .monitor _

/-! ## Records -/

/-- The write index after a record is written, and nothing else of the log (R149). -/
theorem Front.writeRecord_log (f : Front) (r : LogRecord) :
    (f.writeRecord r).log = { f.log with writeIndex := f.log.writeIndex + 1 } := by
  unfold Front.writeRecord Front.raiseIfFull
  split <;> rfl

theorem Front.writeRecord_orderly (f : Front) (r : LogRecord) (room : f.log.full = false) : f.Orderly (f.writeRecord r) where
  area := (f.writeRecord_step r).wf
  gens h := by
    have kept : (f.writeRecord r).gens = f.gens := by unfold Front.writeRecord Front.raiseIfFull; split <;> rfl
    rwa [kept]
  log h := by
    have unread : (f.log.writeIndex - f.log.effRead).toNat < 64 := by
      rw [← not_le, ← f.log.full_iff, room]
      exact Bool.false_ne_true
    rw [f.writeRecord_log r]
    refine ⟨by simp only [unread_succ unread]; omega, fun missed => absurd (h.2 missed) (by omega)⟩

theorem Front.missRecord_orderly (f : Front) (full : f.log.full = true) : f.Orderly f.missRecord where
  area := f.missRecord_step.wf
  gens := id
  log h := ⟨h.1, fun _ => le_antisymm h.1 (f.log.full_iff.mp full)⟩

theorem Front.append_orderly (f : Front) (r : LogRecord) : f.Orderly (f.append r).front := by
  cases full : f.log.full
  · rw [f.append_of_room r full]
    exact f.writeRecord_orderly r full
  · rw [f.append_of_full r full]
    exact f.missRecord_orderly full

theorem alertRecords_orderly (ms : List Monitor) (as : List (Nat × Monitor)) (f : Front) :
    f.Orderly (alertRecords ms as f).1 := by
  induction as generalizing f with
  | nil => exact .refl f
  | cons a as ih => exact ((f.raise_orderly .monitorAlert).trans (Front.append_orderly _ _)).trans (ih _)

theorem Front.takeOccurrence_orderly (f : Front) (o : Occurrence) : f.Orderly (f.takeOccurrence o).1 := by
  unfold Front.takeOccurrence
  dsimp only
  have records := alertRecords_orderly f.monitors (alerting o 0 f.monitors) f
  split
  · exact (records.trans (Front.setMonitors_orderly _ _)).trans (Front.publishMonitors_orderly _)
  · exact records.trans (Front.setMonitors_orderly _ _)

theorem drainEvents_orderly (n : Nat) (os : List Occurrence) (f : Front) : f.Orderly (drainEvents n os f) := by
  induction n generalizing os f with
  | zero => exact .refl f
  | succ n ih =>
    cases os with
    | nil => exact .refl f
    | cons o os => exact (f.takeOccurrence_orderly o).trans (ih _ _)

theorem Front.sendEvent_orderly (f : Front) (o : Occurrence) : f.Orderly (f.sendEvent o) := drainEvents_orderly _ _ f

theorem Front.makeRecord_orderly (f : Front) (r : LogRecord) : f.Orderly (f.makeRecord r) :=
  (f.append_orderly r).trans (Front.sendEvent_orderly _ _)

theorem Front.makeTied_orderly (f : Front) (r : LogRecord) (o : Occurrence) : f.Orderly (f.makeTied r o) :=
  (f.makeRecord_orderly r).trans (Front.sendEvent_orderly _ _)

/-- A re-read leaves the log accounted whatever it held: where it finds room again, the GAP record zeroes the missed count (R148, R151). -/
theorem Front.reReadIndex_orderly (f : Front) : f.Orderly f.reReadIndex := by
  unfold Front.reReadIndex
  dsimp only
  have bounded := unread_effectiveRead f.log.writeIndex (BitVec.ofNat 32 (readField f.mem 0x0C 4))
  generalize effectiveRead f.log.writeIndex _ = e at bounded ⊢
  cases full : ({ f.log with effRead := e } : LogRec).full
  · rw [if_neg Bool.false_ne_true]
    split
    case isTrue none_missed => exact ⟨id, id, fun _ => ⟨bounded, fun missed => absurd none_missed missed⟩⟩
    case isFalse =>
      have room : (f.log.writeIndex - e).toNat < 64 := by
        have := LogRec.full_iff { f.log with effRead := e }
        simp only [full] at this
        simpa using this
      refine Front.Orderly.trans ?_ (Front.sendEvent_orderly _ _)
      refine ⟨fun h => wf_writeBytes _ _ (wf_writeBytes _ _ ((Front.writeRecord_step _ _).wf h)), fun h => ?_, fun _ => ?_⟩
      · have kept : ∀ g r, (Front.writeRecord g r).gens = g.gens := fun g r => by
          unfold Front.writeRecord Front.raiseIfFull; split <;> rfl
        simp only [Front.putLogBlock_gens, kept]
        exact h
      · simp only [Front.putLogBlock_log, Front.writeRecord_log]
        exact ⟨by simp only [unread_succ room]; omega, fun missed => absurd rfl missed⟩
  · rw [if_pos rfl]
    have accounted : LogAccounted { f.log with effRead := e } :=
      ⟨bounded, fun _ => le_antisymm bounded ((LogRec.full_iff _).mp full)⟩
    split
    · exact ⟨id, id, fun _ => accounted⟩
    · exact ⟨id, id, fun _ => accounted⟩

/-! ## The trace -/

theorem Front.putTrace_orderly (f : Front) (t : TraceRec) : f.Orderly (f.putTrace t) := ⟨wf_writeBytes _ _, id, id⟩

theorem Front.linkTrace_orderly (f : Front) (st : TraceStatus) (n s : Option Word) : f.Orderly (f.linkTrace st n s) := by
  unfold Front.linkTrace
  split
  · split
    · exact f.putTrace_orderly _
    · exact .refl f
  · exact .refl f

theorem Front.makeFallRecord_orderly (f : Front) (r : LogRecord) (st : TraceStatus) (n : Option Word) :
    f.Orderly (f.makeFallRecord r st n) :=
  ((f.append_orderly r).trans (Front.linkTrace_orderly _ _ _ _)).trans (Front.sendEvent_orderly _ _)

theorem Front.writeDrop_orderly (f : Front) (d : DropData) (o : AckOutcome) (a b : BayState) : f.Orderly (f.writeDrop d o a b) :=
  (f.makeFallRecord_orderly _ _ _).trans (Front.sendEvent_orderly _ _)

theorem Front.startCapture_orderly (f : Front) (ring : List RingEntry) (i n : Word) : f.Orderly (f.startCapture ring i n) :=
  (f.write_orderly _ _).trans (Front.putTrace_orderly _ _)

theorem Front.finishCapture_orderly (f : Front) (c : EndCause) : f.Orderly (f.finishCapture c) :=
  (f.putTrace_orderly _).trans (Front.raise_orderly _ _)

theorem Front.appendTrace_orderly (f : Front) (e : RingEntry) : f.Orderly (f.appendTrace e) := by
  unfold Front.appendTrace
  split
  · dsimp only
    split
    · exact (f.write_orderly _ _).trans (Front.putTrace_orderly _ _)
    · exact (f.write_orderly _ _).trans (Front.finishCapture_orderly _ _)
  · exact .refl f

theorem Front.endCapture_orderly (f : Front) : f.Orderly f.endCapture := by
  unfold Front.endCapture
  split
  · exact (f.write_orderly _ _).trans (Front.finishCapture_orderly _ _)
  · exact .refl f

theorem Front.releaseTrace_orderly (f : Front) : f.Orderly f.releaseTrace := by
  unfold Front.releaseTrace
  split
  · exact f.putTrace_orderly _
  · exact .refl f

theorem Front.settleTrace_orderly (f : Front) (on : Bool) (ring : List RingEntry) (i n : Word) :
    f.Orderly (f.settleTrace on ring i n).front := by
  unfold Front.settleTrace
  split
  · split
    · exact f.startCapture_orderly _ _ _
    · exact f.putTrace_orderly _
    · exact .refl f
  · exact .refl f

/-! ## Requests -/

theorem Front.writeResult_orderly (f : Front) (i : Fin 32) (k : Byte) (n : Bool) (t : Half) (c : Completion) :
    f.Orderly (f.writeResult i k n t c) :=
  ((f.write_orderly _ _).trans (Front.write_orderly _ _ _)).trans (Front.write_orderly _ _ _)

theorem Front.complete_orderly (f : Front) (i : Fin 32) (c : Completion) : f.Orderly (f.complete i c) := by
  have shape := (f.complete_frame i c).1
  exact ⟨(f.complete_frame i c).2.2, fun h => by rw [shape]; exact h, fun h => by rw [shape]; exact h⟩

theorem Front.markTaken_orderly (f : Front) (i : Fin 32) : f.Orderly (f.markTaken i) := ⟨wf_writeBytes _ _, id, id⟩

theorem Front.post_orderly (f : Front) (p : Posting) (r : Request) : f.Orderly (f.post p r) :=
  ((f.write_orderly _ _).trans (Front.write_orderly _ _ _)).trans (Front.write_orderly _ _ _)

theorem Front.abortSlot_orderly (f : Front) (i : Fin 32) : f.Orderly (f.abortSlot i) := by
  unfold Front.abortSlot
  split
  · exact f.writeResult_orderly _ _ _ _ _
  · split
    · exact f.writeResult_orderly _ _ _ _ _
    · exact .refl f

theorem Front.abortAll_orderly (f : Front) : f.Orderly f.abortAll :=
  (Front.Orderly.foldl Front.abortSlot_orderly _ f).trans (Front.setInFlight_orderly _ _)

theorem Front.restartRegisters_orderly (f : Front) : f.Orderly f.restartRegisters := by
  have cleared : f.Orderly { f with
      summary := flagBit .restart, summaryEnable := 0, exchangeEnable := false, restartCount := f.restartCount + 1 } :=
    .of_same rfl rfl rfl
  have made := (cleared.trans (Front.write_orderly _ 0x04 (leBytes 4 (f.restartCount + 1).toNat))).trans
    (Front.makeRecord_orderly _ (.restart true (f.restartCount + 1)))
  unfold Front.restartRegisters
  dsimp only
  split
  · exact made
  · exact made.trans (Front.setSummary_orderly _ _)

end Sys2Proof.Machine
end

section
/-! PROOF. What every operation of the bays, FHU and HLD keeps: the host's side in order, the hold table distinct, the wait under quiesce, the policy in its ranges (R49 to R51, R60). -/

namespace Sys2Proof.Machine

open Sys2Proof.Safety

/-! ## The hold table -/

/-- The pairs of holder and target that stand, in position order. -/
def standingPairs (es : List (Option HoldEntry)) : List (Holder × Target) := (es.filterMap id).map pairOf

theorem mem_standingPairs {es : List (Option HoldEntry)} {q : Holder × Target} :
    q ∈ standingPairs es ↔ ∃ e, some e ∈ es ∧ pairOf e = q := by
  simp [standingPairs]

theorem standingPairs_removeEntries_sublist (gone : HoldEntry → Bool) (es : List (Option HoldEntry)) :
    (standingPairs (removeEntries gone es)).Sublist (standingPairs es) := by
  unfold standingPairs
  refine List.Sublist.map _ ?_
  induction es with
  | nil => exact .slnil
  | cons o es ih =>
    cases o with
    | none => simpa [removeEntries] using ih
    | some e =>
      cases h : gone e
      · simpa [removeEntries, h] using ih
      · simpa [removeEntries, h] using ih.cons e

/-- Putting an entry into a position keeps the pairs distinct, if its pair stands nowhere else. -/
theorem nodup_standingPairs_set {es : List (Option HoldEntry)} {e : HoldEntry} (n : Nat)
    (distinct : (standingPairs es).Nodup)
    (only : ∀ m f, es[m]? = some (some f) → pairOf f = pairOf e → m = n) : (standingPairs (es.set n (some e))).Nodup := by
  induction es generalizing n with
  | nil => simpa using distinct
  | cons o es ih =>
    cases n with
    | zero =>
      have absent : pairOf e ∉ standingPairs es := by
        intro h
        obtain ⟨f, hf, hp⟩ := mem_standingPairs.mp h
        obtain ⟨m, hm⟩ := List.mem_iff_getElem?.mp hf
        exact absurd (only (m + 1) f (by simpa using hm) hp) (Nat.succ_ne_zero m)
      have tail : (standingPairs es).Nodup :=
        distinct.sublist (by cases o <;> simp [standingPairs])
      simpa [standingPairs] using And.intro (by simpa [standingPairs] using absent) tail
    | succ n =>
      have later : ∀ m f, es[m]? = some (some f) → pairOf f = pairOf e → m = n := fun m f hm hp =>
        Nat.succ_injective (only (m + 1) f (by simpa using hm) hp)
      cases o with
      | none => simpa [standingPairs] using ih n (by simpa [standingPairs] using distinct) later
      | some g =>
        obtain ⟨fresh, tail⟩ : pairOf g ∉ standingPairs es ∧ (standingPairs es).Nodup := by
          simpa [standingPairs] using distinct
        have differs : pairOf g ≠ pairOf e := fun hp => absurd (only 0 g rfl hp) (Nat.succ_ne_zero n).symm
        have notPlaced : pairOf g ∉ standingPairs (es.set n (some e)) := by
          intro h
          obtain ⟨f, hf, hp⟩ := mem_standingPairs.mp h
          rcases List.mem_or_eq_of_mem_set hf with old | new
          · exact fresh (mem_standingPairs.mpr ⟨f, old, hp⟩)
          · exact differs (by rw [← hp, Option.some.inj new])
        have := ih n tail later
        simpa [standingPairs] using And.intro (by simpa [standingPairs] using notPlaced) this

theorem isPair_some {h : Holder} {t : Target} {f : HoldEntry} : isPair h t (some f) = true ↔ pairOf f = (h, t) := by
  simp [isPair, pairOf]

/-- Where the pair has a position, it stands there. -/
theorem positionOf_some {h : Holder} {t : Target} {es : List (Option HoldEntry)} {n : Nat} (hn : positionOf h t es = some n) :
    ∃ f, es[n]? = some (some f) ∧ pairOf f = (h, t) := by
  obtain ⟨hlt, hp, -⟩ := List.findIdx?_eq_some_iff_getElem.mp hn
  cases hf : es[n] with
  | none => simp [hf, isPair] at hp
  | some f => exact ⟨f, by rw [List.getElem?_eq_getElem hlt, hf], isPair_some.mp (hf ▸ hp)⟩

theorem positionOf_none {h : Holder} {t : Target} {es : List (Option HoldEntry)} (hn : positionOf h t es = none) {f : HoldEntry}
    (hf : some f ∈ es) : pairOf f ≠ (h, t) := by
  intro hp
  have := List.findIdx?_eq_none_iff.mp hn (some f) hf
  rw [isPair_some.mpr hp] at this
  exact Bool.noConfusion this

/-- In a table of distinct pairs a pair stands in one position. -/
theorem position_unique {es : List (Option HoldEntry)} (distinct : (standingPairs es).Nodup) {m n : Nat} {f g : HoldEntry}
    (hm : es[m]? = some (some f)) (hn : es[n]? = some (some g)) (hp : pairOf f = pairOf g) : m = n := by
  induction es generalizing m n with
  | nil => simp at hm
  | cons o es ih =>
    have tail : (standingPairs es).Nodup := distinct.sublist (by cases o <;> simp [standingPairs])
    have fresh : ∀ (k : Nat) (e x : HoldEntry), o = some e → es[k]? = some (some x) → pairOf e ≠ pairOf x := by
      rintro k e x rfl hx hp
      have : pairOf e ∉ standingPairs es := by
        have := distinct
        simp only [standingPairs, List.filterMap_cons, id_eq, List.map_cons, List.nodup_cons] at this
        exact this.1
      exact this (mem_standingPairs.mpr ⟨x, List.mem_of_getElem? hx, hp.symm⟩)
    cases m with
    | zero =>
      cases n with
      | zero => rfl
      | succ n => exact absurd hp (fresh n f g (by simpa using hm) (by simpa using hn))
    | succ m =>
      cases n with
      | zero => exact absurd hp.symm (fresh m g f (by simpa using hn) (by simpa using hm))
      | succ n => exact congrArg (· + 1) (ih tail (m := m) (n := n) (by simpa using hm) (by simpa using hn))

/-- R51: a placement keeps the pairs distinct. -/
theorem nodup_standingPairs_placeEntry (e : HoldEntry) {es : List (Option HoldEntry)} (distinct : (standingPairs es).Nodup) :
    (standingPairs (placeEntry e es)).Nodup := by
  unfold placeEntry decidePlacement
  cases hn : positionOf e.holder e.target es with
  | some n =>
    obtain ⟨g, hg, hpair⟩ := positionOf_some hn
    refine nodup_standingPairs_set n distinct fun m f hm hp => position_unique distinct hm hg ?_
    rw [hpair]
    exact hp
  | none =>
    have fresh : ∀ (n m : Nat) f, es[m]? = some (some f) → pairOf f = pairOf e → m = n := fun n m f hm hp =>
      absurd hp (positionOf_none hn (List.mem_of_getElem? hm))
    dsimp only
    by_cases full : e.holder = .software ∧ Config.softwareLimit ≤ softwareCount es
    · rw [if_pos full]
      exact distinct
    · rw [if_neg full]
      cases freePosition es with
      | some n => exact nodup_standingPairs_set n distinct (fresh n)
      | none => exact distinct

/-- The table may become `es`: it keeps 16 positions and distinct pairs. -/
def KeepsDistinct (old es : List (Option HoldEntry)) : Prop :=
  es.length = old.length ∧ ((standingPairs old).Nodup → (standingPairs es).Nodup)

theorem KeepsDistinct.trans {a b c : List (Option HoldEntry)} (h : KeepsDistinct a b) (k : KeepsDistinct b c) : KeepsDistinct a c :=
  ⟨k.1.trans h.1, k.2 ∘ h.2⟩

theorem keepsDistinct_placeEntry (e : HoldEntry) (es : List (Option HoldEntry)) : KeepsDistinct es (placeEntry e es) :=
  ⟨placeEntry_length e es, nodup_standingPairs_placeEntry e⟩

theorem keepsDistinct_removeEntries (gone : HoldEntry → Bool) (es : List (Option HoldEntry)) :
    KeepsDistinct es (removeEntries gone es) :=
  ⟨removeEntries_length gone es, fun h => h.sublist (standingPairs_removeEntries_sublist gone es)⟩

/-- R60: what becomes of the wait when the table becomes `es`. -/
theorem Power.putTable_hld (p : Power) (es : List (Option HoldEntry)) :
    (p.putTable es).hld =
      let h := { p.hld with entries := es }
      if !p.hld.quiesce && h.quiesce then
        (if p.hld.ackLine then { h with wait := none, outcome := .acked } else h.startWait p.tmb.uptime)
      else if p.hld.quiesce && !h.quiesce && p.hld.wait.isSome then { h with wait := none, outcome := .notAcked }
      else h := by
  unfold Power.putTable
  dsimp only
  cases hold : p.hld.quiesce <;> cases hnew : ({ p.hld with entries := es } : HoldTable).quiesce <;>
    cases hack : p.hld.ackLine <;> cases hwait : p.hld.wait.isSome <;>
    simp [HoldTable.startWait, Power.publishMirror, (Power.endWait_frame _ _).1]

theorem Power.waitRuns_putTable (p : Power) (es : List (Option HoldEntry)) (h : WaitRuns p.hld) : WaitRuns (p.putTable es).hld := by
  rw [p.putTable_hld es]
  dsimp only
  split
  case isTrue rises =>
    split
    · exact fun waits => absurd waits Bool.false_ne_true
    · exact fun _ => ⟨(Bool.and_eq_true_iff.mp rises).2, rfl⟩
  case isFalse stays =>
    split
    case isTrue => exact fun waits => absurd waits Bool.false_ne_true
    case isFalse still =>
      intro waits
      obtain ⟨up, pending⟩ := h waits
      refine ⟨?_, pending⟩
      cases hq : HoldTable.quiesce { p.hld with entries := es }
      · exact absurd (by simp [up, hq, show p.hld.wait.isSome = true from waits]) still
      · rfl

/-! ## The invariants of the bays, FHU and HLD, kept together -/

/-- Between `p` and `q` the host's side, the hold table and the policy stay in order. -/
structure Power.Orderly (p q : Power) : Prop where
  front  : p.toFront.Orderly q.toFront
  table  : KeepsDistinct p.hld.entries q.hld.entries
  wait   : WaitRuns p.hld → WaitRuns q.hld
  policy : PolicyInRange p.feed p.bayPolicy → PolicyInRange q.feed q.bayPolicy

namespace Power.Orderly

theorem refl (p : Power) : p.Orderly p := ⟨.refl _, ⟨rfl, id⟩, id, id⟩

theorem trans {p q r : Power} (a : p.Orderly q) (b : q.Orderly r) : p.Orderly r :=
  ⟨a.front.trans b.front, a.table.trans b.table, b.wait ∘ a.wait, b.policy ∘ a.policy⟩

/-- A change of the host's side, the bays, the feed record beside its policy fields, and FHU's state. -/
theorem of_front {p q : Power} (front : p.toFront.Orderly q.toFront) (hld : q.hld = p.hld)
    (policy : PolicyInRange p.feed p.bayPolicy → PolicyInRange q.feed q.bayPolicy) : p.Orderly q :=
  ⟨front, by rw [hld]; exact ⟨rfl, id⟩, by rw [hld]; exact id, policy⟩

/-- A change that leaves the host's side alone. -/
theorem of_same {p q : Power} (front : q.toFront = p.toFront) (hld : q.hld = p.hld)
    (policy : PolicyInRange p.feed p.bayPolicy → PolicyInRange q.feed q.bayPolicy) : p.Orderly q :=
  of_front (front ▸ .refl _) hld policy

theorem ite {p q r : Power} {c : Prop} [Decidable c] (a : p.Orderly q) (b : p.Orderly r) : p.Orderly (if c then q else r) := by
  split
  · exact a
  · exact b

end Power.Orderly

theorem Power.setFront_orderly (p : Power) {f : Front} (h : p.toFront.Orderly f) : p.Orderly { p with toFront := f } := .of_front h rfl id

theorem Power.setFhu_orderly (p : Power) (f : FhuState) : p.Orderly { p with fhu := f } := .of_same rfl rfl id

/-! ## Bays and records -/

theorem Power.setBay_orderly (p : Power) (b : Bay) (r : BayRec) : p.Orderly (p.setBay b r) := by
  cases b <;> exact .of_same rfl rfl id

theorem Power.setLink_orderly (p : Power) (b : Bay) (l : Link) : p.Orderly (p.setLink b l) := by
  cases b <;> exact .of_same rfl rfl id

theorem Power.setState_orderly (p : Power) (b : Bay) (st : BayState) : p.Orderly (p.setState b st) := by
  unfold Power.setState
  dsimp only
  split
  · exact p.setBay_orderly _ _
  · split
    · exact p.setBay_orderly _ _
    · exact (p.setBay_orderly _ _).trans (Power.setLink_orderly _ _ _)

theorem Power.setBlink_orderly (p : Power) (b : Bay) (e : Option Nat) : p.Orderly (p.setBlink b e) := p.setBay_orderly _ _

theorem Power.enterSeated_orderly (p : Power) (b : Bay) : p.Orderly (p.enterSeated b) :=
  (p.setBay_orderly _ _).trans (Power.setLink_orderly _ _ _)

theorem Power.makeRecord_orderly (p : Power) (r : LogRecord) : p.Orderly (p.makeRecord r) :=
  .of_front (p.toFront.makeRecord_orderly r) rfl id

theorem Power.makeTied_orderly (p : Power) (r : LogRecord) (o : Occurrence) : p.Orderly (p.makeTied r o) :=
  .of_front (p.toFront.makeTied_orderly r o) rfl id

theorem Power.packFault_orderly (p : Power) (b : Bay) (r : FaultReason) : p.Orderly (p.packFault b r) := p.makeRecord_orderly _

/-! ## HLD -/

theorem Power.publishMirror_orderly (p : Power) : p.Orderly p.publishMirror := .of_front (p.toFront.publish_orderly _ _) rfl id

theorem Power.writeDrops_orderly (p : Power) : p.Orderly p.writeDrops :=
  .of_front (.foldl (fun _ _ => Front.writeDrop_orderly _ _ _ _ _) _ _) rfl id

theorem Power.writeDeferredEnd_orderly (p : Power) : p.Orderly p.writeDeferredEnd := by
  unfold Power.writeDeferredEnd
  split
  · exact .refl p
  · exact (p.setFhu_orderly _).trans (Power.makeRecord_orderly _ _)

theorem Power.endWait_orderly (p : Power) (o : AckOutcome) : p.Orderly (p.endWait o) := by
  have ended : p.Orderly { p with hld := { p.hld with wait := none, outcome := o } } :=
    ⟨.refl _, ⟨rfl, id⟩, fun _ waits => absurd waits Bool.false_ne_true, id⟩
  exact ((ended.trans (Power.publishMirror_orderly _)).trans (Power.writeDrops_orderly _)).trans (Power.writeDeferredEnd_orderly _)

/-- HLD's outputs write the host's side in order, whatever the table becomes. -/
theorem Power.putTable_front (p : Power) (es : List (Option HoldEntry)) : p.toFront.Orderly (p.putTable es).toFront := by
  unfold Power.putTable
  dsimp only
  have mirror (h : HoldTable) (d : PassCauses) : p.toFront.Orderly ({ p with hld := h, due := d } : Power).publishMirror.toFront :=
    p.toFront.publish_orderly _ _
  split
  · exact (mirror _ _).trans (Power.endWait_orderly _ _).front
  · split
    · exact (mirror _ _).trans (Power.endWait_orderly _ _).front
    · exact mirror _ _

theorem Power.putTable_orderly (p : Power) {es : List (Option HoldEntry)} (h : KeepsDistinct p.hld.entries es) :
    p.Orderly (p.putTable es) := by
  obtain ⟨entries, -, -, -, -, -, feed, -, policy, -⟩ := p.putTable_frame es
  refine ⟨p.putTable_front es, ?_, p.waitRuns_putTable es, ?_⟩
  · rw [entries]
    exact h
  · rw [feed, policy]
    exact id

theorem Power.placeEnergy_orderly (p : Power) : p.Orderly p.placeEnergy := p.putTable_orderly (keepsDistinct_placeEntry _ _)

theorem Power.liftEnergy_orderly (p : Power) : p.Orderly p.liftEnergy :=
  .ite (.refl p) (p.putTable_orderly (keepsDistinct_removeEntries _ _))

/-! ## FHU -/

theorem Power.planTest_orderly (p : Power) (l : Loads) : p.Orderly (p.planTest l) := .of_same rfl rfl id

theorem Power.findSource_orderly (p : Power) (l : Loads) (x : Bay) (v : Bool) : p.Orderly (p.findSource l x v).1 := by
  unfold Power.findSource
  split
  · exact .refl p
  · split
    · exact .refl p
    · split
      · exact p.planTest_orderly l
      · exact .refl p

theorem Power.startSwitchover_orderly (p : Power) (t : FeedKind) (u : Purpose) : p.Orderly (p.startSwitchover t u) :=
  .of_same rfl rfl id

theorem Power.revertSwitchover_orderly (p : Power) : p.Orderly p.revertSwitchover := .of_same rfl rfl id

theorem Power.beginHoldover_orderly (p : Power) (v : Bool) : p.Orderly (p.beginHoldover v) :=
  .of_front (p.toFront.raise_orderly _) rfl id

theorem Power.clearHoldover_orderly (p : Power) : p.Orderly p.clearHoldover := .of_same rfl rfl id

theorem Power.endHoldover_orderly (p : Power) (c : HoldoverEndCause) : p.Orderly (p.endHoldover c) := by
  unfold Power.endHoldover
  split
  · exact .refl p
  · exact .ite ((p.writeDeferredEnd_orderly.trans (Power.clearHoldover_orderly _)).trans (Power.liftEnergy_orderly _))
      (p.clearHoldover_orderly.trans (Power.makeRecord_orderly _ _))

theorem Power.leaveFeed_orderly (p : Power) (c : MoveCause) (t : FeedKind) : p.Orderly (p.leaveFeed c t) := by
  unfold Power.leaveFeed
  split
  · exact .refl p
  · exact p.setState_orderly _ _

theorem Power.joinFeed_orderly (p : Power) (t : FeedKind) : p.Orderly (p.joinFeed t) := by
  unfold Power.joinFeed
  split
  · exact .refl p
  · exact p.setState_orderly _ _

theorem Power.putFeed_orderly (p : Power) (t : FeedKind) : p.Orderly (p.putFeed t) := .of_same rfl rfl id

theorem Power.moveFeed_orderly (p : Power) (t : FeedKind) (c : MoveCause) (v : Bool) : p.Orderly (p.moveFeed t c v) := by
  have moved : p.Orderly (((p.leaveFeed c t).putFeed t).joinFeed t) :=
    ((p.leaveFeed_orderly c t).trans (Power.putFeed_orderly _ t)).trans (Power.joinFeed_orderly _ t)
  exact .ite (.ite moved (moved.trans (Power.beginHoldover_orderly _ v)))
    (.ite (moved.trans (Power.endHoldover_orderly _ _)) moved)

theorem Power.choicePoint_orderly (p : Power) : p.Orderly p.choicePoint :=
  .ite (.ite (.refl p) (p.moveFeed_orderly _ _ _)) (.refl p)

theorem Power.recordFaulted_orderly (p : Power) : p.Orderly p.recordFaulted := .of_same rfl rfl id

theorem Power.recordLow_orderly (p : Power) : p.Orderly p.recordLow := .of_same rfl rfl id

theorem Power.examineFault_orderly (p : Power) (l : Loads) (x : Bay) : p.Orderly (p.examineFault l x) := by
  unfold Power.examineFault
  dsimp only
  split
  · exact (p.findSource_orderly _ _ _).trans (Power.startSwitchover_orderly _ _ _)
  · exact (p.findSource_orderly _ _ _).trans (Power.recordFaulted_orderly _)

theorem Power.examineChangeover_orderly (p : Power) (l : Loads) (x : Bay) : p.Orderly (p.examineChangeover l x) :=
  .ite (p.startSwitchover_orderly _ _) p.recordLow_orderly

theorem Power.examineBoth_orderly (p : Power) (l : Loads) (x : Bay) : p.Orderly (p.examineBoth l x) := by
  have low : p.Orderly { p with feed := { p.feed with pending := { p.feed.pending with lowCharge := true } } } := .of_same rfl rfl id
  have sought := low.trans (Power.examineFault_orderly _ l x)
  exact .ite sought (sought.trans (Power.recordLow_orderly _))

theorem Power.reexamine_orderly (p : Power) (l : Loads) : p.Orderly (p.reexamine l) := by
  unfold Power.reexamine
  split
  · exact .refl p
  · exact .ite (.refl p) (.ite (.ite (p.examineBoth_orderly _ _) (p.examineFault_orderly _ _))
      (.ite (p.examineChangeover_orderly _ _) (.refl p)))

theorem Power.seekFaultMove_orderly (p : Power) (l : Loads) (x : Bay) : p.Orderly (p.seekFaultMove l x) :=
  .ite (.of_same rfl rfl id) (.ite (p.examineBoth_orderly _ _) (p.examineFault_orderly _ _))

theorem Power.seekChangeover_orderly (p : Power) (l : Loads) (x : Bay) : p.Orderly (p.seekChangeover l x) :=
  .ite (.of_same rfl rfl id) (.ite (p.examineBoth_orderly _ _) (p.examineChangeover_orderly _ _))

theorem Power.examineDue_orderly (p : Power) (l : Loads) (x : Bay) : p.Orderly (p.examineDue l x) := by
  have cleared : p.Orderly { p with fhu := { p.fhu with dueInFlight := ⟨false, false⟩ } } := .of_same rfl rfl id
  exact .ite (.ite (cleared.trans (Power.examineBoth_orderly _ _ _)) (cleared.trans (Power.examineFault_orderly _ _ _)))
    (.ite (.ite (cleared.trans (Power.examineBoth_orderly _ _ _)) (cleared.trans (Power.examineChangeover_orderly _ _ _))) cleared)

theorem Power.enteredStandby_orderly (p : Power) (l : Loads) (b : Bay) : p.Orderly (p.enteredStandby l b) :=
  .ite (.ite p.choicePoint_orderly (p.reexamine_orderly l)) (.refl p)

/-! ## Releases -/

theorem Power.completeRelease_orderly (p : Power) (b : Bay) (r : Release) (c : ResultCode) (v : Bool) :
    p.Orderly (p.completeRelease b r c v) := by
  unfold Power.completeRelease
  split
  · exact .refl p
  · exact .ite (.of_front (p.toFront.complete_orderly _ _) rfl id) (.refl p)

theorem Power.takeFormer_orderly (p : Power) (b : Bay) (r : Release) : p.Orderly (p.takeFormer b r) := by
  unfold Power.takeFormer
  split
  · exact p.enterSeated_orderly b
  · exact p.setState_orderly _ _
  · exact p.setState_orderly _ _
  · exact p.setState_orderly _ _

theorem Power.refuse_orderly (p : Power) (b : Bay) (r : Release) (x : RefusalReason) (v : Bool) : p.Orderly (p.refuse b r x v) := by
  have made := p.makeTied_orderly (.releaseRefused b x v r.origin) ⟨.releaseRefused, refusalBit x, none⟩
  exact ((Power.Orderly.ite (made.trans (Power.packFault_orderly _ b .latch)) made).trans (Power.setBlink_orderly _ b _)).trans
    (Power.completeRelease_orderly _ b r _ v)

theorem Power.endRefused_orderly (p : Power) (l : Loads) (b : Bay) (r : Release) (x : RefusalReason) (v : Bool) :
    p.Orderly (p.endRefused l b r x v) :=
  ((p.takeFormer_orderly b r).trans (Power.refuse_orderly _ b r x v)).trans (Power.enteredStandby_orderly _ l b)

theorem Power.endStuck_orderly (p : Power) (b : Bay) (r : Release) : p.Orderly (p.endStuck b r) :=
  (p.setState_orderly _ _).trans (Power.refuse_orderly _ _ _ _ _)

theorem Power.endCancelled_orderly (p : Power) (l : Loads) (b : Bay) (r : Release) : p.Orderly (p.endCancelled l b r) :=
  ((p.takeFormer_orderly b r).trans (Power.completeRelease_orderly _ _ _ _ _)).trans (Power.enteredStandby_orderly _ l b)

theorem Power.confirmOpen_orderly (p : Power) (b : Bay) (r : Release) : p.Orderly (p.confirmOpen b r) := by
  have opened := p.setState_orderly b (.opened (p.tmb.uptime + p.bayPolicy.openWindow * 1000))
  unfold Power.confirmOpen
  dsimp only
  split
  · exact opened.trans (Power.completeRelease_orderly _ _ _ _ _)
  · exact (opened.trans (Power.makeTied_orderly _ _ _)).trans (Power.completeRelease_orderly _ _ _ _ _)

theorem Power.enterUnlatching_orderly (p : Power) (b : Bay) (r : Release) : p.Orderly (p.enterUnlatching b r) :=
  .ite ((p.setState_orderly _ _).trans (Power.confirmOpen_orderly _ _ _)) (p.setState_orderly _ _)

theorem Power.enterHeld_orderly (p : Power) (l : Loads) (b : Bay) (r : Release) : p.Orderly (p.enterHeld l b r) :=
  .ite (p.endRefused_orderly _ _ _ _ _) (p.setState_orderly _ _)

theorem Power.transferRefused_orderly (p : Power) (l : Loads) (b : Bay) (v : Bool) : p.Orderly (p.transferRefused l b v) := by
  unfold Power.transferRefused
  split
  · split
    · exact p.endCancelled_orderly _ _ _
    · exact p.endRefused_orderly _ _ _ _ _
    · exact .refl p
  · exact .refl p

theorem Power.transferConfirmed_orderly (p : Power) (l : Loads) (b : Bay) : p.Orderly (p.transferConfirmed l b) := by
  unfold Power.transferConfirmed
  split
  · split
    · exact p.endCancelled_orderly _ _ _
    · exact .ite (p.enterHeld_orderly _ _ _) (p.enterUnlatching_orderly _ _)
    · exact .refl p
  · exact .refl p

theorem Power.planTakeover_orderly (p : Power) (l : Loads) (b : Bay) : p.Orderly (p.planTakeover l b) := by
  unfold Power.planTakeover
  dsimp only
  split
  · exact (p.findSource_orderly _ _ _).trans (Power.startSwitchover_orderly _ _ _)
  · exact (p.findSource_orderly _ _ _).trans (Power.transferRefused_orderly _ _ _ _)

theorem Power.enterTransfer_orderly (p : Power) (l : Loads) (b : Bay) (r : Release) : p.Orderly (p.enterTransfer l b r) :=
  .ite (p.setState_orderly _ _) ((p.setState_orderly _ _).trans (Power.planTakeover_orderly _ _ _))

theorem Power.moveOn_orderly (p : Power) (l : Loads) (b : Bay) (r : Release) : p.Orderly (p.moveOn l b r) :=
  .ite (p.enterTransfer_orderly _ _ _) (p.enterUnlatching_orderly _ _)

theorem Power.afterSwitchover_orderly (p : Power) (l : Loads) : p.Orderly (p.afterSwitchover l) := by
  refine .ite (.refl p) (.ite (p.moveFeed_orderly _ _ _) ?_)
  split
  · exact .refl p
  · exact p.examineDue_orderly _ _

theorem Power.replan_orderly (p : Power) (l : Loads) (x : Bay) : p.Orderly (p.replan l x) := .ite (p.planTakeover_orderly _ _) (.refl p)

theorem Power.reportFailure_orderly (p : Power) (l : Loads) (x : Bay) (u : Purpose) : p.Orderly (p.reportFailure l x u) := by
  cases u with
  | takeover => exact p.transferRefused_orderly _ _ _
  | faultMove =>
    exact (Power.Orderly.ite (.refl p) p.recordFaulted_orderly).trans (Power.replan_orderly _ _ _)
  | changeover => exact p.recordLow_orderly.trans (Power.replan_orderly _ _ _)

theorem Power.failSwitchover_orderly (p : Power) (l : Loads) : p.Orderly (p.failSwitchover l) := by
  unfold Power.failSwitchover
  split
  · exact (p.revertSwitchover_orderly.trans (Power.reportFailure_orderly _ _ _ _)).trans (Power.afterSwitchover_orderly _ _)
  · exact .refl p

theorem Power.leftStandby_orderly (p : Power) (l : Loads) (b : Bay) : p.Orderly (p.leftStandby l b) := by
  unfold Power.leftStandby
  split
  · exact .ite (p.failSwitchover_orderly l) (.refl p)
  · exact .refl p

theorem Power.confirmSwitchover_orderly (p : Power) (l : Loads) : p.Orderly (p.confirmSwitchover l) := by
  unfold Power.confirmSwitchover
  split
  · exact (Power.Orderly.ite ((p.moveFeed_orderly _ _ _).trans (Power.transferConfirmed_orderly _ _ _))
      ((p.moveFeed_orderly _ _ _).trans (Power.enteredStandby_orderly _ _ _))).trans (Power.afterSwitchover_orderly _ _)
  · exact .refl p

theorem Power.loss_orderly (p : Power) (l : Loads) (c : LossCause) : p.Orderly (p.loss l c) := by
  have lost (m : MoveCause) (r : LogRecord) : p.Orderly
      (let q := (p.moveFeed p.choose m false).makeRecord r
       { q with due := { q.due with emergency := true, feed := true } }) :=
    ((p.moveFeed_orderly _ m _).trans (Power.makeRecord_orderly _ r)).trans (.of_same rfl rfl id)
  unfold Power.loss
  dsimp only
  split
  · exact lost _ _
  · exact .ite ((Power.Orderly.ite (lost _ _) ((lost _ _).trans (Power.packFault_orderly _ _ _))).trans
      (Power.transferConfirmed_orderly _ _ _)) (lost _ _)

/-! ## Faults, polls, identification -/

theorem Power.toFault_orderly (p : Power) (l : Loads) (b : Bay) (r : FaultReason) : p.Orderly (p.toFault l b r) := by
  have faulted := (p.setState_orderly b (.fault r)).trans (Power.packFault_orderly _ b r)
  exact .ite (faulted.trans (Power.leftStandby_orderly _ _ _)) faulted

theorem Power.addStanding_orderly (p : Power) (l : Loads) (b : Bay) (r : Standing) : p.Orderly (p.addStanding l b r) :=
  .ite (.refl p) (((p.setState_orderly _ _).trans (Power.packFault_orderly _ _ _)).trans (Power.seekFaultMove_orderly _ _ _))

theorem Power.dropThermal_orderly (p : Power) (l : Loads) (b : Bay) : p.Orderly (p.dropThermal l b) :=
  .ite (.ite ((p.setState_orderly _ _).trans (.of_same rfl rfl id))
    (.ite ((p.setState_orderly _ _).trans (Power.reexamine_orderly _ _)) (p.setState_orderly _ _))) (.refl p)

theorem Power.noteFormer_orderly (p : Power) (b : Bay) (r : Release) (x : Standing) : p.Orderly (p.noteFormer b r x) :=
  .ite (.refl p) ((p.setState_orderly _ _).trans (Power.packFault_orderly _ _ _))

theorem Power.judgeFeed_orderly (p : Power) (l : Loads) (b : Bay) (k : PackState) : p.Orderly (p.judgeFeed l b k) :=
  .ite (p.addStanding_orderly _ _ _) (.ite (p.addStanding_orderly _ _ _) (.ite (p.dropThermal_orderly _ _) (.refl p)))

theorem Power.judgePoll_orderly (p : Power) (l : Loads) (b : Bay) (k : PackState) : p.Orderly (p.judgePoll l b k) := by
  refine .ite (p.judgeFeed_orderly l b k) ?_
  split
  · exact .ite (p.toFault_orderly _ _ _) (.ite (p.toFault_orderly _ _ _) (.refl p))
  · exact .ite (p.toFault_orderly _ _ _) (.ite (p.enterSeated_orderly _) (.refl p))
  · exact .ite (p.noteFormer_orderly _ _ _) (.ite (p.noteFormer_orderly _ _ _) (.ite (p.setState_orderly _ _) (.refl p)))
  · exact .refl p

theorem Power.polledFeed_orderly (p : Power) (l : Loads) (b : Bay) (k : PackState) : p.Orderly (p.polledFeed l b k) :=
  .ite (.ite (p.seekChangeover_orderly _ _) (.refl p)) (.ite (.ite p.choicePoint_orderly (.refl p)) (p.reexamine_orderly l))

theorem Power.pollGood_orderly (p : Power) (l : Loads) (b : Bay) (k : PackState) : p.Orderly (p.pollGood l b k) := by
  have filled (r : BayRec) (n : Link) := (p.setBay_orderly b r).trans (Power.setLink_orderly _ b n)
  have heard (r : BayRec) (n : Link) := (filled r n).trans (Power.setFront_orderly _ (Front.sendEvent_orderly _ (packHot b k.temperature)))
  exact ((heard _ _).trans (Power.judgePoll_orderly _ _ _ _)).trans (Power.polledFeed_orderly _ _ _ _)

theorem Power.linkLost_orderly (p : Power) (l : Loads) (b : Bay) : p.Orderly (p.linkLost l b) := by
  refine .ite (p.addStanding_orderly _ _ _) ?_
  split
  · exact p.toFault_orderly _ _ _
  · exact p.toFault_orderly _ _ _
  · exact p.noteFormer_orderly _ _ _
  · exact .refl p

theorem Power.pollBad_orderly (p : Power) (l : Loads) (b : Bay) : p.Orderly (p.pollBad l b) :=
  have counted := (p.setBay_orderly b _).trans (Power.setLink_orderly _ b _)
  .ite (counted.trans (Power.linkLost_orderly _ _ _)) counted

theorem Power.identified_orderly (p : Power) (l : Loads) (b : Bay) (k : PackState) : p.Orderly (p.identified l b k) :=
  have filled := (p.setBay_orderly b _).trans (Power.setLink_orderly _ b _)
  .ite (filled.trans (Power.toFault_orderly _ _ _ _)) (.ite (filled.trans (Power.toFault_orderly _ _ _ _))
    (.ite (filled.trans (Power.moveFeed_orderly _ _ _ _))
      ((filled.trans (Power.setState_orderly _ _ _)).trans (Power.enteredStandby_orderly _ _ _))))

/-! ## Starting and cancelling a release -/

theorem Power.startRelease_orderly (p : Power) (l : Loads) (b : Bay) (f : FormerState) (o : Origin) :
    p.Orderly (p.startRelease l b f o) := by
  have cleared : p.Orderly (if f = .seated then
      (p.setBlink b none).setBay b { (p.setBlink b none).bay b with identity := none, packState := none } else p.setBlink b none) :=
    .ite ((p.setBlink_orderly b none).trans (Power.setBay_orderly _ _ _)) (p.setBlink_orderly b none)
  have begun (st : BayState) := cleared.trans (Power.setState_orderly _ b st)
  have left (st : BayState) (c : Prop) [Decidable c] := Power.Orderly.ite (c := c) ((begun st).trans (Power.leftStandby_orderly _ l b)) (begun st)
  exact .ite (left _ _) ((left _ _).trans (Power.moveOn_orderly _ _ _ _))

theorem Power.cancelRelease_orderly (p : Power) (l : Loads) (b : Bay) (r : Release) : p.Orderly (p.cancelRelease l b r) := by
  unfold Power.cancelRelease
  split
  · exact p.setBay_orderly _ _
  · exact p.endCancelled_orderly _ _ _
  · exact p.endCancelled_orderly _ _ _

theorem Power.abortRelease_orderly (p : Power) (l : Loads) (b : Bay) : p.Orderly (p.abortRelease l b) := by
  unfold Power.abortRelease
  split
  · split
    · exact p.cancelRelease_orderly _ _ _
    · exact .refl p
  · exact .refl p

theorem Power.pressButton_orderly (p : Power) (l : Loads) (b : Bay) : p.Orderly (p.pressButton l b) := by
  unfold Power.pressButton
  split
  · exact p.cancelRelease_orderly _ _ _
  · split
    · exact p.startRelease_orderly _ _ _ _
    · exact .refl p

/-! ## The hold table reaches the bays -/

theorem Power.reactToDemand_orderly (p : Power) (l : Loads) (b : Bay) : p.Orderly (p.reactToDemand l b) := by
  unfold Power.reactToDemand
  split
  · exact .ite ((p.enterSeated_orderly b).trans (Power.makeRecord_orderly _ _)) (.refl p)
  · split
    · exact .ite (.refl p) (p.moveOn_orderly _ _ _)
    · exact .ite (p.enterHeld_orderly _ _ _) (.refl p)
    · exact .refl p
  · exact .refl p

theorem Power.changeTable_orderly (p : Power) (l : Loads) {es : List (Option HoldEntry)} (h : KeepsDistinct p.hld.entries es) :
    p.Orderly (p.changeTable l es) :=
  ((p.putTable_orderly h).trans (Power.reactToDemand_orderly _ l .A)).trans (Power.reactToDemand_orderly _ l .B)

theorem Power.removeHolds_orderly (p : Power) (l : Loads) (gone : HoldEntry → Bool) : p.Orderly (p.removeHolds l gone) :=
  .ite (.refl p) (p.changeTable_orderly l (keepsDistinct_removeEntries _ _))

theorem Power.setAckLine_orderly (p : Power) (v : Bool) : p.Orderly (p.setAckLine v) :=
  have level : p.Orderly { p with hld := { p.hld with ackLine := v } } := ⟨.refl _, ⟨rfl, id⟩, id, id⟩
  .ite (level.trans (Power.endWait_orderly _ _)) level

/-! ## The commands of the bays and the feed -/

theorem Power.unseat_orderly (p : Power) (l : Loads) (b : Bay) : p.Orderly (p.unseat l b) := by
  have emptied (r : BayRec) := (p.setBay_orderly b r).trans (Power.setLink_orderly _ b idleLink)
  have left {q : Power} (h : p.Orderly q) (c d : Prop) [Decidable c] [Decidable d] :
      p.Orderly (if c then q.loss l .presence else if d then q.leftStandby l b else q) :=
    .ite (h.trans (Power.loss_orderly _ _ _)) (.ite (h.trans (Power.leftStandby_orderly _ _ _)) h)
  unfold Power.unseat
  dsimp only
  split
  · exact left ((emptied _).trans (Power.completeRelease_orderly _ _ _ _ _)) _ _
  · exact left (emptied _) _ _

theorem Power.seat_orderly (p : Power) (b : Bay) : p.Orderly (p.seat b) := by
  unfold Power.seat
  dsimp only
  split
  · exact (p.setBay_orderly _ _).trans (Power.enterSeated_orderly _ _)
  · exact p.setBay_orderly _ _

theorem Power.senseLatch_orderly (p : Power) (b : Bay) (v : Bool) : p.Orderly (p.senseLatch b v) := by
  unfold Power.senseLatch
  dsimp only
  split
  · split
    · exact .ite ((p.setBay_orderly _ _).trans (Power.confirmOpen_orderly _ _ _)) (p.setBay_orderly _ _)
    · exact p.setBay_orderly _ _
  · exact p.setBay_orderly _ _

theorem Power.waitLimit_orderly (p : Power) (l : Loads) (b : Bay) : p.Orderly (p.waitLimit l b) := by
  unfold Power.waitLimit
  split
  · exact .ite (p.endRefused_orderly _ _ _ _ _) (.refl p)
  · exact .refl p

theorem Power.unlatchExpires_orderly (p : Power) (b : Bay) : p.Orderly (p.unlatchExpires b) := by
  unfold Power.unlatchExpires
  split
  · split
    · exact .ite (.ite (p.confirmOpen_orderly _ _) (p.endStuck_orderly _ _)) (.refl p)
    · exact .refl p
  · exact .refl p

theorem Power.openExpires_orderly (p : Power) (b : Bay) : p.Orderly (p.openExpires b) := by
  unfold Power.openExpires
  split
  · exact .ite (p.enterSeated_orderly b) (.refl p)
  · exact .refl p

theorem Power.blinkEnds_orderly (p : Power) (b : Bay) : p.Orderly (p.blinkEnds b) := by
  unfold Power.blinkEnds
  split
  · exact .refl p
  · exact .ite (p.setBlink_orderly _ _) (.refl p)

theorem Power.setDc_orderly (p : Power) (v : Bool) : p.Orderly (p.setDc v) := .of_same rfl rfl id

theorem Power.arriveDc_orderly (p : Power) : p.Orderly p.arriveDc :=
  .ite (p.setDc_orderly true) ((p.setDc_orderly true).trans (Power.moveFeed_orderly _ _ _ _))

theorem Power.departDc_orderly (p : Power) (l : Loads) : p.Orderly (p.departDc l) := by
  unfold Power.departDc
  dsimp only
  split
  · exact .ite ((p.setDc_orderly false).trans (Power.failSwitchover_orderly _ _)) (p.setDc_orderly false)
  · exact p.setDc_orderly false

theorem Power.recordExhaustion_orderly (p : Power) (h : Holdover) : p.Orderly (p.recordExhaustion h) :=
  .ite (.of_same rfl rfl id) (p.makeRecord_orderly _)

theorem Power.exhaust_orderly (p : Power) (h : Holdover) : p.Orderly (p.exhaust h) := by
  have marked : p.Orderly { p with feed := { p.feed with holdover := some { h with exhausted := true } } } := .of_same rfl rfl id
  have declared {q : Power} : q.Orderly { q with
      feed := { q.feed with causes := { q.feed.causes with exhausted := true } }
      toFront := q.toFront.sendEvent (exhaustedEvent h.planned) } :=
    .of_front (q.toFront.sendEvent_orderly _) rfl id
  exact ((marked.trans (Power.placeEnergy_orderly _)).trans declared).trans (Power.recordExhaustion_orderly _ h)

theorem Power.judgeExhaustion_orderly (p : Power) : p.Orderly p.judgeExhaustion := by
  unfold Power.judgeExhaustion
  split
  · exact .refl p
  · exact .ite (p.exhaust_orderly _) (.refl p)

theorem Power.judgeSwitchover_orderly (p : Power) (l : Loads) (r : PowerReading) : p.Orderly (p.judgeSwitchover l r) := by
  unfold Power.judgeSwitchover
  split
  · exact .refl p
  · exact .ite (p.confirmSwitchover_orderly l) (.refl p)

theorem Power.recompute_orderly (p : Power) (r : PowerReading) : p.Orderly (p.recompute r) := .of_same rfl rfl id

theorem Power.goodSample_orderly (p : Power) (l : Loads) (r : PowerReading) : p.Orderly (p.goodSample l r) :=
  ((p.recompute_orderly r).trans (Power.judgeExhaustion_orderly _)).trans (Power.judgeSwitchover_orderly _ l r)

/-! ## The pack link -/

theorem Power.setActivity_orderly (p : Power) (b : Bay) (a : LinkActivity) : p.Orderly (p.setActivity b a) := p.setLink_orderly _ _

theorem Power.badTransaction_orderly (p : Power) (l : Loads) (b : Bay) : p.Orderly (p.badTransaction l b) := by
  unfold Power.badTransaction
  split
  · exact p.setActivity_orderly _ _
  · exact .ite (p.pollBad_orderly _ _) (p.setActivity_orderly _ _)
  · exact .refl p
  · exact .refl p

theorem Power.judgeIdentity_orderly (p : Power) (l : Loads) (b : Bay) (i : Identity) : p.Orderly (p.judgeIdentity l b i) :=
  .ite ((p.setBay_orderly _ _).trans (Power.setActivity_orderly _ _ _)) ((p.setBay_orderly _ _).trans (Power.toFault_orderly _ _ _ _))

theorem Power.identBlock_orderly (p : Power) (l : Loads) (b : Bay) (k : Nat) (d : BitVec 128) : p.Orderly (p.identBlock l b k d) := by
  unfold Power.identBlock
  dsimp only
  split
  · exact p.setLink_orderly _ _
  · exact (p.setLink_orderly _ _).trans (Power.judgeIdentity_orderly _ _ _ _)
  · exact p.setLink_orderly _ _
  · exact p.identified_orderly _ _ _

theorem Power.pollBlock_orderly (p : Power) (l : Loads) (b : Bay) (k : Nat) (d : BitVec 128) : p.Orderly (p.pollBlock l b k d) :=
  .ite (p.setLink_orderly _ _) (p.pollGood_orderly _ _ _)

theorem Power.goodTransaction_orderly (p : Power) (l : Loads) (b : Bay) (d : BitVec 128) : p.Orderly (p.goodTransaction l b d) := by
  unfold Power.goodTransaction
  split
  · exact .ite (p.setActivity_orderly _ _) (p.identBlock_orderly _ _ _ _)
  · exact .ite (p.pollBad_orderly _ _) (p.pollBlock_orderly _ _ _ _)
  · exact .refl p
  · exact .refl p

theorem Power.linkReply_orderly (p : Power) (l : Loads) (b : Bay) (bytes : BitVec 136) : p.Orderly (p.linkReply l b bytes) := by
  unfold Power.linkReply
  split
  · exact .refl p
  · exact .ite (.refl p) (.ite (p.goodTransaction_orderly _ _ _) (p.badTransaction_orderly _ _))

theorem Power.linkTimeout_orderly (p : Power) (l : Loads) (b : Bay) : p.Orderly (p.linkTimeout l b) := by
  unfold Power.linkTimeout
  split
  · exact .refl p
  · exact .ite (p.badTransaction_orderly _ _) (.refl p)

theorem Power.identRetry_orderly (p : Power) (b : Bay) : p.Orderly (p.identRetry b) := by
  unfold Power.identRetry
  split
  · exact .ite (p.setActivity_orderly _ _) (.refl p)
  · exact .refl p

theorem Power.identDeadline_orderly (p : Power) (l : Loads) (b : Bay) : p.Orderly (p.identDeadline l b) := by
  unfold Power.identDeadline
  split
  · exact .ite (p.toFault_orderly _ _ _) (.refl p)
  · exact .refl p

theorem Power.pollDue_orderly (p : Power) (b : Bay) : p.Orderly (p.pollDue b) := by
  unfold Power.pollDue
  dsimp only
  split
  · exact .refl p
  · exact .ite (p.setLink_orderly _ _) (.refl p)

end Sys2Proof.Machine
end

section
/-! PROOF. What every operation of the machine keeps: the host's side, the hold table, the policy, the duties and settings in their ranges (R49, R72, R90, R93, R96, R104). -/

namespace Sys2Proof.Machine

open Sys2Proof.Safety

/-! ## Clamped fields -/

theorem within_clampNat {lo hi : Nat} (h : lo ≤ hi) (v : Nat) : within lo hi (clampNat lo hi v) := by
  simp only [within, clampNat]
  omega

/-! ## The light record -/

/-- The panel configuration and the duties are in their ranges, and a dark panel is dark. -/
def LightOk (l : LightRec) : Prop := PanelInRange l.panel ∧ DutiesInRange l ∧ DarkWhenOff l

/-- N_b within N_max asks for a duty of at most 1,024 (R88). -/
theorem targetDuty_le {nb nMax : Nat} (pos : 0 < nMax) (h : nb ≤ nMax) : targetDuty nb nMax ≤ 1024 := by
  refine Nat.lt_succ_iff.mp ((Nat.div_lt_iff_lt_mul pos).mpr ?_)
  have := Nat.mul_le_mul_right 1024 h
  omega

theorem LightRec.retarget_ok {l : LightRec} (h : LightOk l) : LightOk l.retarget := by
  obtain ⟨panel, ⟨-, pending, ceiling, live⟩, dark⟩ := h
  obtain ⟨⟨-, -⟩, ⟨low, -⟩, order, -⟩ := id panel
  refine ⟨panel, ⟨targetDuty_le (by omega) ?_, pending, ceiling, live⟩, dark⟩
  simp only [clampNat]
  omega

theorem LightRec.sample_ok {l : LightRec} (h : LightOk l) (lux now : Nat) : LightOk (l.sample lux now) := LightRec.retarget_ok h

theorem LightRec.stepDuty_ok {l : LightRec} (h : LightOk l) : LightOk l.stepDuty := by
  unfold LightRec.stepDuty
  split
  case isTrue on =>
    obtain ⟨panel, ⟨target, pending, ceiling, live⟩, -⟩ := h
    refine ⟨panel, ⟨target, pending, ceiling, ?_⟩, fun off => absurd (show l.panelEnable = false from off) (by simp [on])⟩
    dsimp only
    split
    · omega
    · split <;> omega
  case isFalse => exact h

theorem LightRec.cutDuty_ok {l : LightRec} (h : LightOk l) : LightOk l.cutDuty := by
  obtain ⟨panel, ⟨target, pending, ceiling, live⟩, dark⟩ := h
  refine ⟨panel, ⟨target, pending, ceiling, by simp only [LightRec.cutDuty]; omega⟩, fun off => ?_⟩
  simp [LightRec.cutDuty, dark off]

/-- A pass hands BLC duties of at most 1,024 (R71 to R73). -/
theorem Blocks.computePass_duties (s : Blocks) (c : PassCauses) (h : LightOk s.blc) :
    (s.computePass c).dCmd ≤ 1024 ∧ (s.computePass c).ceiling ≤ 1024 := by
  obtain ⟨⟨-, -, -, -, ⟨-, floor⟩, -⟩, ⟨target, -⟩, -⟩ := h
  have therm : (s.computePass c).dTherm ≤ 1024 := by
    simp only [Blocks.computePass, thermalDuty]
    split
    · omega
    · split
      · exact le_rfl
      · split <;> omega
  have ceiling : (s.computePass c).ceiling ≤ 1024 :=
    max_le (by omega) ((min_le_right _ _).trans therm)
  exact ⟨max_le (by omega) ((min_le_left _ _).trans target), ceiling⟩

/-! ## The invariants of the machine, kept together -/

/-- Between `s` and `t` every block stays in order, and the part runs on. -/
structure Blocks.Orderly (s t : Blocks) : Prop where
  power   : s.toPower.Orderly t.toPower
  powered : t.powered = s.powered
  light   : LightOk s.blc → LightOk t.blc
  motion  : MotionInRange s.mot.config → MotionInRange t.mot.config

namespace Blocks.Orderly

theorem refl (s : Blocks) : s.Orderly s := ⟨.refl _, rfl, id, id⟩

theorem trans {s t u : Blocks} (a : s.Orderly t) (b : t.Orderly u) : s.Orderly u :=
  ⟨a.power.trans b.power, b.powered.trans a.powered, b.light ∘ a.light, b.motion ∘ a.motion⟩

theorem ite {s t u : Blocks} {c : Prop} [Decidable c] (a : s.Orderly t) (b : s.Orderly u) : s.Orderly (if c then t else u) := by
  split
  · exact a
  · exact b

/-- A fold of orderly steps. -/
theorem foldl {α : Type} {step : Blocks → α → Blocks} (h : ∀ (s : Blocks) (a : α), s.Orderly (step s a)) (as : List α) (s : Blocks) :
    s.Orderly (as.foldl step s) := by
  induction as generalizing s with
  | nil => exact refl s
  | cons a as ih => exact (h s a).trans (ih _)

end Blocks.Orderly

theorem Blocks.withPower_orderly (s : Blocks) {p : Power} (h : s.toPower.Orderly p) : s.Orderly (s.withPower p) := ⟨h, rfl, id, id⟩

theorem Blocks.withFront_orderly (s : Blocks) {f : Front} (h : s.toFront.Orderly f) : s.Orderly (s.withFront f) :=
  ⟨s.toPower.setFront_orderly h, rfl, id, id⟩

theorem Blocks.withLight_orderly (s : Blocks) {l : LightRec} (h : LightOk s.blc → LightOk l) : s.Orderly (s.withLight l) :=
  ⟨.refl _, rfl, h, id⟩

theorem Blocks.withMot_orderly (s : Blocks) {m : MotionRec} (h : MotionInRange s.mot.config → MotionInRange m.config) :
    s.Orderly (s.withMot m) := ⟨.refl _, rfl, id, h⟩

theorem Blocks.withTimers_orderly (s : Blocks) (t : Timers) : s.Orderly (s.withTimers t) := ⟨.refl _, rfl, id, id⟩

theorem Blocks.setSfe_orderly (s : Blocks) (x : SfeRec) : s.Orderly { s with sfe := x } := ⟨.refl _, rfl, id, id⟩

theorem Blocks.setDue_orderly (s : Blocks) (d : PassCauses) : s.Orderly (s.withPower { s.toPower with due := d }) :=
  s.withPower_orderly (.of_same rfl rfl id)

theorem Blocks.finish_orderly (s : Blocks) (i : Fin 32) (c : Completion) : s.Orderly (s.finish i c) :=
  s.withFront_orderly (s.toFront.complete_orderly i c)

theorem Blocks.withMonitors_orderly (s : Blocks) (ms : List Monitor) : s.Orderly (s.withMonitors ms) :=
  s.withFront_orderly (s.toFront.setMonitors_orderly ms)

theorem Blocks.publishMonitors_orderly (s : Blocks) : s.Orderly (s.withFront s.toFront.publishMonitors) :=
  s.withFront_orderly s.toFront.publishMonitors_orderly

theorem Blocks.onPower_orderly (s : Blocks) {f : Power → Loads → Power} (h : ∀ p l, Power.Orderly p (f p l)) :
    s.Orderly (s.onPower f) := s.withPower_orderly (h _ _)

/-! ## The frame of every event -/

theorem Blocks.takeResults_orderly (s : Blocks) (c : PassCauses) : s.Orderly (s.takeResults (s.computePass c)) := by
  refine ⟨.refl _, rfl, fun h => ?_, id⟩
  obtain ⟨command, ceiling⟩ := s.computePass_duties c h
  obtain ⟨panel, ⟨target, -, -, live⟩, dark⟩ := h
  have taken : LightOk (s.blc.takePass (s.computePass c).dCmd (s.computePass c).ceiling) :=
    ⟨panel, ⟨target, command, ceiling, live⟩, dark⟩
  unfold Blocks.takeResults
  dsimp only
  split
  · exact LightRec.cutDuty_ok taken
  · exact taken

theorem Blocks.publishLight_orderly (s : Blocks) : s.Orderly s.publishLight := s.withFront_orderly (s.toFront.publish_orderly _ _)

theorem Blocks.publishEnergy_orderly (s : Blocks) : s.Orderly s.publishEnergy := s.withFront_orderly (s.toFront.publish_orderly _ _)

theorem Blocks.publishMotion_orderly (s : Blocks) : s.Orderly s.publishMotion := s.withFront_orderly (s.toFront.publish_orderly _ _)

theorem Blocks.sendPassEvents_orderly (s : Blocks) : s.Orderly s.sendPassEvents :=
  s.withFront_orderly ((Front.Orderly.foldl Front.sendEvent_orderly _ _).trans (Front.publishMonitors_orderly _))

theorem Blocks.pass_orderly (s : Blocks) (c : PassCauses) : s.Orderly (s.pass c) := by
  have adopted : s.Orderly (s.withFront s.toFront.adoptMonitors) := s.withFront_orderly (.of_same rfl rfl rfl)
  have judged := adopted.trans (Blocks.takeResults_orderly _ c)
  have examined (l : Loads) := judged.trans (Blocks.withPower_orderly _ (Power.reexamine_orderly _ l))
  exact ((examined _).trans (Blocks.publishLight_orderly _)).trans (Blocks.sendPassEvents_orderly _)

theorem Blocks.runDuePass_orderly (s : Blocks) : s.Orderly s.runDuePass :=
  .ite ((s.setDue_orderly noCauses).trans (Blocks.pass_orderly _ _)) (.refl s)

theorem Blocks.publishChanges_orderly (s old : Blocks) : s.Orderly (s.publishChanges old) := by
  have moved : s.Orderly (if motionCode old.mot.state = motionCode s.mot.state then s else s.publishMotion) :=
    .ite (.refl s) s.publishMotion_orderly
  exact .ite (moved.trans (Blocks.publishEnergy_orderly _)) moved

theorem Blocks.runEvent_orderly (s : Blocks) {core : Blocks → Blocks} {post : Front → Front} (hc : s.Orderly (core s))
    (hp : ∀ f : Front, f.Orderly (post f)) : s.Orderly (s.runEvent core post) := by
  have assigned := hc.trans (Blocks.withPower_orderly _ (p := (core s).toPower.reassign) (.of_same rfl rfl id))
  have passed := assigned.trans (Blocks.runDuePass_orderly _)
  exact (passed.trans (Blocks.withFront_orderly _ (hp _))).trans (Blocks.publishChanges_orderly _ _)

theorem Blocks.powerEvent_orderly (s : Blocks) {f : Power → Loads → Power} (h : ∀ p l, Power.Orderly p (f p l)) :
    s.Orderly (s.powerEvent f) := s.runEvent_orderly (s.onPower_orderly h) .refl

theorem Blocks.lossEvent_orderly (s : Blocks) {f : Power → Loads → Power} (h : ∀ p l, Power.Orderly p (f p l)) :
    s.Orderly (s.lossEvent f) := s.runEvent_orderly (s.onPower_orderly h) fun g => g.sendEvent_orderly _

theorem Blocks.whenDue_orderly (s : Blocks) (d : Option Nat) {f : Blocks → Blocks} (h : s.Orderly (f s)) : s.Orderly (s.whenDue d f) := by
  cases d with
  | none => exact .refl s
  | some d => exact .ite h (.refl s)

theorem Blocks.quiet_orderly (s : Blocks) {f : Front → Front} (h : s.toFront.Orderly (f s.toFront)) : s.Orderly (s.quiet f) :=
  s.withFront_orderly h

/-! ## Motion -/

theorem Blocks.enterMotion_orderly (s : Blocks) (st : MotionState) : s.Orderly (s.enterMotion st) := s.withMot_orderly id

theorem Blocks.enterSettle_orderly (s : Blocks) : s.Orderly s.enterSettle := s.enterMotion_orderly _

theorem Blocks.liftMotion_orderly (s : Blocks) : s.Orderly s.liftMotion := s.withPower_orderly (s.toPower.removeHolds_orderly _ _)

theorem Blocks.placeMotion_orderly (s : Blocks) : s.Orderly s.placeMotion :=
  s.withPower_orderly (s.toPower.changeTable_orderly _ (((keepsDistinct_placeEntry _ _).trans (keepsDistinct_placeEntry _ _)).trans
    (keepsDistinct_placeEntry _ _)))

theorem Blocks.confirmFall_orderly (s : Blocks) : s.Orderly s.confirmFall := by
  have placed (st : MotionState) (c : Prop) [Decidable c] :
      s.Orderly (if c then (s.enterMotion st).placeMotion else s.enterMotion st) :=
    .ite ((s.enterMotion_orderly st).trans (Blocks.placeMotion_orderly _)) (s.enterMotion_orderly st)
  unfold Blocks.confirmFall
  dsimp only
  have front (t : Blocks) (on : Bool) (ring : List RingEntry) (i n : Word) :
      t.toFront.Orderly (((t.toFront.raise .fall).sendEvent (plainEvent .fall)).settleTrace on ring i n).front :=
    ((t.toFront.raise_orderly .fall).trans (Front.sendEvent_orderly _ _)).trans (Front.settleTrace_orderly _ _ _ _ _)
  exact ((placed _ _).trans (Blocks.withFront_orderly _ (front _ _ _ _ _))).trans (Blocks.withMot_orderly _ id)

theorem Blocks.impactFall_orderly (s : Blocks) (e : Episode) (a : Axes) (v : Bool) : s.Orderly (s.impactFall e a v) :=
  (s.enterMotion_orderly _).trans (Blocks.withMot_orderly _ id)

theorem Blocks.endFall_orderly (s : Blocks) (e : Episode) (long : Bool) (ms : Nat) : s.Orderly (s.endFall e long ms) :=
  ((s.withFront_orderly (s.toFront.makeFallRecord_orderly _ _ _)).trans (Blocks.enterSettle_orderly _)).trans (Blocks.withMot_orderly _ id)

theorem Power.makeDrop_orderly (p : Power) (d : DropData) : p.Orderly (p.makeDrop d) :=
  .ite (.of_same rfl rfl id) (p.setFront_orderly (p.toFront.writeDrop_orderly _ _ _ _))

theorem Blocks.endDrop_orderly (s : Blocks) (e : Episode) (w : ImpactWindow) : s.Orderly (s.endDrop e w) :=
  ⟨s.toPower.makeDrop_orderly _, rfl, id, id⟩

theorem Blocks.endShock_orderly (s : Blocks) (ret : ReturnState) (w : ImpactWindow) : s.Orderly (s.endShock ret w) :=
  ⟨s.toPower.setFront_orderly (s.toFront.makeTied_orderly _ _), rfl, id, id⟩

theorem Blocks.returnShock_orderly (s : Blocks) (ret : ReturnState) : s.Orderly (s.returnShock ret) := by
  cases ret with
  | normal => exact s.enterMotion_orderly _
  | settle => exact s.enterSettle_orderly

theorem Blocks.openShock_orderly (s : Blocks) (ret : ReturnState) (a : Axes) (v : Bool) : s.Orderly (s.openShock ret a v) :=
  s.enterMotion_orderly _

theorem Blocks.completeSettle_orderly (s : Blocks) : s.Orderly s.completeSettle :=
  (s.enterMotion_orderly _).trans (Blocks.liftMotion_orderly _)

theorem Blocks.judgeSample_orderly (s : Blocks) (a : Axes) (v : Bool) : s.Orderly (s.judgeSample a v) := by
  unfold Blocks.judgeSample
  dsimp only
  split
  · exact .ite (s.openShock_orderly _ _ _) (.ite s.confirmFall_orderly (.refl s))
  · exact .ite (s.impactFall_orderly _ _ _) (.ite (s.endFall_orderly _ _ _) (.ite (s.endFall_orderly _ _ _) (.refl s)))
  · exact .ite ((s.endDrop_orderly _ _).trans (Blocks.enterSettle_orderly _)) (s.withMot_orderly id)
  · exact .ite ((s.endShock_orderly _ _).trans (Blocks.returnShock_orderly _ _)) (s.withMot_orderly id)
  · exact .ite (s.openShock_orderly _ _ _) (.ite s.confirmFall_orderly (.ite s.completeSettle_orderly (.refl s)))
  · exact .refl s

theorem MotionRec.countRuns_config (m : MotionRec) (m2 : Nat) (o : Orientation) : (m.countRuns m2 o).config = m.config := by
  unfold MotionRec.countRuns
  split <;> rfl

theorem MotionRec.orient_config (m : MotionRec) (a : Axes) : (m.orient a).config = m.config := by
  unfold MotionRec.orient
  dsimp only
  split <;> rfl

theorem MotionRec.history_config (m : MotionRec) (a : Axes) : (m.history a).1.config = m.config := by
  unfold MotionRec.history
  split
  · rfl
  · split <;> rfl

theorem Blocks.judgedSample_orderly (s : Blocks) (a : Axes) : s.Orderly (s.judgedSample a) := by
  have joined : s.Orderly (s.withMot ((s.mot.orient a).history a).1) :=
    s.withMot_orderly (by rw [MotionRec.history_config, MotionRec.orient_config]; exact id)
  have counted {t : Blocks} (h : s.Orderly t) (o : Orientation) : s.Orderly ((t.withMot (t.mot.countRuns a.m2 o)).judgeSample a a.saturated) :=
    (h.trans (t.withMot_orderly (by rw [MotionRec.countRuns_config]; exact id))).trans (Blocks.judgeSample_orderly _ _ _)
  unfold Blocks.judgedSample
  dsimp only
  split
  · exact counted joined _
  · exact counted (joined.trans (Blocks.withFront_orderly _ (Front.appendTrace_orderly _ _))) _

theorem Blocks.returnSample_orderly (s : Blocks) (a : Axes) : s.Orderly (s.returnSample a) := by
  refine Blocks.Orderly.trans (s.withMot_orderly ?_) (Blocks.liftMotion_orderly _)
  exact id

theorem Blocks.takeSample_orderly (s : Blocks) (a : Axes) : s.Orderly (s.takeSample a) :=
  have taken : s.Orderly (s.withMot (s.mot.take a s.tmb.uptime)) := s.withMot_orderly id
  .ite (taken.trans (Blocks.judgedSample_orderly _ _)) (taken.trans (Blocks.returnSample_orderly _ _))

theorem Blocks.endWindowEarly_orderly (s : Blocks) : s.Orderly s.endWindowEarly := by
  unfold Blocks.endWindowEarly
  split
  · exact s.endDrop_orderly _ _
  · exact s.endShock_orderly _ _
  · exact .refl s

theorem Blocks.loseAccel_orderly (s : Blocks) : s.Orderly s.loseAccel := by
  have noted := (s.withFront_orderly (s.toFront.makeRecord_orderly (.sensorFault .accel))).trans (Blocks.endWindowEarly_orderly _)
  have lost (m : MotionRec) (h : MotionInRange _ → MotionInRange m.config) := noted.trans (Blocks.withMot_orderly _ h)
  refine (lost _ ?_).trans (Blocks.withFront_orderly _ (Front.endCapture_orderly _))
  exact id

theorem Blocks.settleLimit_orderly (s : Blocks) : s.Orderly s.settleLimit := by
  refine Blocks.Orderly.trans (s.withMot_orderly ?_) (Blocks.liftMotion_orderly _)
  exact id

theorem Blocks.liftAfterLoss_orderly (s : Blocks) : s.Orderly s.liftAfterLoss := by
  refine Blocks.Orderly.trans (s.withMot_orderly ?_) (Blocks.liftMotion_orderly _)
  exact id

/-! ## Requests -/

theorem Blocks.doReleaseBay_orderly (s : Blocks) (i : Fin 32) (c : Byte) : s.Orderly (s.doReleaseBay i c) := by
  unfold Blocks.doReleaseBay
  split
  · exact s.finish_orderly _ _
  · split
    · exact s.finish_orderly _ _
    · exact s.finish_orderly _ _
    · exact s.finish_orderly _ _
    · split
      · exact .refl s
      · exact s.withPower_orderly (s.toPower.startRelease_orderly _ _ _ _)

theorem Blocks.doCancelRelease_orderly (s : Blocks) (i : Fin 32) (c : Byte) : s.Orderly (s.doCancelRelease i c) := by
  unfold Blocks.doCancelRelease
  split
  · exact s.finish_orderly _ _
  · split
    · exact (s.withPower_orderly (s.toPower.cancelRelease_orderly _ _ _)).trans (Blocks.finish_orderly _ _ _)
    · exact s.finish_orderly _ _

theorem Blocks.doSetEnergyPolicy_orderly (s : Blocks) (i : Fin 32) (p c : Byte) (t : Half) (m : Byte) (r o : Half) (a : Word) :
    s.Orderly (s.doSetEnergyPolicy i p c t m r o a) := by
  have adopted (f : FeedRec) (b : BayPolicy) (h : PolicyInRange s.feed s.bayPolicy → PolicyInRange f b) :
      s.Orderly (s.withPower { s.toPower with feed := f, bayPolicy := b }) := s.withPower_orderly (.of_same rfl rfl h)
  refine (adopted _ _ ?_).trans (Blocks.finish_orderly _ _ _)
  rintro ⟨-, -, -, -, -, -, kept⟩
  exact ⟨within_clampNat (by decide) _, within_clampNat (by decide) _, within_clampNat (by decide) _, within_clampNat (by decide) _,
    within_clampNat (by decide) _, within_clampNat (by decide) _, kept⟩

theorem Blocks.doSetReservoir_orderly (s : Blocks) (i : Fin 32) (c v e l : Word) : s.Orderly (s.doSetReservoir i c v e l) := by
  have adopted : s.toPower.Orderly { s.toPower with feed := { s.feed with
      resC := clampNat 1000 60000 c.toNat, vMin := clampNat 3000 9000 v.toNat, eShut := clampNat 0 500000 e.toNat
      pResLimit := clampNat 5000 60000 l.toNat } } := by
    refine .of_same rfl rfl ?_
    rintro ⟨h1, h2, h3, h4, h5, h6, -⟩
    exact ⟨h1, h2, h3, h4, h5, h6, within_clampNat (by decide) _, within_clampNat (by decide) _, within_clampNat (by decide) _,
      within_clampNat (by decide) _⟩
  exact (s.withPower_orderly (.ite adopted (adopted.trans (Power.reexamine_orderly _ _)))).trans (Blocks.finish_orderly _ _ _)

theorem Blocks.supersede_orderly (s : Blocks) : s.Orderly s.supersede := by
  unfold Blocks.supersede
  split
  · exact .refl s
  · exact s.finish_orderly _ _

theorem Blocks.doLoadCurve_orderly (s : Blocks) (i : Fin 32) (o n : Byte) : s.Orderly (s.doLoadCurve i o n) := by
  unfold Blocks.doLoadCurve
  dsimp only
  split
  · exact s.finish_orderly _ _
  · exact s.supersede_orderly.trans (Blocks.withLight_orderly _ id)

theorem Blocks.dueLight_orderly (s : Blocks) : s.Orderly s.dueLight := s.setDue_orderly _

theorem Blocks.doSetLightMode_orderly (s : Blocks) (i : Fin 32) (m : Byte) (v : Half) : s.Orderly (s.doSetLightMode i m v) := by
  refine ((s.withLight_orderly fun h => ?_).trans (Blocks.dueLight_orderly _)).trans (Blocks.finish_orderly _ _ _)
  refine LightRec.retarget_ok ?_
  split
  · exact h
  · exact h

theorem Blocks.doSetPanel_orderly (s : Blocks) (i : Fin 32) (a b c d e f g h : Half) : s.Orderly (s.doSetPanel i a b c d e f g h) := by
  refine ((s.withLight_orderly ?_).trans (Blocks.dueLight_orderly _)).trans (Blocks.finish_orderly _ _ _)
  rintro ⟨-, duties, dark⟩
  refine LightRec.retarget_ok ⟨⟨?_, within_clampNat (by decide) _, min_le_right _ _, within_clampNat (by decide) _,
    within_clampNat (by decide) _, within_clampNat (by decide) _, within_clampNat (by decide) _, within_clampNat (by decide) _,
    within_clampNat (by decide) _⟩, duties, dark⟩
  exact ⟨Nat.zero_le _, (min_le_left _ _).trans (within_clampNat (by decide) _).2⟩

theorem Blocks.doSetMotion_orderly (s : Blocks) (i : Fin 32) (a b c d e f g h : Half) (p t : Byte) :
    s.Orderly (s.doSetMotion i a b c d e f g h p t) := by
  refine Blocks.Orderly.trans (s.withMot_orderly fun _ => ?_) (Blocks.finish_orderly _ _ _)
  exact ⟨within_clampNat (by decide) _, within_clampNat (by decide) _, within_clampNat (by decide) _, within_clampNat (by decide) _,
    within_clampNat (by decide) _, within_clampNat (by decide) _, within_clampNat (by decide) _, within_clampNat (by decide) _⟩

theorem Blocks.doPlaceHold_orderly (s : Blocks) (i : Fin 32) (t : Byte) (r d : Half) : s.Orderly (s.doPlaceHold i t r d) := by
  unfold Blocks.doPlaceHold
  split
  · exact s.finish_orderly _ _
  · dsimp only
    split
    · exact (s.withPower_orderly (s.toPower.changeTable_orderly _ (keepsDistinct_placeEntry _ _))).trans (Blocks.finish_orderly _ _ _)
    · exact (s.withPower_orderly (s.toPower.changeTable_orderly _ (keepsDistinct_placeEntry _ _))).trans (Blocks.finish_orderly _ _ _)
    · exact s.finish_orderly _ _

theorem Blocks.doLiftHold_orderly (s : Blocks) (i : Fin 32) (t : Byte) : s.Orderly (s.doLiftHold i t) := by
  unfold Blocks.doLiftHold
  split
  · exact s.finish_orderly _ _
  · split
    · exact s.finish_orderly _ _
    · exact (s.withPower_orderly (s.toPower.removeHolds_orderly _ _)).trans (Blocks.finish_orderly _ _ _)

theorem Blocks.doSetMonitor_orderly (s : Blocks) (i : Fin 32) (a b c d e f g h : Byte) (x y : Word) :
    s.Orderly (s.doSetMonitor i a b c d e f g h x y) := by
  unfold Blocks.doSetMonitor
  split
  · exact s.finish_orderly _ _
  · exact (s.withMonitors_orderly _).trans (Blocks.finish_orderly _ _ _)

theorem Blocks.doClearMonitors_orderly (s : Blocks) (i : Fin 32) (m : Byte) : s.Orderly (s.doClearMonitors i m) :=
  (Blocks.Orderly.ite (s.withMonitors_orderly _) ((s.withMonitors_orderly _).trans (Blocks.publishMonitors_orderly _))).trans
    (Blocks.finish_orderly _ _ _)

theorem Blocks.doThawMonitors_orderly (s : Blocks) (i : Fin 32) (g : Byte) : s.Orderly (s.doThawMonitors i g) :=
  (Blocks.Orderly.ite (s.withMonitors_orderly _) ((s.withMonitors_orderly _).trans (Blocks.publishMonitors_orderly _))).trans
    (Blocks.finish_orderly _ _ _)

theorem Blocks.doSetTime_orderly (s : Blocks) (i : Fin 32) (v : Word) : s.Orderly (s.doSetTime i v) := by
  have set (t : Timebase) : s.toFront.Orderly { s.toFront with tmb := t } := .of_same rfl rfl rfl
  exact (s.withFront_orderly (((set _).trans (Front.publish_orderly _ _ _)).trans (Front.makeRecord_orderly _ _))).trans
    (Blocks.finish_orderly _ _ _)

theorem Blocks.perform_orderly (s : Blocks) (i : Fin 32) (r : Request) : s.Orderly (s.perform i r) := by
  cases r with
  | releaseBay => exact s.doReleaseBay_orderly _ _
  | cancelRelease => exact s.doCancelRelease_orderly _ _
  | setEnergyPolicy => exact s.doSetEnergyPolicy_orderly _ _ _ _ _ _ _ _
  | setReservoir => exact s.doSetReservoir_orderly _ _ _ _ _
  | loadCurve => exact s.doLoadCurve_orderly _ _ _
  | setLightMode => exact s.doSetLightMode_orderly _ _ _
  | setPanel => exact s.doSetPanel_orderly _ _ _ _ _ _ _ _ _
  | setMotion => exact s.doSetMotion_orderly _ _ _ _ _ _ _ _ _ _ _
  | placeHold => exact s.doPlaceHold_orderly _ _ _ _
  | liftHold => exact s.doLiftHold_orderly _ _
  | setMonitor => exact s.doSetMonitor_orderly _ _ _ _ _ _ _ _ _ _ _
  | clearMonitors => exact s.doClearMonitors_orderly _ _
  | thawMonitors => exact s.doThawMonitors_orderly _ _
  | setTime => exact s.doSetTime_orderly _ _
  | unknown => exact s.finish_orderly _ _

theorem Blocks.takeSlot_orderly (s : Blocks) (i : Fin 32) : s.Orderly (s.takeSlot i) :=
  s.runEvent_orderly ((s.withFront_orderly (s.toFront.markTaken_orderly i)).trans (Blocks.perform_orderly _ _ _)) .refl

theorem Blocks.scanSlot_orderly (s : Blocks) (i : Fin 32) : s.Orderly (s.scanSlot i) := .ite (s.takeSlot_orderly i) (.refl s)

theorem Blocks.sweep_orderly (s : Blocks) : s.Orderly s.sweep :=
  have read := s.withFront_orderly s.toFront.reReadIndex_orderly
  .ite (read.trans (.foldl Blocks.scanSlot_orderly _ _)) read

theorem Blocks.hostPosts_orderly (s : Blocks) (p : Posting) (r : Request) : s.Orderly (s.hostPosts p r) :=
  have posted := s.withFront_orderly (s.toFront.post_orderly p r)
  .ite (posted.trans (Blocks.takeSlot_orderly _ _)) posted

theorem Blocks.restartJobs_orderly (s : Blocks) : s.Orderly s.restartJobs := by
  have aborted := s.withFront_orderly s.toFront.abortAll_orderly
  have released (l : Loads) := aborted.trans (Blocks.withPower_orderly _
    ((Power.abortRelease_orderly _ l .A).trans (Power.abortRelease_orderly _ l .B)))
  have dropped (t : Blocks) : t.Orderly (t.withLight { t.blc with pendingCurve := none }) := t.withLight_orderly id
  exact ((released _).trans (dropped _)).trans (Blocks.withPower_orderly _ (Power.removeHolds_orderly _ _ _))

theorem Blocks.exchangeRestart_orderly (s : Blocks) : s.Orderly s.exchangeRestart :=
  s.runEvent_orderly s.restartJobs_orderly Front.restartRegisters_orderly

theorem Blocks.writeEnable_orderly (s : Blocks) (on : Bool) : s.Orderly (s.writeEnable on) :=
  have set : s.Orderly (s.quiet fun f => { f with exchangeEnable := on }) := s.quiet_orderly (.of_same rfl rfl rfl)
  .ite (set.trans (Blocks.sweep_orderly _)) set

/-! ## Backlight and sensors -/

theorem Blocks.adoptCurve_orderly (s : Blocks) : s.Orderly s.adoptCurve := by
  unfold Blocks.adoptCurve
  split
  · exact .refl s
  · have adopted (l : LightRec) (h : LightOk s.blc → LightOk l) : s.Orderly (s.withLight l.retarget) :=
      s.withLight_orderly fun ok => LightRec.retarget_ok (h ok)
    refine (adopted _ ?_).trans (Blocks.finish_orderly _ _ _)
    exact id

theorem Blocks.applyPoint_orderly (s : Blocks) : s.Orderly s.applyPoint :=
  s.adoptCurve_orderly.trans (Blocks.withLight_orderly _ LightRec.stepDuty_ok)

theorem Blocks.withAppMode_orderly (s : Blocks) (m : AppMode) : s.Orderly (s.withAppMode m) := s.withLight_orderly id

theorem Blocks.goodSample_orderly (s : Blocks) (r : PowerReading) : s.Orderly (s.goodSample r) :=
  (s.setSfe_orderly (s.sfe.takePower r s.tmb.uptime)).trans
    (Blocks.onPower_orderly _ (f := fun p l => p.goodSample l r) fun p l => p.goodSample_orderly l r)

theorem Blocks.convertPower_orderly (s : Blocks) (r : Option PowerReading) : s.Orderly (s.convertPower r) := by
  cases r with
  | none => exact s.withTimers_orderly _
  | some r =>
    exact (s.withTimers_orderly { s.timers with powerSense := s.timers.powerSense + 10 }).trans
      (Blocks.runEvent_orderly _ (core := fun y => y.goodSample r) (post := id) (Blocks.goodSample_orderly _ r) .refl)

theorem Blocks.sensorFault_orderly (s : Blocks) (x : Sensor) : s.Orderly (s.sensorFault x) :=
  s.withFront_orderly (s.toFront.makeRecord_orderly _)

theorem Blocks.losePower_orderly (s : Blocks) : s.Orderly s.losePower :=
  .ite (.refl s) ((s.setSfe_orderly _).trans (Blocks.sensorFault_orderly _ _))

theorem Blocks.loseTherm_orderly (s : Blocks) : s.Orderly s.loseTherm :=
  .ite (.refl s) ((s.setSfe_orderly _).trans (Blocks.sensorFault_orderly _ _))

theorem Blocks.readTherm_orderly (s : Blocks) (t : Int) : s.Orderly (s.readTherm t) := .ite (s.setSfe_orderly _) s.loseTherm_orderly

theorem Blocks.loseAmbient_orderly (s : Blocks) : s.Orderly s.loseAmbient :=
  .ite (.refl s) (Blocks.Orderly.trans (t := { s with blc := { s.blc with ambient := .stale } }) (s.withLight_orderly id)
    (Blocks.sensorFault_orderly _ _))

end Sys2Proof.Machine
end

section
/-! PROOF. What a step can be, and the invariants that every step keeps: the log, the hold table, duties and settings, the outside (R49 to R51, R60, R90, R96, R104, R148 to R151, R157). -/

namespace Sys2Proof.Machine

open Sys2Proof.Safety

/-! ## What a step can be -/

/-! Each row that is no request, by its meaning (the rows of the supply, of the ignored offsets and of the area stand where they are used). -/

theorem exec_presenceClosed (b : Bay) (s : State) : exec (.presenceClosed b) s =
    s.whilePowered fun x => x.whenDue (some earliestPresence) fun y => y.powerEvent fun p _ => p.seat b := rfl

theorem exec_presenceOpened (b : Bay) (s : State) : exec (.presenceOpened b) s =
    s.whilePowered fun x =>
      if (x.bay b).state = .empty then x.powerEvent fun p _ => p.setBay b { p.bay b with presence := false }
      else if x.feed.kind = feedOf b then x.lossEvent fun p l => p.unseat l b
      else x.powerEvent fun p l => p.unseat l b := rfl

theorem exec_latchSenseChange (b : Bay) (isOpen : Bool) (s : State) :
    exec (.latchSenseChange b isOpen) s = s.whilePowered fun x => x.powerEvent fun p _ => p.senseLatch b isOpen := rfl

theorem exec_buttonPress (b : Bay) (s : State) :
    exec (.buttonPress b) s = s.whilePowered fun x => x.powerEvent fun p l => p.pressButton l b := rfl

theorem exec_packLinkReply (b : Bay) (bytes : BitVec 136) (s : State) :
    exec (.packLinkReply b bytes) s = s.whilePowered fun x => x.powerEvent fun p l => p.linkReply l b bytes := rfl

theorem exec_packLinkTimeout (b : Bay) (s : State) :
    exec (.packLinkTimeout b) s = s.whilePowered fun x => x.powerEvent fun p l => p.linkTimeout l b := rfl

theorem exec_identificationRetry (b : Bay) (s : State) :
    exec (.identificationRetry b) s = s.whilePowered fun x => x.powerEvent fun p _ => p.identRetry b := rfl

theorem exec_identificationDeadline (b : Bay) (s : State) :
    exec (.identificationDeadline b) s = s.whilePowered fun x => x.powerEvent fun p l => p.identDeadline l b := rfl

theorem exec_pollDue (b : Bay) (s : State) :
    exec (.pollDue b) s = s.whilePowered fun x => x.powerEvent fun p _ => p.pollDue b := rfl

theorem exec_releaseWaitLimit (b : Bay) (s : State) :
    exec (.releaseWaitLimit b) s = s.whilePowered fun x => x.powerEvent fun p l => p.waitLimit l b := rfl

theorem exec_unlatchWait (b : Bay) (s : State) :
    exec (.unlatchWait b) s = s.whilePowered fun x => x.powerEvent fun p _ => p.unlatchExpires b := rfl

theorem exec_openWindow (b : Bay) (s : State) :
    exec (.openWindow b) s = s.whilePowered fun x => x.powerEvent fun p _ => p.openExpires b := rfl

theorem exec_refusalBlinkEnd (b : Bay) (s : State) :
    exec (.refusalBlinkEnd b) s = s.whilePowered fun x => x.powerEvent fun p _ => p.blinkEnds b := rfl

theorem exec_dcArrival (s : State) :
    exec .dcArrival s = s.whilePowered fun x => x.whenDue (some earliestArrival) fun y => y.powerEvent fun p _ => p.arriveDc := rfl

theorem exec_dcDeparture (s : State) : exec .dcDeparture s =
    s.whilePowered fun x =>
      if x.feed.kind = .dc then x.lossEvent fun p l => (p.setDc false).loss l .dcDeparture
      else x.powerEvent fun p l => p.departDc l := rfl

theorem exec_packCollapse (b : Bay) (s : State) : exec (.packCollapse b) s =
    s.whilePowered fun x =>
      if x.feed.kind = feedOf b ∧ x.fhu.collapseFrom + 5 ≤ x.tmb.uptime then x.lossEvent fun p l => p.loss l .voltage
      else x := rfl

theorem exec_switchoverDeadline (s : State) : exec .switchoverDeadline s =
    s.whilePowered fun x =>
      x.whenDue (x.feed.switchover.map fun w => w.deadline) fun y => y.powerEvent fun p l => p.failSwitchover l := rfl

theorem exec_powerSenseSample (reading : Option PowerReading) (s : State) : exec (.powerSenseSample reading) s =
    s.whilePowered fun x => x.whenDue (some x.timers.powerSense) fun y => y.convertPower reading := rfl

theorem exec_powerSenseLost (s : State) :
    exec .powerSenseLost s = s.whilePowered fun x => x.whenDue (some (x.sfe.powerGoodAt + 50)) Blocks.losePower := rfl

theorem exec_thermistorReading (t : Int) (s : State) : exec (.thermistorReading t) s =
    s.whilePowered fun x =>
      x.whenDue (some x.timers.thermistor) fun y =>
        (y.withTimers { y.timers with thermistor := y.timers.thermistor + 100 }).readTherm t := rfl

theorem exec_thermistorLost (s : State) :
    exec .thermistorLost s = s.whilePowered fun x => x.whenDue (some (x.sfe.thermGoodAt + 1000)) Blocks.loseTherm := rfl

theorem exec_ambientSample_eq (lux : Nat) (s : State) :
    exec (.ambientSample lux) s = s.whilePowered fun x => { x with blc := x.blc.sample (min 120000 lux) x.tmb.uptime } := rfl

theorem exec_ambientLost (s : State) :
    exec .ambientLost s = s.whilePowered fun x => x.whenDue (some (x.blc.ambientFrom + 500)) Blocks.loseAmbient := rfl

theorem exec_accelSample (x y z : Int) (s : State) : exec (.accelSample x y z) s =
    s.whilePowered fun b => b.runEvent (fun c => c.takeSample ⟨clampAxis x, clampAxis y, clampAxis z⟩) id := rfl

theorem exec_sampleWatch (s : State) : exec .sampleWatch s =
    s.whilePowered fun x =>
      if x.mot.health = .lost then x
      else x.whenDue (some x.mot.watchDeadline) fun y => y.runEvent Blocks.loseAccel id := rfl

theorem exec_liftDeadline (s : State) :
    exec .liftDeadline s = s.whilePowered fun x => x.whenDue x.mot.liftDeadline fun y => y.runEvent Blocks.liftAfterLoss id := rfl

theorem exec_settleDeadline (s : State) : exec .settleDeadline s =
    s.whilePowered fun x => x.whenDue x.mot.state.settleDeadline fun y => y.runEvent Blocks.settleLimit id := rfl

theorem exec_holdExpiry (t : Target) (s : State) : exec (.holdExpiry t) s =
    s.whilePowered fun x => x.whenDue (x.hld.expiryOf t) fun y => y.powerEvent fun p l => p.removeHolds l (isSoftwareOn t) := rfl

theorem exec_storageAcknowledge (asserted : Bool) (s : State) :
    exec (.storageAcknowledge asserted) s = s.whilePowered fun x => x.powerEvent fun p _ => p.setAckLine asserted := rfl

theorem exec_ackDeadline (s : State) :
    exec .ackDeadline s = s.whilePowered fun x => x.whenDue x.hld.wait fun y => y.powerEvent fun p _ => p.endWait .notAcked := rfl

theorem exec_periodicTimer (s : State) :
    exec .periodicTimer s = s.whilePowered fun x => x.whenDue (some x.timers.pass) fun y => y.runEvent Blocks.duePeriodic id := rfl

theorem exec_frameStart (s : State) :
    exec .frameStart s = s.whilePowered fun x => x.applyPoint.withAppMode (.frame (x.tmb.uptime + 100)) := rfl

theorem exec_freeRunPoint (s : State) : exec .freeRunPoint s =
    s.whilePowered fun x =>
      x.whenDue x.blc.appMode.nextPoint fun y => y.applyPoint.withAppMode (.freeRun (y.blc.appMode.nextPoint.getD 0 + 16)) := rfl

theorem exec_frameWatchDeadline (s : State) : exec .frameWatchDeadline s =
    s.whilePowered fun x =>
      x.whenDue x.blc.appMode.watchDeadline fun y =>
        y.applyPoint.withAppMode (.freeRun (y.blc.appMode.watchDeadline.getD 0 + 16)) := rfl

theorem exec_panelEnableFall (s : State) :
    exec .panelEnableFall s = s.whilePowered fun x => x.withLight { x.blc with panelEnable := false, liveDuty := 0 } := rfl

theorem exec_panelEnableRise (s : State) : exec .panelEnableRise s =
    s.whilePowered fun x => if x.blc.panelEnable then x else x.withLight { x.blc with panelEnable := true, liveDuty := 0 } := rfl

theorem exec_sweepTimer (s : State) : exec .sweepTimer s =
    s.whilePowered fun x =>
      x.whenDue (some x.timers.sweep) fun y => (y.withTimers { y.timers with sweep := y.timers.sweep + 20 }).sweep := rfl

theorem exec_energyPagePeriodic (s : State) : exec .energyPagePeriodic s =
    s.whilePowered fun x =>
      x.whenDue (some x.timers.energyPage) fun y =>
        (y.withTimers { y.timers with energyPage := y.timers.energyPage + 250 }).publishEnergy := rfl

theorem exec_motionPagePeriodic (s : State) : exec .motionPagePeriodic s =
    s.whilePowered fun x =>
      x.whenDue (some x.timers.motionPage) fun y =>
        (y.withTimers { y.timers with motionPage := y.timers.motionPage + 50 }).publishMotion := rfl

theorem exec_timePagePeriodic (s : State) : exec .timePagePeriodic s =
    s.whilePowered fun x =>
      x.whenDue (some x.timers.timePage) fun y =>
        (y.withTimers { y.timers with timePage := y.timers.timePage + 1000 }).quiet Front.publishTime := rfl

theorem exec_calendarStep (s : State) : exec .calendarStep s =
    s.whilePowered fun x => x.whenDue x.tmb.nextSecond fun y => y.quiet fun f => { f with tmb := f.tmb.stepCalendar } := rfl

theorem exec_attentionRequests (s : State) : exec .attentionRequests s = s.whilePowered Blocks.sweep := rfl

theorem exec_attentionLog (s : State) : exec .attentionLog s = s.whilePowered fun x => x.quiet Front.reReadIndex := rfl

theorem exec_attentionTrace_eq (s : State) : exec .attentionTrace s = s.whilePowered fun x => x.quiet Front.releaseTrace := rfl

theorem exec_exchangeEnable (on : Bool) (s : State) : exec (.exchangeEnable on) s = s.whilePowered fun x => x.writeEnable on := rfl

theorem exec_exchangeRestart (v : Bool) (s : State) : exec (.exchangeRestart v) s = s.whilePowered Blocks.exchangeRestart := rfl

theorem exec_hostLinkReset (s : State) : exec .hostLinkReset s = s.whilePowered fun x => x.exchangeRestart := rfl

theorem exec_summaryWrite (w : RegWrite) (s : State) :
    exec (.summaryWrite w) s = s.whilePowered fun x => x.quiet fun f => { f with summary := clearedSummary f.summary w } := rfl

theorem exec_summaryEnableWrite (w : RegWrite) (s : State) : exec (.summaryEnableWrite w) s =
    s.whilePowered fun x => x.quiet fun f => { f with summaryEnable := writtenEnable f.summaryEnable w } := rfl

/-- The rows that post a request are the host's posting of their slot (10.4). -/
theorem exec_of_requestOf {c : Instr} {p : Posting} {r : Request} (h : requestOf c = some (p, r)) (s : State) :
    exec c s = s.whilePowered fun x => x.hostPosts p r := by
  cases c <;> simp only [requestOf, Option.some.injEq, Prod.mk.injEq, reduceCtorEq] at h <;> obtain ⟨rfl, rfl⟩ := h <;> rfl

theorem exec_hostMemoryWrite (a : Nat) (d : WriteData) (s : State) : exec (.hostMemoryWrite a d) s =
    if Config.areaSize < a + (writeDataBytes d).length then .fault .outsideExchangeArea
    else s.whilePowered fun x => x.quiet fun f => f.write a (writeDataBytes d) := rfl

/-- What a command that completes makes of the state: power-on reset, the supply's failure, nothing, or what `f`, one of the changes
`acts`, makes of the blocks of a running part. -/
inductive Outcome (acts : Blocks → Blocks → Prop) (s : State) : State → Prop where
  | reset (a b : Bool) : Outcome acts s { powerOnBlocks a b with pins := derivePins (powerOnBlocks a b), pending := s.pending }
  | fail : Outcome acts s { powerOnBlocks false false with powered := false, pins := unpoweredPins, pending := s.pending }
  | still : Outcome acts s s
  | acted {b : Blocks} (h : acts s.toBlocks b) (on : s.powered = true) : Outcome acts s (s.withBlocks b)

/-- A command of a running part acts by its change of the blocks. -/
theorem Outcome.of_whilePowered {acts : Blocks → Blocks → Prop} {s t : State} {f : Blocks → Blocks} (h : acts s.toBlocks (f s.toBlocks))
    (e : s.whilePowered f = .next t) : Outcome acts s t := by
  cases on : s.powered
  · rw [s.whilePowered_off f on] at e
    cases e
    exact .still
  · rw [s.whilePowered_on f on] at e
    cases e
    exact .acted h on

/-- Every command acts in order. -/
theorem exec_orderly (c : Instr) {s t : State} (e : exec c s = .next t) : Outcome Blocks.Orderly s t := by
  have of {c : Instr} {f : Blocks → Blocks} (e : exec c s = .next t) (he : exec c s = s.whilePowered f)
      (h : ∀ x : Blocks, x.Orderly (f x)) : Outcome Blocks.Orderly s t := .of_whilePowered (h _) (he ▸ e)
  cases c with
  | powerOnReset a b => cases e; exact .reset a b
  | keepAliveFail => cases e; exact .fail
  | presenceClosed b =>
    exact of e (exec_presenceClosed _ s) fun x =>
      x.whenDue_orderly _ (x.powerEvent_orderly fun p _ => p.seat_orderly b)
  | presenceOpened b =>
    exact of e (exec_presenceOpened _ s) fun x => .ite (x.powerEvent_orderly fun p _ => p.setBay_orderly _ _)
      (.ite (x.lossEvent_orderly fun p l => p.unseat_orderly l b) (x.powerEvent_orderly fun p l => p.unseat_orderly l b))
  | latchSenseChange b v => exact of e (exec_latchSenseChange _ _ s) fun x => x.powerEvent_orderly fun p _ => p.senseLatch_orderly b v
  | buttonPress b => exact of e (exec_buttonPress _ s) fun x => x.powerEvent_orderly fun p l => p.pressButton_orderly l b
  | packLinkReply b d => exact of e (exec_packLinkReply _ _ s) fun x => x.powerEvent_orderly fun p l => p.linkReply_orderly l b d
  | packLinkTimeout b => exact of e (exec_packLinkTimeout _ s) fun x => x.powerEvent_orderly fun p l => p.linkTimeout_orderly l b
  | identificationRetry b => exact of e (exec_identificationRetry _ s) fun x => x.powerEvent_orderly fun p _ => p.identRetry_orderly b
  | identificationDeadline b =>
    exact of e (exec_identificationDeadline _ s) fun x =>
      x.powerEvent_orderly fun p l => p.identDeadline_orderly l b
  | pollDue b => exact of e (exec_pollDue _ s) fun x => x.powerEvent_orderly fun p _ => p.pollDue_orderly b
  | releaseWaitLimit b => exact of e (exec_releaseWaitLimit _ s) fun x => x.powerEvent_orderly fun p l => p.waitLimit_orderly l b
  | unlatchWait b => exact of e (exec_unlatchWait _ s) fun x => x.powerEvent_orderly fun p _ => p.unlatchExpires_orderly b
  | openWindow b => exact of e (exec_openWindow _ s) fun x => x.powerEvent_orderly fun p _ => p.openExpires_orderly b
  | refusalBlinkEnd b => exact of e (exec_refusalBlinkEnd _ s) fun x => x.powerEvent_orderly fun p _ => p.blinkEnds_orderly b
  | dcArrival => exact of e (exec_dcArrival s) fun x => x.whenDue_orderly _ (x.powerEvent_orderly fun p _ => p.arriveDc_orderly)
  | dcDeparture =>
    exact of e (exec_dcDeparture s) fun x =>
        .ite (x.lossEvent_orderly fun p l => (p.setDc_orderly false).trans (Power.loss_orderly _ l _))
      (x.powerEvent_orderly fun p l => p.departDc_orderly l)
  | packCollapse b => exact of e (exec_packCollapse _ s) fun x => .ite (x.lossEvent_orderly fun p l => p.loss_orderly l _) (.refl x)
  | switchoverDeadline =>
    exact of e (exec_switchoverDeadline s) fun x =>
      x.whenDue_orderly _ (x.powerEvent_orderly fun p l => p.failSwitchover_orderly l)
  | powerSenseSample r => exact of e (exec_powerSenseSample _ s) fun x => x.whenDue_orderly _ (x.convertPower_orderly r)
  | powerSenseLost => exact of e (exec_powerSenseLost s) fun x => x.whenDue_orderly _ x.losePower_orderly
  | thermistorReading v =>
    exact of e (exec_thermistorReading _ s) fun x =>
      x.whenDue_orderly _ ((x.withTimers_orderly _).trans (Blocks.readTherm_orderly _ v))
  | thermistorLost => exact of e (exec_thermistorLost s) fun x => x.whenDue_orderly _ x.loseTherm_orderly
  | ambientSample lux => exact of e (exec_ambientSample_eq _ s) fun x => x.withLight_orderly fun h => LightRec.sample_ok h _ _
  | ambientLost => exact of e (exec_ambientLost s) fun x => x.whenDue_orderly _ x.loseAmbient_orderly
  | accelSample => exact of e (exec_accelSample _ _ _ s) fun x => x.runEvent_orderly (x.takeSample_orderly _) .refl
  | sampleWatch =>
    exact of e (exec_sampleWatch s) fun x =>
      .ite (.refl x) (x.whenDue_orderly _ (x.runEvent_orderly x.loseAccel_orderly .refl))
  | liftDeadline => exact of e (exec_liftDeadline s) fun x => x.whenDue_orderly _ (x.runEvent_orderly x.liftAfterLoss_orderly .refl)
  | settleDeadline => exact of e (exec_settleDeadline s) fun x => x.whenDue_orderly _ (x.runEvent_orderly x.settleLimit_orderly .refl)
  | holdExpiry k =>
    exact of e (exec_holdExpiry _ s) fun x =>
      x.whenDue_orderly _ (x.powerEvent_orderly fun p l => p.removeHolds_orderly l _)
  | storageAcknowledge v => exact of e (exec_storageAcknowledge _ s) fun x => x.powerEvent_orderly fun p _ => p.setAckLine_orderly v
  | ackDeadline => exact of e (exec_ackDeadline s) fun x => x.whenDue_orderly _ (x.powerEvent_orderly fun p _ => p.endWait_orderly _)
  | periodicTimer =>
    exact of e (exec_periodicTimer s) fun x =>
        x.whenDue_orderly _ (x.runEvent_orderly ((x.withTimers_orderly _).trans (Blocks.setDue_orderly _ _)) .refl)
  | frameStart => exact of e (exec_frameStart s) fun x => x.applyPoint_orderly.trans (Blocks.withAppMode_orderly _ _)
  | freeRunPoint =>
    exact of e (exec_freeRunPoint s) fun x =>
      x.whenDue_orderly _ (x.applyPoint_orderly.trans (Blocks.withAppMode_orderly _ _))
  | frameWatchDeadline =>
    exact of e (exec_frameWatchDeadline s) fun x =>
      x.whenDue_orderly _ (x.applyPoint_orderly.trans (Blocks.withAppMode_orderly _ _))
  | panelEnableFall =>
    exact of e (exec_panelEnableFall s) fun x => x.withLight_orderly fun ⟨panel, ⟨target, pending, ceiling, _⟩, _⟩ =>
      ⟨panel, ⟨target, pending, ceiling, Nat.zero_le _⟩, fun _ => rfl⟩
  | panelEnableRise =>
    exact of e (exec_panelEnableRise s) fun x => .ite (.refl x) (x.withLight_orderly fun ⟨panel, ⟨target, pending, ceiling, _⟩, _⟩ =>
      ⟨panel, ⟨target, pending, ceiling, Nat.zero_le _⟩, fun _ => rfl⟩)
  | sweepTimer => exact of e (exec_sweepTimer s) fun x => x.whenDue_orderly _ ((x.withTimers_orderly _).trans (Blocks.sweep_orderly _))
  | energyPagePeriodic =>
    exact of e (exec_energyPagePeriodic s) fun x =>
      x.whenDue_orderly _ ((x.withTimers_orderly _).trans (Blocks.publishEnergy_orderly _))
  | motionPagePeriodic =>
    exact of e (exec_motionPagePeriodic s) fun x =>
      x.whenDue_orderly _ ((x.withTimers_orderly _).trans (Blocks.publishMotion_orderly _))
  | timePagePeriodic =>
    exact of e (exec_timePagePeriodic s) fun x =>
        x.whenDue_orderly _ ((x.withTimers_orderly _).trans (Blocks.quiet_orderly _ (Front.publish_orderly _ _ _)))
  | calendarStep => exact of e (exec_calendarStep s) fun x => x.whenDue_orderly _ (x.quiet_orderly (.of_same rfl rfl rfl))
  | attentionRequests => exact of e (exec_attentionRequests s) fun x => x.sweep_orderly
  | attentionLog => exact of e (exec_attentionLog s) fun x => x.quiet_orderly (Front.reReadIndex_orderly _)
  | attentionTrace => exact of e (exec_attentionTrace_eq s) fun x => x.quiet_orderly (Front.releaseTrace_orderly _)
  | exchangeEnable on => exact of e (exec_exchangeEnable _ s) fun x => x.writeEnable_orderly on
  | exchangeRestart => exact of e (exec_exchangeRestart _ s) fun x => x.exchangeRestart_orderly
  | hostLinkReset => exact of e (exec_hostLinkReset s) fun x => x.exchangeRestart_orderly
  | summaryWrite => exact of e (exec_summaryWrite _ s) fun x => x.quiet_orderly (.of_same rfl rfl rfl)
  | summaryEnableWrite => exact of e (exec_summaryEnableWrite _ s) fun x => x.quiet_orderly (.of_same rfl rfl rfl)
  | registerWriteIgnored => cases e; exact .still
  | hostMemoryWrite a d =>
    rw [exec_hostMemoryWrite] at e
    split at e
    · cases e
    · exact .of_whilePowered (Blocks.quiet_orderly _ (Front.write_orderly _ _ _)) e
  | releaseBay | cancelRelease | setEnergyPolicy | setReservoir | loadCurve | setLightMode | setPanel | setMotion | placeHold | liftHold
  | setMonitor | clearMonitors | thawMonitors | setTime | unknownRequest =>
    exact of e (exec_of_requestOf rfl s) fun x =>
      x.hostPosts_orderly _ _

/-! ## A step -/

/-- A step is a millisecond, or what its command makes of the state on the queue's rest. -/
theorem step_cases {s t : State} (h : step s = .next t) :
    t = s.tick ∨ ∃ c cs, s.pending = c :: cs ∧ exec c { s with pending := cs } = .next t := by
  unfold step at h
  split at h
  case h_1 => cases h; exact .inl rfl
  case h_2 c cs queued => exact .inr ⟨c, cs, queued, h⟩

/-- A property of the blocks that a millisecond, power-on reset, the supply's failure and every command's change keep, every step keeps. -/
theorem step_keeps {acts : Blocks → Blocks → Prop} {I : Blocks → Prop} {s t : State}
    (exec_acts : ∀ c {s t : State}, exec c s = .next t → Outcome acts s t)
    (tick : ∀ x : Blocks, I x → I { x with tmb := { x.tmb with uptime := x.tmb.uptime + 1 } })
    (reset : ∀ a b v, I { powerOnBlocks a b with powered := v })
    (acted : ∀ x y, acts x y → I x → I y) (h : I s.toBlocks) (hs : step s = .next t) : I t.toBlocks := by
  rcases step_cases hs with rfl | ⟨c, cs, -, he⟩
  · unfold State.tick
    split
    · exact tick _ h
    · exact h
  · cases exec_acts c he with
    | reset a b => exact reset a b true
    | fail => exact reset false false false
    | still => exact h
    | acted ha _ => exact acted _ _ ha h

/-! ## Power-on reset -/

/-- The exchange area and the record of power-on reset are made in order from the power-on records (R156, R175). -/
theorem powerOnBlocks_orderly (a b : Bool) : (powerOnRecords a b).Orderly (powerOnBlocks a b) := by
  have pages : (powerOnRecords a b).toFront.Orderly (powerOnFront (powerOnRecords a b)) := by
    unfold powerOnFront
    exact ((((((Front.publish_orderly _ _ _).trans (Front.publish_orderly _ _ _)).trans (Front.publish_orderly _ _ _)).trans
      (Front.publishMonitors_orderly _)).trans (Front.publish_orderly _ _ _)).trans (Front.publish_orderly _ _ _)).trans
      (Front.write_orderly _ _ _)
  have recorded := (pages.trans (Front.makeRecord_orderly _ (.restart false 0))).trans (Front.setSummary_orderly _ (flagBit .restart))
  exact (powerOnRecords a b).withFront_orderly recorded

theorem powerOnBlocks_logAccounted (a b : Bool) : LogAccounted (powerOnBlocks a b).log :=
  (powerOnBlocks_orderly a b).power.front.log ⟨show (0 - 0 : Word).toNat ≤ 64 by decide, fun h => absurd rfl h⟩

theorem powerOnBlocks_area (a b : Bool) : Memory.wf (powerOnBlocks a b).mem = true :=
  (powerOnBlocks_orderly a b).power.front.area (wf_writeBytes _ _ rfl)

theorem powerOnBlocks_gensEven (a b : Bool) : GensEven (powerOnBlocks a b).gens :=
  (powerOnBlocks_orderly a b).power.front.gens fun p => by cases p <;> rfl

theorem powerOnBlocks_holdsDistinct (a b : Bool) : HoldsDistinct (powerOnBlocks a b).hld := ⟨rfl, List.nodup_nil⟩

theorem powerOnBlocks_waitRuns (a b : Bool) : WaitRuns (powerOnBlocks a b).hld := fun h => absurd h Bool.false_ne_true

theorem powerOnBlocks_light (a b : Bool) : LightOk (powerOnBlocks a b).blc :=
  show LightOk powerOnLight by simp [LightOk, PanelInRange, DutiesInRange, DarkWhenOff, within, powerOnLight, defaultPanel]

theorem powerOnBlocks_motion (a b : Bool) : MotionInRange (powerOnBlocks a b).mot.config :=
  show MotionInRange defaultMotion by simp [MotionInRange, within, defaultMotion]

theorem powerOnBlocks_policy (a b : Bool) : PolicyInRange (powerOnBlocks a b).feed (powerOnBlocks a b).bayPolicy :=
  show PolicyInRange powerOnFeed ⟨100, 15, 10⟩ by simp [PolicyInRange, within, powerOnFeed]

/-! ## The statements -/

/-- Settles O57. -/
theorem everyStepKeepsTheLogAccounted : Obligations.EveryStepKeepsTheLogAccounted := fun _ _ h hs =>
  step_keeps (I := fun x => LogAccounted x.log) exec_orderly (fun _ h => h) (fun a b _ => powerOnBlocks_logAccounted a b)
    (fun _ _ acts => acts.power.front.log) h hs

theorem holdsDistinct_of_keeps {h k : HoldTable} (kept : KeepsDistinct h.entries k.entries) (d : HoldsDistinct h) : HoldsDistinct k :=
  ⟨kept.1.trans d.1, kept.2 d.2⟩

/-- Settles O58: `putTable` alone changes the entries, and moves the wait with the quiesce line. -/
theorem everyStepKeepsTheHoldTable : Obligations.EveryStepKeepsTheHoldTable := fun _ _ distinct waits hs =>
  step_keeps (I := fun x => HoldsDistinct x.hld ∧ WaitRuns x.hld) exec_orderly (fun _ h => h)
    (fun a b _ => ⟨powerOnBlocks_holdsDistinct a b, powerOnBlocks_waitRuns a b⟩)
    (fun _ _ acts h => ⟨holdsDistinct_of_keeps acts.power.table h.1, acts.power.wait h.2⟩) ⟨distinct, waits⟩ hs

/-- Settles O59. -/
theorem everyStepKeepsDutiesAndSettings : Obligations.EveryStepKeepsDutiesAndSettings := by
  refine ⟨fun s t panel duties dark hs => ?_, fun s t hs => ⟨fun h => ?_, fun h => ?_⟩⟩
  · exact step_keeps (I := fun x => LightOk x.blc) exec_orderly (fun _ h => h) (fun a b _ => powerOnBlocks_light a b)
      (fun _ _ acts => acts.light) ⟨panel, duties, dark⟩ hs
  · exact step_keeps (I := fun x => MotionInRange x.mot.config) exec_orderly (fun _ h => h) (fun a b _ => powerOnBlocks_motion a b)
      (fun _ _ acts => acts.motion) h hs
  · exact step_keeps (I := fun x => PolicyInRange x.feed x.bayPolicy) exec_orderly (fun _ h => h)
      (fun a b _ => powerOnBlocks_policy a b) (fun _ _ acts => acts.power.policy) h hs

end Sys2Proof.Machine
end

section
/-! PROOF. What a command can be for the bays, the feed, the holds and the slots: the changes that touch none of them, the changes of the hold table, and the events of BAY and FHU (R64). -/

namespace Sys2Proof.Machine

open Sys2Proof.Safety

/-! ## Changes beside the bays' states, the feed and the slots -/

/-- Between `p` and `q` no bay's state, no link that starts to identify, no feed, switchover or holdover, no hold entry and no slot
in flight is changed. -/
structure Power.Aside (p q : Power) : Prop where
  states     : ∀ b, (q.bay b).state = (p.bay b).state
  identifies : ∀ b, identifies (q.link b).activity = true → identifies (p.link b).activity = true
  kind       : q.feed.kind = p.feed.kind
  dcPresent  : q.feed.dcPresent = p.feed.dcPresent
  holdover   : q.feed.holdover.isSome = p.feed.holdover.isSome
  lean       : q.feed.lean = p.feed.lean
  switchover : q.feed.switchover = p.feed.switchover
  entries    : q.hld.entries = p.hld.entries
  inFlight   : q.inFlight = p.inFlight

namespace Power.Aside

theorem refl (p : Power) : p.Aside p := ⟨fun _ => rfl, fun _ => id, rfl, rfl, rfl, rfl, rfl, rfl, rfl⟩

theorem trans {p q r : Power} (a : p.Aside q) (b : q.Aside r) : p.Aside r :=
  ⟨fun c => (b.states c).trans (a.states c), fun c h => a.identifies c (b.identifies c h), b.kind.trans a.kind,
    b.dcPresent.trans a.dcPresent, b.holdover.trans a.holdover, b.lean.trans a.lean, b.switchover.trans a.switchover,
    b.entries.trans a.entries, b.inFlight.trans a.inFlight⟩

theorem ite {p q r : Power} {c : Prop} [Decidable c] (a : p.Aside q) (b : p.Aside r) : p.Aside (if c then q else r) := by
  split
  · exact a
  · exact b

/-- A change of the host's side that leaves the in-flight list, of FHU's own state, the deferred records and the triggers. -/
theorem of_front {p q : Power} (h : q = { p with toFront := q.toFront, fhu := q.fhu, drops := q.drops, due := q.due })
    (hf : q.inFlight = p.inFlight) : p.Aside q := by
  rw [h]
  exact ⟨fun b => by cases b <;> rfl, fun b => by cases b <;> exact id, rfl, rfl, rfl, rfl, rfl, rfl, hf⟩

end Power.Aside

/-! ### Records and events leave the in-flight list -/

theorem Front.RecordStep.inFlight {f g : Front} (h : f.RecordStep g) : g.inFlight = f.inFlight := by rw [h.shape]

theorem Front.linkTrace_inFlight (f : Front) (st : TraceStatus) (n s : Option Word) : (f.linkTrace st n s).inFlight = f.inFlight := by
  unfold Front.linkTrace
  split
  · split <;> rfl
  · rfl

theorem Front.makeFallRecord_inFlight (f : Front) (r : LogRecord) (st : TraceStatus) (n : Option Word) :
    (f.makeFallRecord r st n).inFlight = f.inFlight :=
  ((Front.sendEvent_step _ _).inFlight.trans (Front.linkTrace_inFlight _ _ _ _)).trans (f.append_step r).inFlight

theorem Front.writeDrop_inFlight (f : Front) (d : DropData) (o : AckOutcome) (a b : BayState) : (f.writeDrop d o a b).inFlight = f.inFlight :=
  (Front.sendEvent_step _ _).inFlight.trans (Front.makeFallRecord_inFlight _ _ _ _)

theorem Front.appendTrace_inFlight (f : Front) (e : RingEntry) : (f.appendTrace e).inFlight = f.inFlight := by
  unfold Front.appendTrace
  split
  · dsimp only
    split <;> rfl
  · rfl

theorem Front.endCapture_inFlight (f : Front) : f.endCapture.inFlight = f.inFlight := by
  unfold Front.endCapture
  split <;> rfl

theorem Front.settleTrace_inFlight (f : Front) (on : Bool) (ring : List RingEntry) (i n : Word) :
    (f.settleTrace on ring i n).front.inFlight = f.inFlight := by
  unfold Front.settleTrace
  split
  · split <;> rfl
  · rfl

theorem Front.reReadIndex_inFlight (f : Front) : f.reReadIndex.inFlight = f.inFlight := by
  unfold Front.reReadIndex
  dsimp only
  split
  · split <;> rfl
  · split
    · rfl
    · exact (Front.writeGap_step _).inFlight

theorem Front.restartRegisters_inFlight (f : Front) : f.restartRegisters.inFlight = f.inFlight := by
  unfold Front.restartRegisters
  dsimp only
  split <;> exact (Front.makeRecord_step _ _).inFlight

theorem Power.makeRecord_aside (p : Power) (r : LogRecord) : p.Aside (p.makeRecord r) := .of_front rfl (Front.makeRecord_step _ _).inFlight

theorem Power.makeTied_aside (p : Power) (r : LogRecord) (o : Occurrence) : p.Aside (p.makeTied r o) :=
  .of_front rfl (Front.makeTied_step _ _ _).inFlight

theorem Power.packFault_aside (p : Power) (b : Bay) (r : FaultReason) : p.Aside (p.packFault b r) := p.makeRecord_aside _

theorem Power.setFront_aside (p : Power) {f : Front} (h : f.inFlight = p.inFlight) : p.Aside { p with toFront := f } := .of_front rfl h

theorem Power.writeDrops_inFlight (p : Power) : p.writeDrops.inFlight = p.inFlight := by
  suffices all : ∀ (ds : List DropData) (f : Front),
      (ds.foldl (fun f d => f.writeDrop d p.hld.outcome p.bayA.state p.bayB.state) f).inFlight = f.inFlight from all _ _
  intro ds
  induction ds with
  | nil => exact fun _ => rfl
  | cons d ds ih => exact fun f => (ih _).trans (Front.writeDrop_inFlight _ _ _ _ _)

theorem Power.writeDrops_aside (p : Power) : p.Aside p.writeDrops := .of_front rfl p.writeDrops_inFlight

theorem Power.writeDeferredEnd_aside (p : Power) : p.Aside p.writeDeferredEnd := by
  unfold Power.writeDeferredEnd
  split
  · exact .refl p
  · exact .of_front rfl (Front.makeRecord_step _ _).inFlight

/-- A change of the wait, the outcome and the acknowledge line. -/
theorem Power.setHolds_aside (p : Power) {h : HoldTable} (e : h.entries = p.hld.entries) : p.Aside { p with hld := h } :=
  ⟨fun b => by cases b <;> rfl, fun b => by cases b <;> exact id, rfl, rfl, rfl, rfl, rfl, e, rfl⟩

theorem Power.endWait_aside (p : Power) (o : AckOutcome) : p.Aside (p.endWait o) := by
  have ended : p.Aside ({ p with hld := { p.hld with wait := none, outcome := o } }).publishMirror :=
    ⟨fun b => by cases b <;> rfl, fun b => by cases b <;> exact id, rfl, rfl, rfl, rfl, rfl, rfl, rfl⟩
  exact ended.trans ((Power.writeDrops_aside _).trans (Power.writeDeferredEnd_aside _))

theorem Power.setAckLine_aside (p : Power) (v : Bool) : p.Aside (p.setAckLine v) := by
  have level : p.Aside { p with hld := { p.hld with ackLine := v } } := p.setHolds_aside rfl
  exact .ite (level.trans (Power.endWait_aside _ _)) level

theorem Power.recompute_aside (p : Power) (r : PowerReading) : p.Aside (p.recompute r) :=
  ⟨fun b => by cases b <;> rfl, fun b => by cases b <;> exact id, rfl, rfl, rfl, rfl, rfl, rfl, rfl⟩

/-- A bay record that keeps its state. -/
theorem Power.setBay_aside (p : Power) (b : Bay) {r : BayRec} (h : r.state = (p.bay b).state) : p.Aside (p.setBay b r) := by
  refine ⟨fun c => ?_, fun c => ?_, by simp, by simp, by simp, by simp, by simp, by simp, by simp⟩
  · rcases eq_or_eq_otherBay b c with rfl | rfl
    · simpa using h
    · simp
  · simp

/-- A link that identifies no more than before. -/
theorem Power.setLink_aside (p : Power) (b : Bay) {n : Link}
    (h : Safety.identifies n.activity = true → Safety.identifies (p.link b).activity = true) : p.Aside (p.setLink b n) := by
  refine ⟨by simp, fun c => ?_, by simp, by simp, by simp, by simp, by simp, by simp, by simp⟩
  rcases eq_or_eq_otherBay b c with rfl | rfl
  · simpa using h
  · simp

theorem Power.setBlink_aside (p : Power) (b : Bay) (e : Option Nat) : p.Aside (p.setBlink b e) := p.setBay_aside b rfl

/-! ## Changes of the hold table -/

/-- What the blocks beside BAY and FHU do to them: nothing, changes of the hold table with the bays' reactions, re-examination points. -/
inductive Power.Ruled : Power → Power → Prop where
  | aside {p q : Power} (h : p.Aside q) : Ruled p q
  | table (p : Power) (l : Loads) (es : List (Option HoldEntry)) : Ruled p (p.changeTable l es)
  | reexamine (p : Power) (l : Loads) : Ruled p (p.reexamine l)
  | trans {p q r : Power} (a : Ruled p q) (b : Ruled q r) : Ruled p r

namespace Power.Ruled

theorem refl (p : Power) : p.Ruled p := .aside (.refl p)

theorem ite {p q r : Power} {c : Prop} [Decidable c] (a : p.Ruled q) (b : p.Ruled r) : p.Ruled (if c then q else r) := by
  split
  · exact a
  · exact b

end Power.Ruled

theorem Power.removeHolds_ruled (p : Power) (l : Loads) (gone : HoldEntry → Bool) : p.Ruled (p.removeHolds l gone) :=
  .ite (.refl p) (.table p l _)

theorem Blocks.withFront_ruled (s : Blocks) {f : Front} (h : f.inFlight = s.inFlight) : s.toPower.Ruled (s.withFront f).toPower :=
  .aside (s.toPower.setFront_aside h)

theorem Blocks.makeDrop_ruled (p : Power) (d : DropData) : p.Ruled (p.makeDrop d) :=
  .ite (.aside (.of_front rfl rfl)) (.aside (p.setFront_aside (Front.writeDrop_inFlight _ _ _ _ _)))

/-- The bays and the feed change through the hold table and re-examinations alone, and the pending curve stays. -/
structure Blocks.Moves (s t : Blocks) : Prop where
  power : s.toPower.Ruled t.toPower
  curve : t.blc.pendingCurve = s.blc.pendingCurve

namespace Blocks.Moves

theorem refl (s : Blocks) : s.Moves s := ⟨.refl _, rfl⟩

theorem trans {s t u : Blocks} (a : s.Moves t) (b : t.Moves u) : s.Moves u := ⟨a.power.trans b.power, b.curve.trans a.curve⟩

theorem ite {s t u : Blocks} {c : Prop} [Decidable c] (a : s.Moves t) (b : s.Moves u) : s.Moves (if c then t else u) := by
  split
  · exact a
  · exact b

end Blocks.Moves

theorem Blocks.withMot_moves (s : Blocks) (m : MotionRec) : s.Moves (s.withMot m) := ⟨.refl _, rfl⟩

theorem Blocks.withFront_moves (s : Blocks) {f : Front} (h : f.inFlight = s.inFlight) : s.Moves (s.withFront f) := ⟨s.withFront_ruled h, rfl⟩

theorem Blocks.liftMotion_moves (s : Blocks) : s.Moves s.liftMotion := ⟨s.toPower.removeHolds_ruled _ _, rfl⟩

theorem Blocks.placeMotion_moves (s : Blocks) : s.Moves s.placeMotion := ⟨.table _ _ _, rfl⟩

theorem Blocks.enterMotion_moves (s : Blocks) (st : MotionState) : s.Moves (s.enterMotion st) := ⟨.refl _, rfl⟩

theorem Blocks.confirmFall_moves (s : Blocks) : s.Moves s.confirmFall := by
  have placed (st : MotionState) (c : Prop) [Decidable c] : s.Moves (if c then (s.enterMotion st).placeMotion else s.enterMotion st) :=
    .ite ((s.enterMotion_moves st).trans (Blocks.placeMotion_moves _)) (s.enterMotion_moves st)
  unfold Blocks.confirmFall
  dsimp only
  have front (t : Blocks) (on : Bool) (ring : List RingEntry) (i n : Word) :
      (((t.toFront.raise .fall).sendEvent (plainEvent .fall)).settleTrace on ring i n).front.inFlight = t.inFlight :=
    (Front.settleTrace_inFlight _ _ _ _ _).trans (Front.sendEvent_step _ _).inFlight
  exact ((placed _ _).trans (Blocks.withFront_moves _ (front _ _ _ _ _))).trans (Blocks.withMot_moves _ _)

theorem Blocks.endFall_moves (s : Blocks) (e : Episode) (long : Bool) (ms : Nat) : s.Moves (s.endFall e long ms) :=
  (s.withFront_moves (Front.makeFallRecord_inFlight _ _ _ _)).trans (Blocks.withMot_moves _ _)

theorem Blocks.endDrop_moves (s : Blocks) (e : Episode) (w : ImpactWindow) : s.Moves (s.endDrop e w) :=
  ⟨Blocks.makeDrop_ruled _ _, rfl⟩

theorem Blocks.endShock_moves (s : Blocks) (ret : ReturnState) (w : ImpactWindow) : s.Moves (s.endShock ret w) :=
  ⟨.aside (s.toPower.setFront_aside (Front.makeTied_step _ _ _).inFlight), rfl⟩

theorem Blocks.returnShock_moves (s : Blocks) (ret : ReturnState) : s.Moves (s.returnShock ret) := by
  cases ret <;> exact ⟨.refl _, rfl⟩

theorem Blocks.judgeSample_moves (s : Blocks) (a : Axes) (v : Bool) : s.Moves (s.judgeSample a v) := by
  unfold Blocks.judgeSample
  dsimp only
  split
  · exact .ite (s.enterMotion_moves _) (.ite s.confirmFall_moves (.refl s))
  · exact .ite ((s.enterMotion_moves _).trans (Blocks.withMot_moves _ _)) (.ite (s.endFall_moves _ _ _) (.ite (s.endFall_moves _ _ _) (.refl s)))
  · exact .ite ((s.endDrop_moves _ _).trans (Blocks.enterMotion_moves _ _)) (s.withMot_moves _)
  · exact .ite ((s.endShock_moves _ _).trans (Blocks.returnShock_moves _ _)) (s.withMot_moves _)
  · exact .ite (s.enterMotion_moves _) (.ite s.confirmFall_moves
      (.ite ((s.enterMotion_moves _).trans (Blocks.liftMotion_moves _)) (.refl s)))
  · exact .refl s

theorem Blocks.judgedSample_moves (s : Blocks) (a : Axes) : s.Moves (s.judgedSample a) := by
  have counted {t : Blocks} (h : s.Moves t) (o : Orientation) :
      s.Moves ((t.withMot (t.mot.countRuns a.m2 o)).judgeSample a a.saturated) :=
    (h.trans (t.withMot_moves _)).trans (Blocks.judgeSample_moves _ _ _)
  unfold Blocks.judgedSample
  dsimp only
  split
  · exact counted (s.withMot_moves _) _
  · exact counted ((s.withMot_moves _).trans (Blocks.withFront_moves _ (Front.appendTrace_inFlight _ _))) _

theorem Blocks.takeSample_moves (s : Blocks) (a : Axes) : s.Moves (s.takeSample a) :=
  .ite ((s.withMot_moves _).trans (Blocks.judgedSample_moves _ _))
    ((s.withMot_moves _).trans ((Blocks.withMot_moves _ _).trans (Blocks.liftMotion_moves _)))

theorem Blocks.endWindowEarly_moves (s : Blocks) : s.Moves s.endWindowEarly := by
  unfold Blocks.endWindowEarly
  split
  · exact s.endDrop_moves _ _
  · exact s.endShock_moves _ _
  · exact .refl s

theorem Blocks.loseAccel_moves (s : Blocks) : s.Moves s.loseAccel :=
  (((s.withFront_moves (Front.makeRecord_step _ _).inFlight).trans (Blocks.endWindowEarly_moves _)).trans
    (Blocks.withMot_moves _ _)).trans (Blocks.withFront_moves _ (Front.endCapture_inFlight _))

/-! ## The events of BAY and FHU -/

/-- What an event does to the bays, the feed and the holds, with its condition. -/
inductive Power.Acts (p : Power) (l : Loads) : Power → Prop where
  | ruled {q : Power} (h : p.Ruled q) : Acts p l q
  | seat (b : Bay) : Acts p l (p.seat b)
  | unseat (b : Bay) (h : (p.bay b).state ≠ .empty) : Acts p l (p.unseat l b)
  | senseLatch (b : Bay) (v : Bool) : Acts p l (p.senseLatch b v)
  | pressButton (b : Bay) : Acts p l (p.pressButton l b)
  | linkReply (b : Bay) (d : BitVec 136) : Acts p l (p.linkReply l b d)
  | linkTimeout (b : Bay) : Acts p l (p.linkTimeout l b)
  | identDeadline (b : Bay) : Acts p l (p.identDeadline l b)
  | waitLimit (b : Bay) : Acts p l (p.waitLimit l b)
  | unlatchExpires (b : Bay) : Acts p l (p.unlatchExpires b)
  | openExpires (b : Bay) : Acts p l (p.openExpires b)
  | arriveDc : Acts p l p.arriveDc
  | loseDc (h : p.feed.kind = .dc) : Acts p l ((p.setDc false).loss l .dcDeparture)
  | departDc (h : p.feed.kind ≠ .dc) : Acts p l (p.departDc l)
  | collapse (b : Bay) (h : p.feed.kind = feedOf b) : Acts p l (p.loss l .voltage)
  | failSwitchover : Acts p l (p.failSwitchover l)
  | goodSample (r : PowerReading) : Acts p l (p.goodSample l r)

theorem Power.identRetry_aside (p : Power) (b : Bay) : p.Aside (p.identRetry b) := by
  unfold Power.identRetry
  split
  case h_1 k t waits => exact .ite (p.setLink_aside b fun _ => by rw [waits]; rfl) (.refl p)
  case h_2 => exact .refl p

theorem Power.pollDue_aside (p : Power) (b : Bay) : p.Aside (p.pollDue b) := by
  unfold Power.pollDue
  dsimp only
  split
  · exact .refl p
  · refine .ite (p.setLink_aside b ?_) (.refl p)
    dsimp only
    split
    · exact fun h => absurd h Bool.false_ne_true
    · exact id

theorem Power.blinkEnds_aside (p : Power) (b : Bay) : p.Aside (p.blinkEnds b) := by
  unfold Power.blinkEnds
  split
  · exact .refl p
  · exact .ite (p.setBlink_aside b none) (.refl p)

/-! ## What a command can be -/

/-- Nothing of the bays, the feed, the holds, the triggers, the in-flight list and the pending curve is changed. -/
structure Blocks.Rest (s t : Blocks) : Prop where
  power    : t.toPower = { s.toPower with toFront := t.toFront }
  inFlight : t.inFlight = s.inFlight
  curve    : t.blc.pendingCurve = s.blc.pendingCurve

theorem Blocks.Rest.refl (s : Blocks) : s.Rest s := ⟨rfl, rfl, rfl⟩

theorem Blocks.Rest.trans {s t u : Blocks} (a : s.Rest t) (b : t.Rest u) : s.Rest u :=
  ⟨by rw [b.power, a.power], b.inFlight.trans a.inFlight, b.curve.trans a.curve⟩

theorem Blocks.withFront_rest (s : Blocks) {f : Front} (h : f.inFlight = s.inFlight) : s.Rest (s.withFront f) := ⟨rfl, h, rfl⟩

theorem Blocks.sensorFault_rest (s : Blocks) (x : Sensor) : s.Rest (s.sensorFault x) := s.withFront_rest (Front.makeRecord_step _ _).inFlight

/-- What a command of a running part does, from `s`: nothing to BAY, FHU, HLD and XIF's slots; an event; a sweep; a posting; an
application point; an exchange restart. -/
inductive Blocks.Acts (s : Blocks) : Blocks → Prop where
  | rest {t : Blocks} (h : s.Rest t) : Acts s t
  | event {u : Blocks} {core : Blocks → Blocks} {post : Front → Front} (l : Loads) (hu : s.Rest u)
      (hc : u.toPower.Acts l (core u).toPower) (hl : (core u).blc.pendingCurve = u.blc.pendingCurve) (hp : ∀ f, (post f).inFlight = f.inFlight) :
      Acts s (u.runEvent core post)
  | sweep {u : Blocks} (hu : s.Rest u) : Acts s u.sweep
  | posts (p : Posting) (r : Request) : Acts s (s.hostPosts p r)
  | point (m : AppMode) : Acts s (s.applyPoint.withAppMode m)
  | restart : Acts s s.exchangeRestart

namespace Blocks.Acts

theorem refl (s : Blocks) : s.Acts s := .rest (.refl s)

theorem ite {s t u : Blocks} {c : Prop} [Decidable c] (a : c → s.Acts t) (b : ¬ c → s.Acts u) : s.Acts (if c then t else u) := by
  split
  case isTrue h => exact a h
  case isFalse h => exact b h

theorem power {s : Blocks} {f : Power → Loads → Power} (h : s.toPower.Acts s.loads (f s.toPower s.loads)) : s.Acts (s.powerEvent f) :=
  .event s.loads (.refl s) h rfl fun _ => rfl

theorem aside {s : Blocks} {f : Power → Loads → Power} (h : s.toPower.Aside (f s.toPower s.loads)) : s.Acts (s.powerEvent f) :=
  .power (.ruled (.aside h))

theorem loss {s : Blocks} {f : Power → Loads → Power} (h : s.toPower.Acts s.loads (f s.toPower s.loads)) : s.Acts (s.lossEvent f) :=
  .event s.loads (.refl s) h rfl fun _ => (Front.sendEvent_step _ _).inFlight

theorem motion {s : Blocks} {core : Blocks → Blocks} (h : s.Moves (core s)) : s.Acts (s.runEvent core id) :=
  .event s.loads (.refl s) (.ruled h.power) h.curve fun _ => rfl

theorem due {s : Blocks} {f : Blocks → Blocks} (d : Option Nat) (h : s.Acts (f s)) : s.Acts (s.whenDue d f) := by
  cases d with
  | none => exact .refl s
  | some d => exact .ite (fun _ => h) fun _ => .refl s

end Blocks.Acts

theorem Blocks.losePower_rest (s : Blocks) : s.Rest s.losePower := by
  unfold Blocks.losePower
  split
  · exact .refl s
  · refine .trans ?_ (Blocks.sensorFault_rest _ _)
    exact ⟨rfl, rfl, rfl⟩

theorem Blocks.loseTherm_rest (s : Blocks) : s.Rest s.loseTherm := by
  unfold Blocks.loseTherm
  split
  · exact .refl s
  · refine .trans ?_ (Blocks.sensorFault_rest _ _)
    exact ⟨rfl, rfl, rfl⟩

theorem Blocks.readTherm_rest (s : Blocks) (t : Int) : s.Rest (s.readTherm t) := by
  unfold Blocks.readTherm
  split
  · exact ⟨rfl, rfl, rfl⟩
  · exact s.loseTherm_rest

theorem Blocks.loseAmbient_rest (s : Blocks) : s.Rest s.loseAmbient := by
  unfold Blocks.loseAmbient
  split
  · exact .refl s
  · refine .trans ?_ (Blocks.sensorFault_rest _ _)
    exact ⟨rfl, rfl, rfl⟩

/-- What each command does. -/
theorem exec_acts (c : Instr) {s t : State} (e : exec c s = .next t) : Outcome Blocks.Acts s t := by
  have of {c : Instr} {f : Blocks → Blocks} (e : exec c s = .next t) (he : exec c s = s.whilePowered f)
      (h : ∀ x : Blocks, x.Acts (f x)) : Outcome Blocks.Acts s t := .of_whilePowered (h _) (he ▸ e)
  cases c with
  | powerOnReset a b => cases e; exact .reset a b
  | keepAliveFail => cases e; exact .fail
  | presenceClosed b => exact of e (exec_presenceClosed b s) fun x => .due _ (.power (.seat b))
  | presenceOpened b =>
    exact of e (exec_presenceOpened b s) fun x => .ite (fun _ => .aside (Power.setBay_aside _ b rfl)) fun ne =>
      .ite (fun _ => .loss (.unseat b ne)) fun _ => .power (.unseat b ne)
  | latchSenseChange b v => exact of e (exec_latchSenseChange b v s) fun x => .power (.senseLatch b v)
  | buttonPress b => exact of e (exec_buttonPress b s) fun x => .power (.pressButton b)
  | packLinkReply b d => exact of e (exec_packLinkReply b d s) fun x => .power (.linkReply b d)
  | packLinkTimeout b => exact of e (exec_packLinkTimeout b s) fun x => .power (.linkTimeout b)
  | identificationRetry b => exact of e (exec_identificationRetry b s) fun x => .aside (Power.identRetry_aside _ b)
  | identificationDeadline b => exact of e (exec_identificationDeadline b s) fun x => .power (.identDeadline b)
  | pollDue b => exact of e (exec_pollDue b s) fun x => .aside (Power.pollDue_aside _ b)
  | releaseWaitLimit b => exact of e (exec_releaseWaitLimit b s) fun x => .power (.waitLimit b)
  | unlatchWait b => exact of e (exec_unlatchWait b s) fun x => .power (.unlatchExpires b)
  | openWindow b => exact of e (exec_openWindow b s) fun x => .power (.openExpires b)
  | refusalBlinkEnd b => exact of e (exec_refusalBlinkEnd b s) fun x => .aside (Power.blinkEnds_aside _ b)
  | dcArrival => exact of e (exec_dcArrival s) fun x => .due _ (.power .arriveDc)
  | dcDeparture => exact of e (exec_dcDeparture s) fun x => .ite (fun h => .loss (.loseDc h)) fun h => .power (.departDc h)
  | packCollapse b => exact of e (exec_packCollapse b s) fun x => .ite (fun h => .loss (.collapse b h.1)) fun _ => .refl x
  | switchoverDeadline => exact of e (exec_switchoverDeadline s) fun x => .due _ (.power .failSwitchover)
  | powerSenseSample r =>
    refine of e (exec_powerSenseSample r s) fun x => .due _ ?_
    cases r with
    | none => exact .rest ⟨rfl, rfl, rfl⟩
    | some r =>
      exact .event (u := x.withTimers { x.timers with powerSense := x.timers.powerSense + 10 }) (core := fun y => y.goodSample r)
        (post := id) _ ⟨rfl, rfl, rfl⟩ (.goodSample r) rfl fun _ => rfl
  | powerSenseLost => exact of e (exec_powerSenseLost s) fun x => .due _ (.rest x.losePower_rest)
  | thermistorReading v =>
    refine of e (exec_thermistorReading v s) fun x => .due _ (.rest (.trans ?_ (Blocks.readTherm_rest _ v)))
    exact ⟨rfl, rfl, rfl⟩
  | thermistorLost => exact of e (exec_thermistorLost s) fun x => .due _ (.rest x.loseTherm_rest)
  | ambientSample lux => exact of e (exec_ambientSample_eq lux s) fun x => .rest ⟨rfl, rfl, rfl⟩
  | ambientLost => exact of e (exec_ambientLost s) fun x => .due _ (.rest x.loseAmbient_rest)
  | accelSample x y z => exact of e (exec_accelSample x y z s) fun x => .motion (x.takeSample_moves _)
  | sampleWatch =>
    exact of e (exec_sampleWatch s) fun x => .ite (fun _ => .refl x) fun _ => .due _ (.motion x.loseAccel_moves)
  | liftDeadline =>
    exact of e (exec_liftDeadline s) fun x => .due _ (.motion ((x.withMot_moves _).trans (Blocks.liftMotion_moves _)))
  | settleDeadline =>
    exact of e (exec_settleDeadline s) fun x => .due _ (.motion ((x.withMot_moves _).trans (Blocks.liftMotion_moves _)))
  | holdExpiry k => exact of e (exec_holdExpiry k s) fun x => .due _ (.power (.ruled (Power.removeHolds_ruled _ _ _)))
  | storageAcknowledge v => exact of e (exec_storageAcknowledge v s) fun x => .aside (Power.setAckLine_aside _ v)
  | ackDeadline => exact of e (exec_ackDeadline s) fun x => .due _ (.aside (Power.endWait_aside _ _))
  | periodicTimer => exact of e (exec_periodicTimer s) fun x => .due _ (.motion ⟨.aside (.of_front rfl rfl), rfl⟩)
  | frameStart => exact of e (exec_frameStart s) fun x => .point _
  | freeRunPoint => exact of e (exec_freeRunPoint s) fun x => .due _ (.point _)
  | frameWatchDeadline => exact of e (exec_frameWatchDeadline s) fun x => .due _ (.point _)
  | panelEnableFall => exact of e (exec_panelEnableFall s) fun x => .rest ⟨rfl, rfl, rfl⟩
  | panelEnableRise => exact of e (exec_panelEnableRise s) fun x => .ite (fun _ => .refl x) fun _ => .rest ⟨rfl, rfl, rfl⟩
  | sweepTimer => exact of e (exec_sweepTimer s) fun x => .due _ (.sweep ⟨rfl, rfl, rfl⟩)
  | energyPagePeriodic => exact of e (exec_energyPagePeriodic s) fun x => .due _ (.rest ⟨rfl, rfl, rfl⟩)
  | motionPagePeriodic => exact of e (exec_motionPagePeriodic s) fun x => .due _ (.rest ⟨rfl, rfl, rfl⟩)
  | timePagePeriodic => exact of e (exec_timePagePeriodic s) fun x => .due _ (.rest ⟨rfl, rfl, rfl⟩)
  | calendarStep => exact of e (exec_calendarStep s) fun x => .due _ (.rest ⟨rfl, rfl, rfl⟩)
  | attentionRequests => exact of e (exec_attentionRequests s) fun x => .sweep (.refl x)
  | attentionLog => exact of e (exec_attentionLog s) fun x => .rest (x.withFront_rest (Front.reReadIndex_inFlight _))
  | attentionTrace =>
    refine of e (exec_attentionTrace_eq s) fun x => .rest (x.withFront_rest ?_)
    unfold Front.releaseTrace
    split <;> rfl
  | exchangeEnable on =>
    exact of e (exec_exchangeEnable on s) fun x => .ite (fun _ => .sweep (x.withFront_rest rfl)) fun _ => .rest (x.withFront_rest rfl)
  | exchangeRestart v => exact of e (exec_exchangeRestart v s) fun x => .restart
  | hostLinkReset => exact of e (exec_hostLinkReset s) fun x => .restart
  | summaryWrite w => exact of e (exec_summaryWrite w s) fun x => .rest (x.withFront_rest rfl)
  | summaryEnableWrite w => exact of e (exec_summaryEnableWrite w s) fun x => .rest (x.withFront_rest rfl)
  | registerWriteIgnored => cases e; exact .still
  | hostMemoryWrite a d =>
    rw [exec_hostMemoryWrite] at e
    split at e
    · cases e
    · exact .of_whilePowered (.rest ⟨rfl, rfl, rfl⟩) e
  | releaseBay | cancelRelease | setEnergyPolicy | setReservoir | loadCurve | setLightMode | setPanel | setMotion | placeHold | liftHold
  | setMonitor | clearMonitors | thawMonitors | setTime | unknownRequest => exact of e (exec_of_requestOf rfl s) fun x => .posts _ _

end Sys2Proof.Machine
end

section
/-! PROOF. FHU's searches for a source (R33, R34, R37), and what every event leaves behind: no trigger, a settled charger, the output signals of the records (R24, R64). -/

namespace Sys2Proof.Machine

open Sys2Proof.Safety

/-! ## FHU's searches -/

/-- A switchover to this source can stand: DC while present, a bay in STANDBY, the reservoir always (R35, R36). -/
def Power.stands (p : Power) : FeedKind → Prop
  | .dc => p.feed.dcPresent = true
  | .bayA => p.bayA.state = .standby
  | .bayB => p.bayB.state = .standby
  | .reservoir => True

theorem Power.stands_feedOf (p : Power) (b : Bay) : p.stands (feedOf b) ↔ (p.bay b).state = .standby := by cases b <;> rfl

theorem BayState.isStandby_iff (st : BayState) : st.isStandby = true ↔ st = .standby := by cases st <;> simp [BayState.isStandby]

theorem BayRec.standby_of_candidate {r : BayRec} (h : r.candidate = true) : r.state = .standby := by
  simp only [BayRec.candidate, Bool.and_eq_true] at h
  exact (BayState.isStandby_iff _).mp h.1.1

theorem BayRec.standby_of_qualifies {r : BayRec} {l : Loads} (h : r.qualifies l = true) : r.state = .standby := by
  simp only [BayRec.qualifies, Bool.and_eq_true] at h
  exact BayRec.standby_of_candidate h.1

/-- From `p` to `q` FHU has sought a source: its plans, pending moves and causes may change, and a switchover may start, from a feed bay to
a source that stands. -/
structure Power.Seeks (p q : Power) : Prop where
  rest    : q = { p with feed := q.feed, fhu := q.fhu }
  feed    : q.feed = { p.feed with
    switchover := q.feed.switchover, pending := q.feed.pending, causes := q.feed.causes, lastPlan := q.feed.lastPlan }
  started : q.feed.switchover = p.feed.switchover
    ∨ ∃ w, q.feed.switchover = some w ∧ p.feed.kind.bay.isSome = true ∧ p.stands w.target

namespace Power.Seeks

theorem refl (p : Power) : p.Seeks p := ⟨rfl, rfl, .inl rfl⟩

theorem kind {p q : Power} (h : p.Seeks q) : q.feed.kind = p.feed.kind := by rw [h.feed]

theorem dcPresent {p q : Power} (h : p.Seeks q) : q.feed.dcPresent = p.feed.dcPresent := by rw [h.feed]

theorem bayA {p q : Power} (h : p.Seeks q) : q.bayA = p.bayA := by rw [h.rest]

theorem bayB {p q : Power} (h : p.Seeks q) : q.bayB = p.bayB := by rw [h.rest]

theorem bay {p q : Power} (h : p.Seeks q) (b : Bay) : q.bay b = p.bay b := by rw [h.rest]; cases b <;> rfl

theorem stands {p q : Power} (h : p.Seeks q) (k : FeedKind) : q.stands k ↔ p.stands k := by
  cases k <;> simp only [Power.stands, h.dcPresent] <;> rw [h.rest]

theorem trans {p q r : Power} (a : p.Seeks q) (b : q.Seeks r) : p.Seeks r := by
  refine ⟨by rw [b.rest, a.rest], by rw [b.feed, a.feed], ?_⟩
  rcases b.started with same | ⟨w, started, fed, target⟩
  · rw [same]; exact a.started
  · exact .inr ⟨w, started, a.kind ▸ fed, (a.stands _).mp target⟩

theorem ite {p q r : Power} {c : Prop} [Decidable c] (a : p.Seeks q) (b : p.Seeks r) : p.Seeks (if c then q else r) := by
  split
  · exact a
  · exact b

end Power.Seeks

theorem Power.startSwitchover_seeks {p : Power} (t : FeedKind) (purpose : Purpose) (fed : p.feed.kind.bay.isSome = true)
    (target : p.stands t) : p.Seeks (p.startSwitchover t purpose) :=
  ⟨rfl, rfl, .inr ⟨_, rfl, fed, target⟩⟩

theorem Power.recordFaulted_seeks (p : Power) : p.Seeks p.recordFaulted := ⟨rfl, rfl, .inl rfl⟩

theorem Power.recordLow_seeks (p : Power) : p.Seeks p.recordLow := ⟨rfl, rfl, .inl rfl⟩

/-- A search leaves the switchover as it is, and what it finds stands. -/
theorem Power.findSource_finds (p : Power) (l : Loads) (x : Bay) (v : Bool) :
    p.Seeks (p.findSource l x v).1 ∧ ∀ t, (p.findSource l x v).2 = some t → p.stands t := by
  unfold Power.findSource
  split
  case isTrue present => exact ⟨.refl p, fun t found => by cases found; exact present⟩
  case isFalse =>
    split
    case isTrue qualified =>
      refine ⟨.refl p, fun t found => ?_⟩
      cases found
      exact (p.stands_feedOf _).mpr (BayRec.standby_of_qualifies qualified)
    case isFalse =>
      split
      · refine ⟨⟨rfl, rfl, .inl rfl⟩, fun t found => ?_⟩
        simp only [Power.planReservoir] at found
        split at found
        · cases found; exact trivial
        · cases found
      · exact ⟨.refl p, fun t found => nomatch found⟩

theorem Power.examineFault_seeks {p : Power} (l : Loads) (x : Bay) (fed : p.feed.kind.bay.isSome = true) : p.Seeks (p.examineFault l x) := by
  obtain ⟨sought, finds⟩ := p.findSource_finds l x ((p.bay x).state.standing.pack || (p.bay x).state.standing.thermal)
  unfold Power.examineFault
  dsimp only
  split
  case h_1 t found => exact sought.trans (Power.startSwitchover_seeks t _ (sought.kind ▸ fed) ((sought.stands t).mpr (finds t found)))
  case h_2 => exact sought.trans (Power.recordFaulted_seeks _)

theorem Power.examineChangeover_seeks {p : Power} (l : Loads) (x : Bay) (fed : p.feed.kind.bay.isSome = true) :
    p.Seeks (p.examineChangeover l x) := by
  unfold Power.examineChangeover
  split
  case isTrue qualified =>
    exact Power.startSwitchover_seeks _ _ fed ((p.stands_feedOf _).mpr (BayRec.standby_of_qualifies qualified))
  case isFalse => exact p.recordLow_seeks

theorem Power.setPending_seeks (p : Power) (m : MoveSet) : p.Seeks { p with feed := { p.feed with pending := m } } :=
  ⟨rfl, rfl, .inl rfl⟩

theorem Power.setPaths_seeks (p : Power) (f : FhuState) : p.Seeks { p with fhu := f } := ⟨rfl, rfl, .inl rfl⟩

theorem Power.examineBoth_seeks {p : Power} (l : Loads) (x : Bay) (fed : p.feed.kind.bay.isSome = true) : p.Seeks (p.examineBoth l x) := by
  unfold Power.examineBoth
  dsimp only
  have sought := (p.setPending_seeks { p.feed.pending with lowCharge := true }).trans (Power.examineFault_seeks l x fed)
  exact .ite sought (sought.trans (Power.recordLow_seeks _))

theorem Power.reexamine_seeks (p : Power) (l : Loads) : p.Seeks (p.reexamine l) := by
  unfold Power.reexamine
  split
  · exact .refl p
  case h_2 x from_bay =>
    have fed : p.feed.kind.bay.isSome = true := by rw [from_bay]; rfl
    exact .ite (.refl p) (.ite (.ite (Power.examineBoth_seeks l x fed) (Power.examineFault_seeks l x fed))
      (.ite (Power.examineChangeover_seeks l x fed) (.refl p)))

theorem Power.seekFaultMove_seeks {p : Power} (l : Loads) (x : Bay) (fed : p.feed.kind.bay.isSome = true) : p.Seeks (p.seekFaultMove l x) :=
  .ite ⟨rfl, rfl, .inl rfl⟩ (.ite (Power.examineBoth_seeks l x fed) (Power.examineFault_seeks l x fed))

theorem Power.seekChangeover_seeks {p : Power} (l : Loads) (x : Bay) (fed : p.feed.kind.bay.isSome = true) :
    p.Seeks (p.seekChangeover l x) :=
  .ite ⟨rfl, rfl, .inl rfl⟩ (.ite (Power.examineBoth_seeks l x fed) (Power.examineChangeover_seeks l x fed))

theorem Power.examineDue_seeks {p : Power} (l : Loads) (x : Bay) (fed : p.feed.kind.bay.isSome = true) : p.Seeks (p.examineDue l x) := by
  have cleared := p.setPaths_seeks { p.fhu with dueInFlight := ⟨false, false⟩ }
  unfold Power.examineDue
  dsimp only
  exact .ite (.ite (cleared.trans (Power.examineBoth_seeks l x fed)) (cleared.trans (Power.examineFault_seeks l x fed)))
    (.ite (.ite (cleared.trans (Power.examineBoth_seeks l x fed)) (cleared.trans (Power.examineChangeover_seeks l x fed))) cleared)

/-! ## What an event leaves behind -/

/-- The charger sees the feed kind, the bay records, the charge limit and its own assignment alone (R24). -/
theorem Power.chargerSettled_congr {p q : Power} (kind : q.feed.kind = p.feed.kind) (bayA : q.bayA = p.bayA) (bayB : q.bayB = p.bayB)
    (policy : q.bayPolicy = p.bayPolicy) (assignment : q.assignment = p.assignment) (h : ChargerSettled p) : ChargerSettled q := by
  have eligible : ∀ b, q.eligible b = p.eligible b := fun b => by
    cases b <;> simp only [Power.eligible, Power.bay, bayA, bayB, policy]
  have fresh : q.freshAssignment = p.freshAssignment := by simp only [Power.freshAssignment, eligible, bayA, bayB]
  unfold ChargerSettled Power.assign at *
  simp only [kind, assignment, eligible, fresh]
  exact h

/-- From `s` to `t` no trigger of a pass is left over and the charger stays settled. -/
structure Blocks.Closes (s t : Blocks) : Prop where
  due     : s.due = noCauses → t.due = noCauses
  charger : ChargerSettled s.toPower → ChargerSettled t.toPower

namespace Blocks.Closes

theorem refl (s : Blocks) : s.Closes s := ⟨id, id⟩

theorem trans {s t u : Blocks} (a : s.Closes t) (b : t.Closes u) : s.Closes u :=
  ⟨b.due ∘ a.due, b.charger ∘ a.charger⟩

theorem ite {s t u : Blocks} {c : Prop} [Decidable c] (a : s.Closes t) (b : s.Closes u) : s.Closes (if c then t else u) := by
  split
  · exact a
  · exact b

/-- Changes beside the bays, the feed, the charger and the triggers. -/
theorem of_front {s t : Blocks} (h : t.toPower = { s.toPower with toFront := t.toFront }) : s.Closes t :=
  ⟨by rw [h]; exact id, by rw [h]; exact Power.chargerSettled_congr rfl rfl rfl rfl rfl⟩

/-- FHU's search at a pass. -/
theorem of_seeks {s : Blocks} {p : Power} (h : s.toPower.Seeks p) : s.Closes (s.withPower p) :=
  ⟨fun settled => show p.due = noCauses from (congrArg Power.due h.rest :).trans settled,
    Power.chargerSettled_congr h.kind h.bayA h.bayB (congrArg Power.bayPolicy h.rest :)
      (congrArg Power.assignment h.rest :)⟩

end Blocks.Closes

theorem Blocks.publishChanges_closes (s old : Blocks) : s.Closes (s.publishChanges old) := by
  obtain ⟨shape, -, -⟩ := s.publishChanges_frame old
  rw [shape]
  exact .of_front rfl

theorem Blocks.pass_closes (s : Blocks) (causes : PassCauses) : s.Closes (s.pass causes) := by
  have begun : s.Closes ((s.withFront s.toFront.adoptMonitors).takeResults ((s.withFront s.toFront.adoptMonitors).computePass causes)) :=
    .of_front rfl
  unfold Blocks.pass
  dsimp only
  exact begun.trans ((Blocks.Closes.of_seeks (Power.reexamine_seeks _ _)).trans (.of_front rfl))

theorem PassCauses.any_iff (c : PassCauses) : c.any = true ↔ c ≠ noCauses := by
  obtain ⟨a, b, d, e, f⟩ := c
  cases a <;> cases b <;> cases d <;> cases e <;> cases f <;> decide

/-- The one pass serves every trigger (R64). -/
theorem Blocks.runDuePass_settled (s : Blocks) : s.runDuePass.due = noCauses := by
  unfold Blocks.runDuePass
  split
  · exact (Blocks.pass_closes _ _).due rfl
  case isFalse none => exact not_ne_iff.mp (mt s.due.any_iff.mpr none)

theorem Blocks.runDuePass_charger {s : Blocks} (h : ChargerSettled s.toPower) : ChargerSettled s.runDuePass.toPower := by
  unfold Blocks.runDuePass
  split
  · exact (Blocks.pass_closes _ _).charger (Power.chargerSettled_congr rfl rfl rfl rfl rfl h)
  · exact h

/-- An event leaves no trigger over and the charger settled, whatever its own changes (R24, R64). -/
theorem Blocks.runEvent_settled (s : Blocks) (core : Blocks → Blocks) (post : Front → Front) :
    (s.runEvent core post).due = noCauses ∧ ChargerSettled (s.runEvent core post).toPower := by
  have posted (t : Blocks) : t.Closes ((t.withFront (post t.toFront)).publishChanges s) :=
    (show t.Closes (t.withFront (post t.toFront)) from .of_front rfl).trans (Blocks.publishChanges_closes _ s)
  exact ⟨(posted _).due (Blocks.runDuePass_settled _), (posted _).charger (Blocks.runDuePass_charger (Power.chargerSettled_reassign _))⟩

theorem Blocks.runEvent_closes (s u : Blocks) (core : Blocks → Blocks) (post : Front → Front) : s.Closes (u.runEvent core post) :=
  ⟨fun _ => (u.runEvent_settled core post).1, fun _ => (u.runEvent_settled core post).2⟩

/-! ## What a command leaves behind -/

theorem Blocks.Rest.closes {s t : Blocks} (h : s.Rest t) : s.Closes t := .of_front h.power

theorem Blocks.scanSlot_closes (s : Blocks) (slot : Fin 32) : s.Closes (s.scanSlot slot) := .ite (s.runEvent_closes _ _ _) (.refl s)

theorem Blocks.sweep_closes (s : Blocks) : s.Closes s.sweep := by
  have scanned : ∀ (slots : List (Fin 32)) (t : Blocks), t.Closes (slots.foldl Blocks.scanSlot t) := by
    intro slots
    induction slots with
    | nil => exact .refl
    | cons slot slots ih => exact fun t => (t.scanSlot_closes slot).trans (ih _)
  have reread : s.Closes (s.withFront s.toFront.reReadIndex) := .of_front rfl
  exact .ite (reread.trans (scanned _ _)) reread

theorem Blocks.applyPoint_closes (s : Blocks) : s.Closes s.applyPoint := by
  have adopted : s.Closes s.adoptCurve := by
    unfold Blocks.adoptCurve
    split
    · exact .refl s
    · exact .of_front rfl
  exact adopted.trans (.of_front rfl)

/-- What a command does leaves no trigger over and the charger settled. -/
theorem Blocks.Acts.closes {s t : Blocks} (h : s.Acts t) : s.Closes t := by
  cases h with
  | rest h => exact h.closes
  | event l hu hc hl hp => exact s.runEvent_closes _ _ _
  | sweep hu => exact hu.closes.trans (Blocks.sweep_closes _)
  | posts p r =>
    have posted : s.Closes (s.withFront (s.toFront.post p r)) := .of_front rfl
    exact .ite (s.runEvent_closes _ _ _) posted
  | point m => exact s.applyPoint_closes.trans (.of_front rfl)
  | restart => exact s.runEvent_closes _ _ _

/-- After a step the output signals are those of the records (Table 11-2). -/
theorem step_pinsDriven {s t : State} (h : PinsDriven s) (hs : step s = .next t) : PinsDriven t := by
  rcases step_cases hs with rfl | ⟨c, cs, -, he⟩
  · unfold State.tick
    split
    case isTrue on => unfold PinsDriven at *; exact h
    case isFalse off => exact h
  · cases exec_orderly c he with
    | reset a b => rfl
    | fail => rfl
    | still => exact h
    | acted acts on => exact s.pinsDriven_withBlocks _ (acts.powered.trans on)

/-- Settles O60: every write keeps the area and the pages whole; every event ends with its one pass after the charger's re-evaluation. -/
theorem everyStepLeavesTheOutsideInOrder : Obligations.EveryStepLeavesTheOutsideInOrder := by
  refine ⟨fun s t hs => ⟨fun h => ?area, fun h => ?gens, fun h => ?settled, fun h => step_pinsDriven h hs⟩, fun s t h hs => ?charger⟩
  case area =>
    exact step_keeps (I := fun x => Memory.wf x.mem = true) exec_orderly (fun _ h => h) (fun a b _ => powerOnBlocks_area a b)
      (fun _ _ acts => acts.power.front.area) h hs
  case gens =>
    exact step_keeps (I := fun x => GensEven x.gens) exec_orderly (fun _ h => h) (fun a b _ => powerOnBlocks_gensEven a b)
      (fun _ _ acts => acts.power.front.gens) h hs
  case settled =>
    exact step_keeps (I := fun x => x.due = noCauses) exec_acts (fun _ h => h) (fun _ _ _ => rfl) (fun _ _ acts => acts.closes.due) h hs
  case charger =>
    exact step_keeps (I := fun x => ChargerSettled x.toPower) exec_acts (fun _ h => h) (fun _ _ _ => rfl)
      (fun _ _ acts => acts.closes.charger) h hs

end Sys2Proof.Machine
end

section
/-! PROOF. What the frame of an event, a sweep, a posting and a restart do to the bays, the feed and the slots, said once for every invariant of them. -/

namespace Sys2Proof.Machine

open Sys2Proof.Safety

/-! ## The frame of an event -/

theorem Blocks.Rest.moves {s t : Blocks} (h : s.Rest t) : s.Moves t :=
  ⟨.aside (.of_front (by rw [h.power]) h.inFlight), h.curve⟩

theorem Blocks.publishChanges_moves (s old : Blocks) : s.Moves (s.publishChanges old) := by
  obtain ⟨shape, -, -⟩ := s.publishChanges_frame old
  rw [shape]
  exact ⟨.aside (.of_front rfl rfl), rfl⟩

theorem Blocks.pass_moves (s : Blocks) (causes : PassCauses) : s.Moves (s.pass causes) := by
  have adopted : s.Moves (s.withFront s.toFront.adoptMonitors) := s.withFront_moves rfl
  have taken (t : Blocks) (b : BudgetRec) : t.Moves (t.takeResults b) := by
    refine ⟨.refl _, ?_⟩
    obtain ⟨-, -, -, -, -, -, light⟩ := t.takeResults_frame b
    rw [light]
  have examined (t : Blocks) : t.Moves (t.withPower (t.toPower.reexamine t.loads)) := ⟨.reexamine _ _, rfl⟩
  have sent (t : Blocks) : t.Moves t.publishLight.sendPassEvents := t.withFront_moves (Blocks.sendPassEvents_step t.publishLight).inFlight
  exact ((adopted.trans (taken _ _)).trans (examined _)).trans (sent _)

theorem Blocks.runDuePass_moves (s : Blocks) : s.Moves s.runDuePass := by
  have served : s.Moves (s.withPower { s.toPower with due := noCauses }) := ⟨.aside (.of_front rfl rfl), rfl⟩
  exact .ite (served.trans (Blocks.pass_moves _ _)) (.refl s)

/-- What follows an event's own changes. -/
theorem Blocks.runEvent_moves (s : Blocks) (core : Blocks → Blocks) {post : Front → Front} (hp : ∀ f, (post f).inFlight = f.inFlight) :
    (core s).Moves (s.runEvent core post) := by
  have reassigned : (core s).Moves ((core s).withPower (core s).toPower.reassign) :=
    ⟨.aside ⟨fun b => by cases b <;> rfl, fun b => by cases b <;> exact id, rfl, rfl, rfl, rfl, rfl, rfl, rfl⟩, rfl⟩
  have posted (t : Blocks) : t.Moves (t.withFront (post t.toFront)) := t.withFront_moves (hp _)
  exact ((reassigned.trans (Blocks.runDuePass_moves _)).trans (posted _)).trans (Blocks.publishChanges_moves _ s)

/-! ## Requests -/

/-- What a request does at its take, up to its completion: changes through the hold table and re-examinations, or a cancelled release. -/
inductive Power.Does (p : Power) (l : Loads) : Power → Prop where
  | ruled {q : Power} (h : p.Ruled q) : Does p l q
  | cancel (b : Bay) (r : Release) (h : (p.bay b).state = .releaseWait r) : Does p l (p.cancelRelease l b r)

/-- A request, taken in `slot`: it completes at once, starts a release that will complete it, or leaves a curve pending. -/
inductive Blocks.Performs (slot : Fin 32) (s : Blocks) : Blocks → Prop where
  | finished {u : Blocks} (c : Completion) (h : s.toPower.Does s.loads u.toPower) (curve : u.blc.pendingCurve = s.blc.pendingCurve) :
      Performs slot s (u.finish slot c)
  | release (b : Bay) (f : FormerState) (h : (s.bay b).state.former = some f) :
      Performs slot s (s.withPower (s.toPower.startRelease s.loads b f (.software slot)))
  | curve (points : List CurvePoint) (clamped : Bool) :
      Performs slot s (s.supersede.withLight { s.supersede.blc with pendingCurve := some ⟨points, slot, clamped⟩ })

theorem Blocks.Performs.of_moves {slot : Fin 32} {s u : Blocks} (h : s.Moves u) (c : Completion) : s.Performs slot (u.finish slot c) :=
  .finished c (.ruled h.power) h.curve

theorem Blocks.Performs.same {slot : Fin 32} (s : Blocks) (c : Completion) : s.Performs slot (s.finish slot c) := .of_moves (.refl s) c

theorem Blocks.doReleaseBay_performs (s : Blocks) (slot : Fin 32) (bay : Byte) : s.Performs slot (s.doReleaseBay slot bay) := by
  unfold Blocks.doReleaseBay
  split
  · exact .same s _
  next b code =>
    split
    · exact .same s _
    · exact .same s _
    · exact .same s _
    case h_4 not_empty not_opened not_waiting =>
      split
      case h_1 none_former =>
        cases state : (s.bay b).state with
        | empty => exact absurd state not_empty
        | opened t => exact absurd state (not_opened t)
        | releaseWait r => exact absurd state (not_waiting r)
        | seated | standby | feeding | fault => rw [state] at none_former; cases none_former
      case h_2 f starts => exact .release b f starts

theorem Blocks.doCancelRelease_performs (s : Blocks) (slot : Fin 32) (bay : Byte) : s.Performs slot (s.doCancelRelease slot bay) := by
  unfold Blocks.doCancelRelease
  split
  · exact .same s _
  case h_2 b code =>
    split
    case h_1 r waits => exact .finished (u := s.withPower (s.toPower.cancelRelease s.loads b r)) _ (.cancel b r waits) rfl
    case h_2 => exact .same s _

/-- Adopted settings of the feed and the bays. -/
theorem Blocks.settings_moves (s : Blocks) {f : FeedRec} (c : BayPolicy) (kind : f.kind = s.feed.kind) (dc : f.dcPresent = s.feed.dcPresent)
    (holdover : f.holdover = s.feed.holdover) (lean : f.lean = s.feed.lean) (switchover : f.switchover = s.feed.switchover) :
    s.Moves (s.withPower { s.toPower with feed := f, bayPolicy := c }) :=
  ⟨.aside ⟨fun b => by cases b <;> rfl, fun b => by cases b <;> exact id, kind, dc, congrArg Option.isSome holdover, lean, switchover, rfl,
    rfl⟩, rfl⟩

theorem Blocks.doSetEnergyPolicy_performs (s : Blocks) (slot : Fin 32) (p c : Byte) (t : Half) (m : Byte) (r o : Half) (a : Word) :
    s.Performs slot (s.doSetEnergyPolicy slot p c t m r o a) := by
  unfold Blocks.doSetEnergyPolicy
  dsimp only
  refine .of_moves (s.settings_moves _ ?_ ?_ ?_ ?_ ?_) _ <;> rfl

theorem Blocks.doSetReservoir_performs (s : Blocks) (slot : Fin 32) (c v e l : Word) : s.Performs slot (s.doSetReservoir slot c v e l) := by
  have moved {f : FeedRec} (adopted : s.Moves (s.withPower { s.toPower with feed := f, bayPolicy := s.bayPolicy })) :
      s.Moves (s.withPower (if f = s.feed then { s.toPower with feed := f } else ({ s.toPower with feed := f } : Power).reexamine s.loads)) :=
    ⟨.ite adopted.power (adopted.power.trans (.reexamine _ _)), rfl⟩
  unfold Blocks.doSetReservoir
  dsimp only
  refine .of_moves (moved (s.settings_moves s.bayPolicy ?_ ?_ ?_ ?_ ?_)) _ <;> rfl

theorem Blocks.doLoadCurve_performs (s : Blocks) (slot : Fin 32) (o n : Byte) : s.Performs slot (s.doLoadCurve slot o n) := by
  unfold Blocks.doLoadCurve
  dsimp only
  split
  · exact .same s _
  · exact .curve _ _

theorem Blocks.doPlaceHold_performs (s : Blocks) (slot : Fin 32) (target : Byte) (r d : Half) :
    s.Performs slot (s.doPlaceHold slot target r d) := by
  have placed (es : List (Option HoldEntry)) : s.Moves (s.withPower (s.toPower.changeTable s.loads es)) := ⟨.table _ _ _, rfl⟩
  unfold Blocks.doPlaceHold
  dsimp only
  split
  · exact .same s _
  · split
    · exact .of_moves (placed _) _
    · exact .of_moves (placed _) _
    · exact .same s _

theorem Blocks.doLiftHold_performs (s : Blocks) (slot : Fin 32) (target : Byte) : s.Performs slot (s.doLiftHold slot target) := by
  have removed (gone : HoldEntry → Bool) : s.Moves (s.withPower (s.toPower.removeHolds s.loads gone)) := ⟨Power.removeHolds_ruled _ _ _, rfl⟩
  unfold Blocks.doLiftHold
  split
  · exact .same s _
  · split
    · exact .same s _
    · exact .of_moves (removed _) _

theorem Blocks.doSetMonitor_performs (s : Blocks) (slot : Fin 32) (i k m e n a g f : Byte) (t v : Word) :
    s.Performs slot (s.doSetMonitor slot i k m e n a g f t v) := by
  unfold Blocks.doSetMonitor
  split
  · exact .same s _
  · refine .of_moves (s.withFront_moves ?_) _
    rfl

theorem Blocks.doSetTime_performs (s : Blocks) (slot : Fin 32) (v : Word) : s.Performs slot (s.doSetTime slot v) := by
  refine .of_moves (s.withFront_moves ?_) _
  exact (Front.makeRecord_step _ _).inFlight

theorem Blocks.dueLight_moves (s : Blocks) {l : LightRec} (h : l.pendingCurve = s.blc.pendingCurve) : s.Moves (s.withLight l).dueLight :=
  ⟨.aside (.of_front rfl rfl), h⟩

theorem Blocks.perform_performs (s : Blocks) (slot : Fin 32) (r : Request) : s.Performs slot (s.perform slot r) := by
  cases r with
  | releaseBay b => exact s.doReleaseBay_performs slot b
  | cancelRelease b => exact s.doCancelRelease_performs slot b
  | setEnergyPolicy p c t m r o a => exact s.doSetEnergyPolicy_performs slot p c t m r o a
  | setReservoir c v e l => exact s.doSetReservoir_performs slot c v e l
  | loadCurve o n => exact s.doLoadCurve_performs slot o n
  | setLightMode m v =>
    refine .of_moves (s.dueLight_moves ?_) _
    show (LightRec.retarget (ite _ _ _)).pendingCurve = _
    split <;> rfl
  | setPanel =>
    refine .of_moves (s.dueLight_moves ?_) _
    rfl
  | setMotion => exact .of_moves (s.withMot_moves _) _
  | placeHold t r d => exact s.doPlaceHold_performs slot t r d
  | liftHold t => exact s.doLiftHold_performs slot t
  | setMonitor i k m e n a g f t p => exact s.doSetMonitor_performs slot i k m e n a g f t p
  | clearMonitors m =>
    refine .of_moves ?_ _
    exact .ite (s.withFront_moves rfl) (s.withFront_moves rfl)
  | thawMonitors g =>
    refine .of_moves ?_ _
    exact .ite (s.withFront_moves rfl) (s.withFront_moves rfl)
  | setTime v => exact s.doSetTime_performs slot v
  | unknown k => exact .same s _

/-! ## An invariant of the bays, the feed and the slots -/

/-- What is to be shown of an invariant of the bays, the feed, the holds and the slots that every command keeps. -/
structure Blocks.Kept (I : Blocks → Prop) : Prop where
  moves   : ∀ {s t : Blocks}, s.Moves t → I s → I t
  event   : ∀ {s t : Blocks} {l : Loads}, s.toPower.Acts l t.toPower → t.blc.pendingCurve = s.blc.pendingCurve → I s → I t
  take    : ∀ {s t : Blocks} {slot : Fin 32}, s.flying slot = false → (s.withFront (s.toFront.markTaken slot)).Performs slot t → I s → I t
  point   : ∀ {s : Blocks}, I s → I s.adoptCurve
  restart : ∀ {s : Blocks}, I s → I s.restartJobs

namespace Blocks.Kept

theorem takeSlot {I : Blocks → Prop} (kept : Blocks.Kept I) {s : Blocks} {slot : Fin 32} (free : s.flying slot = false) (h : I s) :
    I (s.takeSlot slot) :=
  kept.moves (s.runEvent_moves _ fun _ => rfl) (kept.take free (Blocks.perform_performs _ slot _) h)

theorem scanSlot {I : Blocks → Prop} (kept : Blocks.Kept I) {s : Blocks} (slot : Fin 32) (h : I s) : I (s.scanSlot slot) := by
  unfold Blocks.scanSlot
  split
  case isTrue posted =>
    simp only [Bool.and_eq_true, Bool.not_eq_true'] at posted
    exact kept.takeSlot posted.2 h
  case isFalse => exact h

theorem sweep {I : Blocks → Prop} (kept : Blocks.Kept I) {s : Blocks} (h : I s) : I s.sweep := by
  have reread : I (s.withFront s.toFront.reReadIndex) := kept.moves (s.withFront_moves (Front.reReadIndex_inFlight _)) h
  have scanned : ∀ (slots : List (Fin 32)) (t : Blocks), I t → I (slots.foldl Blocks.scanSlot t) := by
    intro slots
    induction slots with
    | nil => exact fun _ => id
    | cons slot slots ih => exact fun t h => ih _ (kept.scanSlot slot h)
  unfold Blocks.sweep
  dsimp only
  split
  · exact scanned _ _ reread
  · exact reread

theorem hostPosts {I : Blocks → Prop} (kept : Blocks.Kept I) {s : Blocks} (p : Posting) (r : Request) (h : I s) : I (s.hostPosts p r) := by
  have posted : I (s.withFront (s.toFront.post p r)) := kept.moves (s.withFront_moves rfl) h
  unfold Blocks.hostPosts
  dsimp only
  split
  case isTrue taken =>
    simp only [Bool.and_eq_true, Bool.not_eq_true'] at taken
    exact kept.takeSlot taken.2 posted
  case isFalse => exact posted

/-- Such an invariant is kept by every command. -/
theorem acts {I : Blocks → Prop} (kept : Blocks.Kept I) {s t : Blocks} (acts : s.Acts t) (h : I s) : I t := by
  cases acts with
  | rest rest => exact kept.moves rest.moves h
  | event l hu hc hl hp => exact kept.moves (Blocks.runEvent_moves _ _ hp) (kept.event hc hl (kept.moves hu.moves h))
  | sweep hu => exact kept.sweep (kept.moves hu.moves h)
  | posts p r => exact kept.hostPosts p r h
  | point m =>
    have stepped : s.adoptCurve.Moves (s.applyPoint.withAppMode m) := ⟨.refl _, ?_⟩
    · exact kept.moves stepped (kept.point h)
    · show s.adoptCurve.blc.stepDuty.pendingCurve = _
      unfold LightRec.stepDuty
      split <;> rfl
  | restart =>
    refine kept.moves (s.runEvent_moves _ fun f => ?_) (kept.restart h)
    exact f.restartRegisters_inFlight

end Blocks.Kept

end Sys2Proof.Machine
end

section
/-! PROOF. A hold beats a release (R16, R58): no operation unlocks a bay under a hold, and a new hold locks the bays again. -/

namespace Sys2Proof.Machine

open Sys2Proof.Safety

/-! ## What locks -/

/-- From `p` to `q` no latch demand is new, and a bay that became unlocked stands under none. -/
structure Power.LockStep (p q : Power) : Prop where
  demand : ∀ b, q.hld.demand b = true → p.hld.demand b = true
  locks  : ∀ b, unlocked (q.bay b).state = true → unlocked (p.bay b).state = true ∨ q.hld.demand b = false

namespace Power.LockStep

theorem of_same {p q : Power} (states : ∀ b, (q.bay b).state = (p.bay b).state) (entries : q.hld.entries = p.hld.entries) : p.LockStep q :=
  ⟨fun b => by simp only [HoldTable.demand, HoldTable.targets, entries]; exact id, fun b h => .inl (states b ▸ h)⟩

theorem refl (p : Power) : p.LockStep p := .of_same (fun _ => rfl) rfl

theorem trans {p q r : Power} (a : p.LockStep q) (b : q.LockStep r) : p.LockStep r := by
  refine ⟨fun c h => a.demand c (b.demand c h), fun c h => ?_⟩
  rcases b.locks c h with unlocked_before | free
  · exact (a.locks c unlocked_before).imp id fun free => Bool.eq_false_iff.mpr fun held => Bool.eq_false_iff.mp free (b.demand c held)
  · exact .inr free

theorem ite {p q r : Power} {c : Prop} [Decidable c] (a : c → p.LockStep q) (b : ¬ c → p.LockStep r) : p.LockStep (if c then q else r) := by
  split
  case isTrue h => exact a h
  case isFalse h => exact b h

theorem holds {p q : Power} (h : p.LockStep q) (held : HoldsBeatReleases p) : HoldsBeatReleases q := by
  intro b unlocked_after
  rcases h.locks b unlocked_after with unlocked_before | free
  · exact Bool.eq_false_iff.mpr fun demanded => Bool.eq_false_iff.mp (held b unlocked_before) (h.demand b demanded)
  · exact free

end Power.LockStep

theorem Power.Aside.locks {p q : Power} (h : p.Aside q) : p.LockStep q := .of_same h.states h.entries

theorem Power.Seeks.locks {p q : Power} (h : p.Seeks q) : p.LockStep q :=
  .of_same (fun b => by rw [h.bay]) (by rw [h.rest])

/-- A bay record whose state is locked, or unlocked as before, or under no demand. -/
theorem Power.setBay_locks (p : Power) (b : Bay) (r : BayRec)
    (h : unlocked r.state = true → unlocked (p.bay b).state = true ∨ p.hld.demand b = false) : p.LockStep (p.setBay b r) := by
  refine ⟨fun c => by simp, fun c => ?_⟩
  rcases eq_or_eq_otherBay b c with rfl | rfl
  · simpa using h
  · simpa using .inl

theorem Power.setLink_locks (p : Power) (b : Bay) (n : Link) : p.LockStep (p.setLink b n) := .of_same (fun c => by simp) (by simp)

theorem Power.setState_locks (p : Power) (b : Bay) (st : BayState)
    (h : unlocked st = true → unlocked (p.bay b).state = true ∨ p.hld.demand b = false) : p.LockStep (p.setState b st) := by
  have set := p.setBay_locks b { p.bay b with state := st } h
  unfold Power.setState
  dsimp only
  split
  · exact set
  · exact .ite (fun _ => set) fun _ => set.trans (Power.setLink_locks _ _ _)

/-- A bay enters a state in which it is locked. -/
theorem Power.setState_locked (p : Power) (b : Bay) (st : BayState) (h : unlocked st = false) : p.LockStep (p.setState b st) :=
  p.setState_locks b st fun free => absurd free (by simp [h])

theorem Power.enterSeated_locks (p : Power) (b : Bay) : p.LockStep (p.enterSeated b) :=
  by
  unfold Power.enterSeated
  refine (p.setBay_locks b _ ?_).trans (Power.setLink_locks _ _ _)
  exact fun free => absurd free Bool.false_ne_true

/-! ## The hold table -/

theorem targets_eq_true {h : HoldTable} {t : Target} : h.targets t = true ↔ ∃ e, some e ∈ h.entries ∧ e.target = t := by
  unfold HoldTable.targets
  rw [List.any_eq_true]
  constructor
  · rintro ⟨o, mem, target⟩
    cases o with
    | none => cases target
    | some e => exact ⟨e, mem, of_decide_eq_true target⟩
  · rintro ⟨e, mem, target⟩
    exact ⟨some e, mem, decide_eq_true target⟩

theorem demand_eq_true {h : HoldTable} {b : Bay} : h.demand b = true ↔ ∃ e, some e ∈ h.entries ∧ e.target = latchOf b := targets_eq_true

theorem mem_of_mem_removeEntries {gone : HoldEntry → Bool} {es : List (Option HoldEntry)} {e : HoldEntry}
    (h : some e ∈ removeEntries gone es) : some e ∈ es := by
  obtain ⟨o, mem, kept⟩ := List.mem_map.mp h
  cases o with
  | none => cases kept
  | some f =>
    dsimp only at kept
    split at kept
    · cases kept
    · cases kept; exact mem

/-- A placement adds no entry of another target. -/
theorem mem_of_mem_placeEntry {e f : HoldEntry} {es : List (Option HoldEntry)} (h : some f ∈ placeEntry e es)
    (other : f.target ≠ e.target) : some f ∈ es := by
  unfold placeEntry at h
  split at h
  · rcases List.mem_or_eq_of_mem_set h with old | new
    · exact old
    · cases new; exact absurd rfl other
  · rcases List.mem_or_eq_of_mem_set h with old | new
    · exact old
    · cases new; exact absurd rfl other
  · exact h

theorem Power.putTable_bay (p : Power) (es : List (Option HoldEntry)) (b : Bay) : (p.putTable es).bay b = p.bay b := by
  obtain ⟨-, -, bayA, bayB, -⟩ := p.putTable_frame es
  cases b
  · exact bayA
  · exact bayB

/-- A change of the table that brings no new demand. -/
theorem Power.putTable_locks (p : Power) {es : List (Option HoldEntry)}
    (h : ∀ e b, some e ∈ es → e.target = latchOf b → some e ∈ p.hld.entries) : p.LockStep (p.putTable es) := by
  refine ⟨fun b demanded => ?_, fun b free => .inl (p.putTable_bay es b ▸ free)⟩
  obtain ⟨e, mem, target⟩ := demand_eq_true.mp demanded
  rw [(p.putTable_frame es).1] at mem
  exact demand_eq_true.mpr ⟨e, h e b mem target, target⟩

theorem Power.placeEnergy_locks (p : Power) : p.LockStep p.placeEnergy :=
  p.putTable_locks fun e b mem target => mem_of_mem_placeEntry mem fun storage => by
    rw [target] at storage
    cases b <;> cases storage

theorem Power.liftEnergy_locks (p : Power) : p.LockStep p.liftEnergy :=
  .ite (fun _ => .refl p) fun _ => p.putTable_locks fun _ _ mem _ => mem_of_mem_removeEntries mem

/-! ## The feed -/

theorem Power.endHoldover_locks (p : Power) (c : HoldoverEndCause) : p.LockStep (p.endHoldover c) := by
  unfold Power.endHoldover
  split
  · exact .refl p
  · refine .ite (fun _ => ?_) fun _ => .of_same (fun b => by cases b <;> rfl) rfl
    have cleared : p.writeDeferredEnd.LockStep p.writeDeferredEnd.clearHoldover := .of_same (fun b => by cases b <;> rfl) rfl
    exact (p.writeDeferredEnd_aside.locks.trans cleared).trans (Power.liftEnergy_locks _)

/-- A bay that loses the feed is unlocked only as it was (R2). -/
theorem unlocked_stateAfterFeed (c : MoveCause) (t : FeedKind) (st : BayState) : unlocked (stateAfterFeed c t st) = unlocked st := by
  cases st with
  | feeding f => cases left : leaveReason c f <;> simp only [stateAfterFeed, left] <;> rfl
  | releaseWait r => rfl
  | empty | seated | standby | opened | fault => rfl

theorem Power.moveFeed_locks (p : Power) (t : FeedKind) (c : MoveCause) (v : Bool) : p.LockStep (p.moveFeed t c v) := by
  have left : p.LockStep (p.leaveFeed c t) := by
    unfold Power.leaveFeed
    split
    · exact .refl p
    · exact p.setState_locks _ _ fun free => .inl (unlocked_stateAfterFeed c t _ ▸ free)
  have put : p.LockStep ((p.leaveFeed c t).putFeed t) := left.trans (.of_same (fun b => by cases b <;> rfl) rfl)
  have joined : p.LockStep (((p.leaveFeed c t).putFeed t).joinFeed t) := by
    unfold Power.joinFeed
    split
    · exact put
    · exact put.trans (Power.setState_locked _ _ _ rfl)
  unfold Power.moveFeed
  dsimp only
  exact .ite (fun _ => .ite (fun _ => joined) fun _ => joined.trans (.of_same (fun b => by cases b <;> rfl) rfl))
    fun _ => .ite (fun _ => joined.trans (Power.endHoldover_locks _ _)) fun _ => joined

theorem Power.choicePoint_locks (p : Power) : p.LockStep p.choicePoint :=
  .ite (fun _ => .ite (fun _ => .refl p) fun _ => p.moveFeed_locks _ _ _) fun _ => .refl p

theorem Power.enteredStandby_locks (p : Power) (l : Loads) (b : Bay) : p.LockStep (p.enteredStandby l b) :=
  .ite (fun _ => .ite (fun _ => p.choicePoint_locks) fun _ => (p.reexamine_seeks l).locks) fun _ => .refl p

/-! ## Releases -/

theorem Power.completeRelease_locks (p : Power) (b : Bay) (r : Release) (c : ResultCode) (v : Bool) :
    p.LockStep (p.completeRelease b r c v) := by
  unfold Power.completeRelease
  split
  · exact .refl p
  · exact .ite (fun _ => .of_same (fun b => by cases b <;> rfl) rfl) fun _ => .refl p

theorem Power.takeFormer_locks (p : Power) (b : Bay) (r : Release) : p.LockStep (p.takeFormer b r) := by
  unfold Power.takeFormer
  split
  · exact p.enterSeated_locks b
  · exact p.setState_locked b _ rfl
  · exact p.setState_locked b _ rfl
  · exact p.setState_locked b _ rfl

theorem Power.refuse_locks (p : Power) (b : Bay) (r : Release) (x : RefusalReason) (v : Bool) : p.LockStep (p.refuse b r x v) := by
  have tied : p.LockStep (p.makeTied (.releaseRefused b x v r.origin) ⟨.releaseRefused, refusalBit x, none⟩) := (p.makeTied_aside _ _).locks
  unfold Power.refuse
  dsimp only
  refine .trans (.trans ?_ (Power.setBlink_aside _ b _).locks) (Power.completeRelease_locks _ _ _ _ _)
  exact .ite (fun _ => tied.trans (Power.packFault_aside _ _ _).locks) fun _ => tied

theorem Power.endRefused_locks (p : Power) (l : Loads) (b : Bay) (r : Release) (x : RefusalReason) (v : Bool) :
    p.LockStep (p.endRefused l b r x v) :=
  ((p.takeFormer_locks b r).trans (Power.refuse_locks _ _ _ _ _)).trans (Power.enteredStandby_locks _ _ _)

theorem Power.endStuck_locks (p : Power) (b : Bay) (r : Release) : p.LockStep (p.endStuck b r) :=
  (p.setState_locked b _ rfl).trans (Power.refuse_locks _ _ _ _ _)

theorem Power.endCancelled_locks (p : Power) (l : Loads) (b : Bay) (r : Release) : p.LockStep (p.endCancelled l b r) :=
  ((p.takeFormer_locks b r).trans (Power.completeRelease_locks _ _ _ _ _)).trans (Power.enteredStandby_locks _ _ _)

theorem Power.confirmOpen_locks (p : Power) (b : Bay) (r : Release)
    (h : unlocked (p.bay b).state = true ∨ p.hld.demand b = false) : p.LockStep (p.confirmOpen b r) := by
  have opened := p.setState_locks b (.opened (p.tmb.uptime + p.bayPolicy.openWindow * 1000)) fun _ => h
  unfold Power.confirmOpen
  dsimp only
  refine .trans ?_ (Power.completeRelease_locks _ _ _ _ _)
  split
  · exact opened
  · exact opened.trans (Power.makeTied_aside _ _ _).locks

theorem Power.enterUnlatching_locks (p : Power) (b : Bay) (r : Release) (free : p.hld.demand b = false) :
    p.LockStep (p.enterUnlatching b r) := by
  have unlatching := p.setState_locks b (.releaseWait { r with sub := .unlatching (p.tmb.uptime + 500) }) fun _ => .inr free
  refine .ite (fun _ => unlatching.trans (Power.confirmOpen_locks _ _ _ ?_)) fun _ => unlatching
  rw [((p.setState_frame b _).1)]
  exact .inl rfl

theorem Power.enterHeld_locks (p : Power) (l : Loads) (b : Bay) (r : Release) : p.LockStep (p.enterHeld l b r) :=
  .ite (fun _ => p.endRefused_locks _ _ _ _ _) fun _ => p.setState_locked b _ rfl

theorem Power.transferRefused_locks (p : Power) (l : Loads) (b : Bay) (v : Bool) : p.LockStep (p.transferRefused l b v) := by
  unfold Power.transferRefused
  split
  · split
    · exact p.endCancelled_locks _ _ _
    · exact p.endRefused_locks _ _ _ _ _
    · exact .refl p
  · exact .refl p

theorem Power.transferConfirmed_locks (p : Power) (l : Loads) (b : Bay) : p.LockStep (p.transferConfirmed l b) := by
  unfold Power.transferConfirmed
  split
  · split
    · exact p.endCancelled_locks _ _ _
    · exact .ite (fun _ => p.enterHeld_locks _ _ _) fun free => p.enterUnlatching_locks _ _ (Bool.eq_false_iff.mpr free)
    · exact .refl p
  · exact .refl p

theorem Power.startSwitchover_locks (p : Power) (t : FeedKind) (u : Purpose) : p.LockStep (p.startSwitchover t u) :=
  .of_same (fun b => by cases b <;> rfl) rfl

theorem Power.planTakeover_locks (p : Power) (l : Loads) (b : Bay) : p.LockStep (p.planTakeover l b) := by
  have sought := (p.findSource_finds l b true).1.locks
  unfold Power.planTakeover
  dsimp only
  split
  · exact sought.trans (Power.startSwitchover_locks _ _ _)
  · exact sought.trans (Power.transferRefused_locks _ _ _ _)

theorem Power.enterTransfer_locks (p : Power) (l : Loads) (b : Bay) (r : Release) : p.LockStep (p.enterTransfer l b r) := by
  have waits := p.setState_locked b (.releaseWait { r with sub := .transfer false }) rfl
  exact .ite (fun _ => waits) fun _ => waits.trans (Power.planTakeover_locks _ _ _)

theorem Power.moveOn_locks (p : Power) (l : Loads) (b : Bay) (r : Release) (free : p.hld.demand b = false) : p.LockStep (p.moveOn l b r) :=
  .ite (fun _ => p.enterTransfer_locks _ _ _) fun _ => p.enterUnlatching_locks _ _ free

/-! ## Switchovers and losses -/

theorem Power.examineDue_locks (p : Power) (l : Loads) {x : Bay} (h : p.feed.kind.bay = some x) : p.LockStep (p.examineDue l x) :=
  (Power.examineDue_seeks l x (by rw [h]; rfl)).locks

theorem Power.afterSwitchover_locks (p : Power) (l : Loads) : p.LockStep (p.afterSwitchover l) := by
  refine .ite (fun _ => .refl p) fun _ => .ite (fun _ => p.moveFeed_locks _ _ _) fun _ => ?_
  split
  · exact .refl p
  case h_2 x from_bay => exact p.examineDue_locks l from_bay

theorem Power.replan_locks (p : Power) (l : Loads) (x : Bay) : p.LockStep (p.replan l x) :=
  .ite (fun _ => p.planTakeover_locks _ _) fun _ => .refl p

theorem Power.reportFailure_locks (p : Power) (l : Loads) (x : Bay) (u : Purpose) : p.LockStep (p.reportFailure l x u) := by
  cases u with
  | takeover => exact p.transferRefused_locks _ _ _
  | faultMove => exact .trans (.ite (fun _ => .refl p) fun _ => p.recordFaulted_seeks.locks) (Power.replan_locks _ _ _)
  | changeover => exact p.recordLow_seeks.locks.trans (Power.replan_locks _ _ _)

theorem Power.failSwitchover_locks (p : Power) (l : Loads) : p.LockStep (p.failSwitchover l) := by
  have reverted : p.LockStep p.revertSwitchover := .of_same (fun b => by cases b <;> rfl) rfl
  unfold Power.failSwitchover
  split
  · exact (reverted.trans (Power.reportFailure_locks _ _ _ _)).trans (Power.afterSwitchover_locks _ _)
  · exact .refl p

theorem Power.leftStandby_locks (p : Power) (l : Loads) (b : Bay) : p.LockStep (p.leftStandby l b) := by
  unfold Power.leftStandby
  split
  · exact .ite (fun _ => p.failSwitchover_locks l) fun _ => .refl p
  · exact .refl p

theorem Power.confirmSwitchover_locks (p : Power) (l : Loads) : p.LockStep (p.confirmSwitchover l) := by
  unfold Power.confirmSwitchover
  split
  · refine .trans (.ite (fun _ => ?_) fun _ => ?_) (Power.afterSwitchover_locks _ _)
    · exact (p.moveFeed_locks _ _ _).trans (Power.transferConfirmed_locks _ _ _)
    · exact (p.moveFeed_locks _ _ _).trans (Power.enteredStandby_locks _ _ _)
  · exact .refl p

/-- An unplanned loss up to its emergency pass: the loss choice and its move, the record, the triggers (R39, R40). -/
def Power.lossTaken (p : Power) (c : LossCause) : Power :=
  let q := p.moveFeed p.choose (if c = .voltage then .collapse else .ordinary) false
  let r := q.makeRecord (.feedLost p.feed.kind c q.feed.kind q.feed.eAvail)
  { r with due := { r.due with emergency := true, feed := true } }

theorem Power.loss_of_dc {p : Power} (l : Loads) (c : LossCause) (h : p.feed.kind.bay = none) : p.loss l c = p.lossTaken c := by
  simp only [Power.loss, h]; rfl

theorem Power.loss_of_bay {p : Power} (l : Loads) (c : LossCause) {x : Bay} (h : p.feed.kind.bay = some x) :
    p.loss l c = if c = .voltage then
        (if (p.bay x).state.standing.pack then p.lossTaken c else (p.lossTaken c).packFault x .pack).transferConfirmed l x
      else p.lossTaken c := by
  simp only [Power.loss, h]; rfl

theorem Power.lossTaken_aside (p : Power) (c : LossCause) :
    (p.moveFeed p.choose (if c = .voltage then .collapse else .ordinary) false).Aside (p.lossTaken c) :=
  .of_front rfl (Front.makeRecord_step _ _).inFlight

theorem Power.loss_locks (p : Power) (l : Loads) (c : LossCause) : p.LockStep (p.loss l c) := by
  have taken : p.LockStep (p.lossTaken c) := (p.moveFeed_locks _ _ _).trans (p.lossTaken_aside c).locks
  cases from_bay : p.feed.kind.bay with
  | none => rw [Power.loss_of_dc l c from_bay]; exact taken
  | some x =>
    rw [Power.loss_of_bay l c from_bay]
    refine .ite (fun _ => .trans ?_ (Power.transferConfirmed_locks _ _ _)) fun _ => taken
    exact .ite (fun _ => taken) fun _ => taken.trans (Power.packFault_aside _ _ _).locks

/-! ## Findings -/

theorem Power.toFault_locks (p : Power) (l : Loads) (b : Bay) (r : FaultReason) : p.LockStep (p.toFault l b r) := by
  have faulted := (p.setState_locked b (.fault r) rfl).trans (Power.packFault_aside _ b r).locks
  exact .ite (fun _ => faulted.trans (Power.leftStandby_locks _ _ _)) fun _ => faulted

theorem unlocked_withStanding (f : FaultSet) (st : BayState) : unlocked (st.withStanding f) = unlocked st := by cases st <;> rfl

theorem Power.withStanding_locks (p : Power) (b : Bay) (f : FaultSet) : p.LockStep (p.setState b ((p.bay b).state.withStanding f)) :=
  p.setState_locks b _ fun free => .inl (unlocked_withStanding f _ ▸ free)

/-- With a feed bay FHU's search starts from it. -/
theorem fed_of_kind {k : FeedKind} {b : Bay} (h : k = feedOf b) : k.bay.isSome = true := by subst h; cases b <;> rfl

theorem Power.setState_feed (p : Power) (b : Bay) (st : BayState) : (p.setState b st).feed = p.feed := by
  obtain ⟨-, -, -, -, -, -, feed, -⟩ := p.setState_frame b st
  exact feed

theorem Power.addStanding_locks {p : Power} (l : Loads) (b : Bay) (r : Standing) (h : p.feed.kind = feedOf b) :
    p.LockStep (p.addStanding l b r) := by
  refine .ite (fun _ => .refl p) fun _ => ?_
  have noted := (p.withStanding_locks b ((p.bay b).state.standing.put r true)).trans (Power.packFault_aside _ b r.reason).locks
  have feed := (congrArg FeedRec.kind (p.setState_feed b ((p.bay b).state.withStanding ((p.bay b).state.standing.put r true)))).trans h
  refine noted.trans (Power.seekFaultMove_seeks l b (fed_of_kind (b := b) ?_)).locks
  exact feed

theorem Power.dropThermal_locks (p : Power) (l : Loads) (b : Bay) : p.LockStep (p.dropThermal l b) := by
  have cooled := p.withStanding_locks b ((p.bay b).state.standing.put .thermal false)
  exact .ite (fun _ => .ite (fun _ => cooled.trans (.of_same (fun b => by cases b <;> rfl) rfl))
    fun _ => .ite (fun _ => cooled.trans (Power.reexamine_seeks _ l).locks) fun _ => cooled) fun _ => .refl p

/-- A release's record changes beneath its sub-state. -/
theorem Power.setRelease_locks {p : Power} {b : Bay} {r u : Release} (h : (p.bay b).state = .releaseWait r) (sub : u.sub = r.sub) :
    p.LockStep (p.setState b (.releaseWait u)) :=
  p.setState_locks b _ fun free => .inl (by rw [h]; simpa [unlocked, BayState.lockDemand, sub] using free)

theorem Power.noteFormer_locks {p : Power} {b : Bay} {r : Release} (h : (p.bay b).state = .releaseWait r) (x : Standing) :
    p.LockStep (p.noteFormer b r x) := by
  refine .ite (fun _ => .refl p) fun _ => .trans ?_ (Power.packFault_aside _ _ _).locks
  exact Power.setRelease_locks h rfl

theorem Power.judgeFeed_locks {p : Power} (l : Loads) (b : Bay) (k : PackState) (h : p.feed.kind = feedOf b) :
    p.LockStep (p.judgeFeed l b k) :=
  .ite (fun _ => Power.addStanding_locks l b _ h) fun _ => .ite (fun _ => Power.addStanding_locks l b _ h)
    fun _ => .ite (fun _ => p.dropThermal_locks l b) fun _ => .refl p

theorem Power.judgePoll_locks (p : Power) (l : Loads) (b : Bay) (k : PackState) : p.LockStep (p.judgePoll l b k) := by
  refine .ite (Power.judgeFeed_locks l b k) fun _ => ?_
  split
  · exact .ite (fun _ => p.toFault_locks l b _) fun _ => .ite (fun _ => p.toFault_locks l b _) fun _ => .refl p
  · exact .ite (fun _ => p.toFault_locks l b _) fun _ => .ite (fun _ => p.enterSeated_locks b) fun _ => .refl p
  case h_3 r waits =>
    exact .ite (fun _ => Power.noteFormer_locks waits _) fun _ => .ite (fun _ => Power.noteFormer_locks waits _)
      fun _ => .ite (fun _ => Power.setRelease_locks waits rfl) fun _ => .refl p
  · exact .refl p

theorem Power.polledFeed_locks (p : Power) (l : Loads) (b : Bay) (k : PackState) : p.LockStep (p.polledFeed l b k) :=
  .ite (fun feeds => .ite (fun _ => (Power.seekChangeover_seeks l b (fed_of_kind feeds)).locks) fun _ => .refl p)
    fun _ => .ite (fun _ => .ite (fun _ => p.choicePoint_locks) fun _ => .refl p) fun _ => (p.reexamine_seeks l).locks

/-- New contents of a bay record and an idle link. -/
theorem Power.refill_aside (p : Power) (b : Bay) {r : BayRec} {n : Link} (state : r.state = (p.bay b).state) (idle : n.activity = .idle) :
    p.Aside ((p.setBay b r).setLink b n) :=
  (p.setBay_aside b state).trans (Power.setLink_aside _ b fun reads => by rw [idle] at reads; cases reads)

/-- A successful poll up to its findings: the record replaced and stamped, the link idle, PACK_HOT (R9). -/
def Power.takePoll (p : Power) (b : Bay) (k : PackState) : Power :=
  let q := p.setBay b { p.bay b with
    packState := some { k with polledAt := some p.tmb.uptime }
    failedPolls := pollsAfterGood (p.bay b).failedPolls }
  let q := q.setLink b { q.link b with activity := .idle }
  { q with toFront := q.toFront.sendEvent (packHot b k.temperature) }

theorem Power.pollGood_eq (p : Power) (l : Loads) (b : Bay) (k : PackState) :
    p.pollGood l b k = ((p.takePoll b k).judgePoll l b k).polledFeed l b k := rfl

theorem Power.takePoll_aside (p : Power) (b : Bay) (k : PackState) : p.Aside (p.takePoll b k) := by
  have sent (q : Power) : q.Aside { q with toFront := q.toFront.sendEvent (packHot b k.temperature) } :=
    .of_front rfl (Front.sendEvent_step _ _).inFlight
  refine .trans ?_ (sent _)
  exact p.refill_aside b rfl rfl

theorem Power.pollGood_locks (p : Power) (l : Loads) (b : Bay) (k : PackState) : p.LockStep (p.pollGood l b k) :=
  ((p.takePoll_aside b k).locks.trans (Power.judgePoll_locks _ _ _ _)).trans (Power.polledFeed_locks _ _ _ _)

theorem Power.linkLost_locks (p : Power) (l : Loads) (b : Bay) : p.LockStep (p.linkLost l b) := by
  refine .ite (Power.addStanding_locks l b _) fun _ => ?_
  split
  · exact p.toFault_locks l b _
  · exact p.toFault_locks l b _
  case h_3 r waits => exact Power.noteFormer_locks waits _
  · exact .refl p

/-- A poll has failed: it is counted, and the link is idle (R9). -/
def Power.countFailedPoll (p : Power) (b : Bay) : Power :=
  let n := (p.bay b).failedPolls
  (p.setBay b { p.bay b with failedPolls := if n < 3 then n + 1 else n }).setLink b { p.link b with activity := .idle }

theorem Power.pollBad_eq (p : Power) (l : Loads) (b : Bay) :
    p.pollBad l b = if (p.bay b).failedPolls = 2 then (p.countFailedPoll b).linkLost l b else p.countFailedPoll b := rfl

theorem Power.countFailedPoll_aside (p : Power) (b : Bay) : p.Aside (p.countFailedPoll b) := by
  unfold Power.countFailedPoll
  exact p.refill_aside b rfl rfl

theorem Power.pollBad_locks (p : Power) (l : Loads) (b : Bay) : p.LockStep (p.pollBad l b) := by
  rw [Power.pollBad_eq]
  exact .ite (fun _ => (p.countFailedPoll_aside b).locks.trans (Power.linkLost_locks _ _ _)) fun _ => (p.countFailedPoll_aside b).locks

/-! ## The pack link -/

/-- The last block of an identification fills the pack state record, and the poll period starts (R8). -/
def Power.fillPackState (p : Power) (b : Bay) (k : PackState) : Power :=
  (p.setBay b { p.bay b with packState := some k, failedPolls := 0 }).setLink b
    { p.link b with activity := .idle, pollAt := some (p.tmb.uptime + 250) }

theorem Power.identified_eq (p : Power) (l : Loads) (b : Bay) (k : PackState) :
    p.identified l b k =
      if k.faulty then (p.fillPackState b k).toFault l b .pack
      else if 600 ≤ k.temperature then (p.fillPackState b k).toFault l b .thermal
      else if (p.fillPackState b k).feed.kind = .reservoir ∧ 5 ≤ k.soc then (p.fillPackState b k).moveFeed (feedOf b) .ordinary false
      else ((p.fillPackState b k).setState b .standby).enteredStandby l b := rfl

theorem Power.fillPackState_aside (p : Power) (b : Bay) (k : PackState) : p.Aside (p.fillPackState b k) := by
  unfold Power.fillPackState
  exact p.refill_aside b rfl rfl

theorem Power.identified_locks (p : Power) (l : Loads) (b : Bay) (k : PackState) : p.LockStep (p.identified l b k) := by
  have filled := (p.fillPackState_aside b k).locks
  rw [Power.identified_eq]
  exact .ite (fun _ => filled.trans (Power.toFault_locks _ _ _ _)) fun _ =>
    .ite (fun _ => filled.trans (Power.toFault_locks _ _ _ _)) fun _ =>
    .ite (fun _ => filled.trans (Power.moveFeed_locks _ _ _ _)) fun _ =>
      (filled.trans (Power.setState_locked _ _ _ rfl)).trans (Power.enteredStandby_locks _ _ _)

theorem Power.setActivity_locks (p : Power) (b : Bay) (a : LinkActivity) : p.LockStep (p.setActivity b a) := p.setLink_locks _ _

theorem Power.badTransaction_locks (p : Power) (l : Loads) (b : Bay) : p.LockStep (p.badTransaction l b) := by
  unfold Power.badTransaction
  split
  · exact p.setActivity_locks _ _
  · exact .ite (fun _ => p.pollBad_locks l b) fun _ => p.setActivity_locks _ _
  · exact .refl p
  · exact .refl p

theorem Power.judgeIdentity_locks (p : Power) (l : Loads) (b : Bay) (i : Identity) : p.LockStep (p.judgeIdentity l b i) := by
  have kept : p.Aside (p.setBay b { p.bay b with identity := some i }) := p.setBay_aside b rfl
  exact .ite (fun _ => kept.locks.trans (Power.setActivity_locks _ _ _)) fun _ => kept.locks.trans (Power.toFault_locks _ _ _ _)

theorem Power.identBlock_locks (p : Power) (l : Loads) (b : Bay) (k : Nat) (d : BitVec 128) : p.LockStep (p.identBlock l b k d) := by
  have read : p.LockStep (p.setLink b { p.link b with block1 := d }) := p.setLink_locks b _
  unfold Power.identBlock
  dsimp only
  split
  · exact p.setLink_locks _ _
  · exact read.trans (Power.judgeIdentity_locks _ _ _ _)
  · exact p.setLink_locks _ _
  · exact p.identified_locks _ _ _

theorem Power.goodTransaction_locks (p : Power) (l : Loads) (b : Bay) (d : BitVec 128) : p.LockStep (p.goodTransaction l b d) := by
  unfold Power.goodTransaction
  split
  · exact .ite (fun _ => p.setActivity_locks _ _) fun _ => p.identBlock_locks _ _ _ _
  · exact .ite (fun _ => p.pollBad_locks _ _) fun _ => .ite (fun _ => p.setLink_locks _ _) fun _ => p.pollGood_locks _ _ _
  · exact .refl p
  · exact .refl p

theorem Power.linkReply_locks (p : Power) (l : Loads) (b : Bay) (d : BitVec 136) : p.LockStep (p.linkReply l b d) := by
  unfold Power.linkReply
  split
  · exact .refl p
  · exact .ite (fun _ => .refl p) fun _ => .ite (fun _ => p.goodTransaction_locks _ _ _) fun _ => p.badTransaction_locks _ _

theorem Power.linkTimeout_locks (p : Power) (l : Loads) (b : Bay) : p.LockStep (p.linkTimeout l b) := by
  unfold Power.linkTimeout
  split
  · exact .refl p
  · exact .ite (fun _ => p.badTransaction_locks _ _) fun _ => .refl p

/-! ## Starting and cancelling a release, and the bays' reaction to a hold -/

/-- A release as its start records it (R15). -/
def Power.newRelease (p : Power) (b : Bay) (former : FormerState) (origin : Origin) : Release :=
  { sub := .held, former, standing := (p.bay b).state.standing, origin, slotOpen := decide (origin ≠ .button)
    requestAt := p.tmb.uptime, limitAt := p.tmb.uptime + p.bayPolicy.releaseLimit * 1000, takeover := none }

/-- The records of a bay as a release starts: no blink, and from SEATED nothing that identification has read (R15, R22). -/
def Power.clearForRelease (p : Power) (b : Bay) (former : FormerState) : Power :=
  let q := p.setBlink b none
  if former = .seated then q.setBay b { q.bay b with identity := none, packState := none } else q

/-- A release starts in HELD, and a switchover to its bay is reverted (R15, R36). -/
def Power.beginRelease (p : Power) (l : Loads) (b : Bay) (former : FormerState) (origin : Origin) : Power :=
  let q := (p.clearForRelease b former).setState b (.releaseWait (p.newRelease b former origin))
  if (p.bay b).state.isStandby then q.leftStandby l b else q

theorem Power.startRelease_eq (p : Power) (l : Loads) (b : Bay) (former : FormerState) (origin : Origin) :
    p.startRelease l b former origin =
      if (p.beginRelease l b former origin).hld.demand b then p.beginRelease l b former origin
      else (p.beginRelease l b former origin).moveOn l b (p.newRelease b former origin) := rfl

theorem Power.clearForRelease_aside (p : Power) (b : Bay) (former : FormerState) : p.Aside (p.clearForRelease b former) := by
  have cleared := p.setBlink_aside b none
  refine .ite (cleared.trans ?_) cleared
  exact Power.setBay_aside _ b rfl

theorem Power.startRelease_locks (p : Power) (l : Loads) (b : Bay) (f : FormerState) (o : Origin) : p.LockStep (p.startRelease l b f o) := by
  have waits := (p.clearForRelease_aside b f).locks.trans (Power.setState_locked _ b (.releaseWait (p.newRelease b f o)) rfl)
  have begun : p.LockStep (p.beginRelease l b f o) := .ite (fun _ => waits.trans (Power.leftStandby_locks _ _ _)) fun _ => waits
  rw [Power.startRelease_eq]
  exact .ite (fun _ => begun) fun free => begun.trans (Power.moveOn_locks _ _ _ _ (Bool.eq_false_iff.mpr free))

theorem Power.cancelRelease_locks (p : Power) (l : Loads) (b : Bay) (r : Release) : p.LockStep (p.cancelRelease l b r) := by
  unfold Power.cancelRelease
  split
  · exact p.setBay_locks b _ fun free => absurd free Bool.false_ne_true
  · exact p.endCancelled_locks _ _ _
  · exact p.endCancelled_locks _ _ _

theorem Power.reactToDemand_locks (p : Power) (l : Loads) (b : Bay) : p.LockStep (p.reactToDemand l b) := by
  unfold Power.reactToDemand
  split
  · exact .ite (fun _ => (p.enterSeated_locks b).trans (Power.makeRecord_aside _ _).locks) fun _ => .refl p
  · split
    · exact .ite (fun _ => .refl p) fun free => p.moveOn_locks _ _ _ (Bool.eq_false_iff.mpr free)
    · exact .ite (fun _ => p.enterHeld_locks _ _ _) fun _ => .refl p
    · exact .refl p
  · exact .refl p

theorem Power.takeFormer_locked (p : Power) (b : Bay) (r : Release) : unlocked ((p.takeFormer b r).bay b).state = false := by
  unfold Power.takeFormer
  split
  · rw [(p.enterSeated_frame b).1]; rfl
  all_goals rw [(p.setState_frame b _).1]; rfl

/-- What goes on from a locked bay leaves it unlocked under no demand. -/
theorem Power.LockStep.free_of_locked {p q : Power} (h : p.LockStep q) {b : Bay} (locked : unlocked (p.bay b).state = false)
    (after : unlocked (q.bay b).state = true) : q.hld.demand b = false :=
  (h.locks b after).resolve_left fun before => by rw [locked] at before; cases before

theorem Power.enterHeld_locked (p : Power) (l : Loads) (b : Bay) (r : Release) (h : unlocked ((p.enterHeld l b r).bay b).state = true) :
    (p.enterHeld l b r).hld.demand b = false := by
  unfold Power.enterHeld at *
  dsimp only at *
  split at h
  case isTrue past =>
    rw [if_pos past]
    have ended (h : Release) : (p.takeFormer b h).LockStep (p.endRefused l b h .holdTimeout false) :=
      (Power.refuse_locks _ _ _ _ _).trans (Power.enteredStandby_locks _ _ _)
    exact (ended _).free_of_locked (p.takeFormer_locked b _) h
  case isFalse => rw [(p.setState_frame b _).1] at h; cases h

/-- After its reaction a bay is unlocked under no demand, whatever it was before (R16, R58). -/
theorem Power.reactToDemand_locked (p : Power) (l : Loads) (b : Bay) (h : unlocked ((p.reactToDemand l b).bay b).state = true) :
    (p.reactToDemand l b).hld.demand b = false := by
  have locks := p.reactToDemand_locks l b
  by_contra held
  have demanded := locks.demand b (Bool.eq_true_of_not_eq_false held)
  have unlocked_before := (locks.locks b h).resolve_right held
  unfold Power.reactToDemand at h held
  split at h
  case h_1 =>
    rw [if_pos demanded] at h
    exact absurd h (by cases b <;> exact Bool.false_ne_true)
  case h_2 r waits =>
    split at h
    case h_1 sub => simp [waits, unlocked, BayState.lockDemand, sub] at unlocked_before
    case h_2 t sub =>
      simp only [waits, sub, demanded, if_true] at h held
      exact held (p.enterHeld_locked l b r h)
    case h_3 sub => simp [waits, unlocked, BayState.lockDemand, sub] at unlocked_before
  case h_3 no_opened no_release =>
    cases state : (p.bay b).state with
    | opened t => exact no_opened t state
    | releaseWait r => exact no_release r state
    | empty | seated | standby | feeding | fault => rw [state] at unlocked_before; cases unlocked_before

/-- After a change of the table both bays have reacted. -/
theorem Power.changeTable_holds (p : Power) (l : Loads) (es : List (Option HoldEntry)) : HoldsBeatReleases (p.changeTable l es) := by
  intro b h
  cases b with
  | A =>
    have later := Power.reactToDemand_locks ((p.putTable es).reactToDemand l .A) l .B
    refine (later.locks .A h).elim (fun before => ?_) id
    exact Bool.eq_false_iff.mpr fun held =>
      Bool.eq_false_iff.mp ((p.putTable es).reactToDemand_locked l .A before) (later.demand .A held)
  | B => exact Power.reactToDemand_locked _ l .B h

/-! ## Events, requests and the restart -/

theorem Power.Ruled.holds {p q : Power} (h : p.Ruled q) (held : HoldsBeatReleases p) : HoldsBeatReleases q := by
  induction h with
  | aside h => exact h.locks.holds held
  | table p l es => exact p.changeTable_holds l es
  | reexamine p l => exact (p.reexamine_seeks l).locks.holds held
  | trans _ _ first second => exact second (first held)

/-- The records and link of a bay whose presence opens (R3). -/
def Power.emptyBay (p : Power) (b : Bay) : Power :=
  (p.setBay b { p.bay b with
      state := .empty, identity := none, packState := none, failedPolls := 0, blinkEnd := none, presence := false }).setLink b idleLink

/-- A release that ran in the emptied bay ends NOTHING_TO_RELEASE (Table 1-4). -/
def Power.dropRelease (p : Power) (b : Bay) : BayState → Power
  | .releaseWait r => p.completeRelease b r .nothingToRelease false
  | _ => p

theorem Power.unseat_eq (p : Power) (l : Loads) (b : Bay) :
    p.unseat l b =
      if ((p.emptyBay b).dropRelease b (p.bay b).state).feed.kind = feedOf b then
        ((p.emptyBay b).dropRelease b (p.bay b).state).loss l .presence
      else if (p.bay b).state.isStandby then ((p.emptyBay b).dropRelease b (p.bay b).state).leftStandby l b
      else (p.emptyBay b).dropRelease b (p.bay b).state := by
  unfold Power.unseat Power.dropRelease Power.emptyBay
  cases (p.bay b).state <;> rfl

theorem Power.unseat_locks (p : Power) (l : Loads) (b : Bay) : p.LockStep (p.unseat l b) := by
  have emptied : p.LockStep (p.emptyBay b) :=
    (p.setBay_locks b { p.bay b with state := .empty, identity := none, packState := none, failedPolls := 0, blinkEnd := none, presence := false }
      fun free => absurd free Bool.false_ne_true).trans (Power.setLink_locks _ _ _)
  have dropped : p.LockStep ((p.emptyBay b).dropRelease b (p.bay b).state) := by
    unfold Power.dropRelease
    split
    · exact emptied.trans (Power.completeRelease_locks _ _ _ _ _)
    · exact emptied
  rw [Power.unseat_eq]
  exact .ite (fun _ => dropped.trans (Power.loss_locks _ _ _))
    fun _ => .ite (fun _ => dropped.trans (Power.leftStandby_locks _ _ _)) fun _ => dropped

theorem Power.seat_locks (p : Power) (b : Bay) : p.LockStep (p.seat b) := by
  have closed : p.Aside (p.setBay b { p.bay b with presence := true }) := p.setBay_aside b rfl
  unfold Power.seat
  dsimp only
  split
  · exact closed.locks.trans (Power.enterSeated_locks _ _)
  · exact closed.locks

theorem unlocked_of_unlatching {st : BayState} {r : Release} {t : Nat} (h : st = .releaseWait r) (sub : r.sub = .unlatching t) :
    unlocked st = true := by simp [h, unlocked, BayState.lockDemand, sub]

theorem Power.senseLatch_locks (p : Power) (b : Bay) (v : Bool) : p.LockStep (p.senseLatch b v) := by
  have sensed : p.Aside (p.setBay b { p.bay b with latchOpen := v }) := p.setBay_aside b rfl
  unfold Power.senseLatch
  dsimp only
  split
  case h_1 r waits =>
    split
    case h_1 t sub =>
      refine .ite (fun _ => sensed.locks.trans (Power.confirmOpen_locks _ _ _ (.inl ?_))) fun _ => sensed.locks
      rw [sensed.states]
      exact unlocked_of_unlatching waits sub
    case h_2 => exact sensed.locks
  case h_2 => exact sensed.locks

theorem Power.pressButton_locks (p : Power) (l : Loads) (b : Bay) : p.LockStep (p.pressButton l b) := by
  unfold Power.pressButton
  split
  · exact p.cancelRelease_locks _ _ _
  · split
    · exact p.startRelease_locks _ _ _ _
    · exact .refl p

theorem Power.identDeadline_locks (p : Power) (l : Loads) (b : Bay) : p.LockStep (p.identDeadline l b) := by
  unfold Power.identDeadline
  split
  · exact .ite (fun _ => p.toFault_locks _ _ _) fun _ => .refl p
  · exact .refl p

theorem Power.waitLimit_locks (p : Power) (l : Loads) (b : Bay) : p.LockStep (p.waitLimit l b) := by
  unfold Power.waitLimit
  split
  · exact .ite (fun _ => p.endRefused_locks _ _ _ _ _) fun _ => .refl p
  · exact .refl p

theorem Power.unlatchExpires_locks (p : Power) (b : Bay) : p.LockStep (p.unlatchExpires b) := by
  unfold Power.unlatchExpires
  split
  case h_1 r waits =>
    split
    case h_1 t sub =>
      exact .ite (fun _ => .ite (fun _ => p.confirmOpen_locks _ _ (.inl (unlocked_of_unlatching waits sub)))
        fun _ => p.endStuck_locks _ _) fun _ => .refl p
    case h_2 => exact .refl p
  case h_2 => exact .refl p

theorem Power.openExpires_locks (p : Power) (b : Bay) : p.LockStep (p.openExpires b) := by
  unfold Power.openExpires
  split
  · exact .ite (fun _ => p.enterSeated_locks b) fun _ => .refl p
  · exact .refl p

theorem Power.setDc_locks (p : Power) (v : Bool) : p.LockStep (p.setDc v) := .of_same (fun b => by cases b <;> rfl) rfl

theorem Power.arriveDc_locks (p : Power) : p.LockStep p.arriveDc :=
  .ite (fun _ => p.setDc_locks true) fun _ => (p.setDc_locks true).trans (Power.moveFeed_locks _ _ _ _)

theorem Power.departDc_locks (p : Power) (l : Loads) : p.LockStep (p.departDc l) := by
  unfold Power.departDc
  dsimp only
  split
  · exact .ite (fun _ => (p.setDc_locks false).trans (Power.failSwitchover_locks _ _)) fun _ => p.setDc_locks false
  · exact p.setDc_locks false

theorem Power.recordExhaustion_aside (p : Power) (h : Holdover) : p.Aside (p.recordExhaustion h) :=
  .ite (.of_front rfl rfl) (p.makeRecord_aside _)

theorem Power.exhaust_locks (p : Power) (h : Holdover) : p.LockStep (p.exhaust h) := by
  have declared : p.LockStep { p with feed := { p.feed with holdover := some { h with exhausted := true } } } :=
    .of_same (fun b => by cases b <;> rfl) rfl
  unfold Power.exhaust
  dsimp only
  refine .trans ((declared.trans (Power.placeEnergy_locks _)).trans ?_) (Power.recordExhaustion_aside _ h).locks
  exact .of_same (fun b => by cases b <;> rfl) rfl

theorem Power.goodSample_locks (p : Power) (l : Loads) (r : PowerReading) : p.LockStep (p.goodSample l r) := by
  have judged (q : Power) : q.LockStep q.judgeExhaustion := by
    unfold Power.judgeExhaustion
    split
    · exact .refl q
    · exact .ite (fun _ => q.exhaust_locks _) fun _ => .refl q
  have confirmed (q : Power) : q.LockStep (q.judgeSwitchover l r) := by
    unfold Power.judgeSwitchover
    split
    · exact .refl q
    · exact .ite (fun _ => q.confirmSwitchover_locks l) fun _ => .refl q
  exact ((p.recompute_aside r).locks.trans (judged _)).trans (confirmed _)

theorem Power.Acts.holds {p q : Power} {l : Loads} (h : p.Acts l q) (held : HoldsBeatReleases p) : HoldsBeatReleases q := by
  cases h with
  | ruled h => exact h.holds held
  | seat b => exact (p.seat_locks b).holds held
  | unseat b _ => exact (p.unseat_locks l b).holds held
  | senseLatch b v => exact (p.senseLatch_locks b v).holds held
  | pressButton b => exact (p.pressButton_locks l b).holds held
  | linkReply b d => exact (p.linkReply_locks l b d).holds held
  | linkTimeout b => exact (p.linkTimeout_locks l b).holds held
  | identDeadline b => exact (p.identDeadline_locks l b).holds held
  | waitLimit b => exact (p.waitLimit_locks l b).holds held
  | unlatchExpires b => exact (p.unlatchExpires_locks b).holds held
  | openExpires b => exact (p.openExpires_locks b).holds held
  | arriveDc => exact p.arriveDc_locks.holds held
  | loseDc _ => exact ((p.setDc_locks false).trans (Power.loss_locks _ _ _)).holds held
  | departDc _ => exact (p.departDc_locks l).holds held
  | collapse b _ => exact (p.loss_locks l _).holds held
  | failSwitchover => exact (p.failSwitchover_locks l).holds held
  | goodSample r => exact (p.goodSample_locks l r).holds held

/-! ### The take of a request -/

theorem Blocks.finish_locks (s : Blocks) (slot : Fin 32) (c : Completion) : s.toPower.LockStep (s.finish slot c).toPower :=
  .of_same (fun b => by cases b <;> rfl) rfl

theorem Blocks.supersede_locks (s : Blocks) : s.toPower.LockStep s.supersede.toPower := by
  unfold Blocks.supersede
  split
  · exact .refl _
  · exact s.finish_locks _ _

theorem Power.abortRelease_locks (p : Power) (l : Loads) (b : Bay) : p.LockStep (p.abortRelease l b) := by
  unfold Power.abortRelease
  split
  · split
    · exact p.cancelRelease_locks _ _ _
    · exact .refl p
  · exact .refl p

theorem Power.Does.holds {p q : Power} {l : Loads} (h : p.Does l q) (held : HoldsBeatReleases p) : HoldsBeatReleases q := by
  cases h with
  | ruled h => exact h.holds held
  | cancel b r waits => exact (p.cancelRelease_locks l b r).holds held

theorem Blocks.Performs.holds {slot : Fin 32} {s t : Blocks} (h : s.Performs slot t) (held : HoldsBeatReleases s.toPower) :
    HoldsBeatReleases t.toPower := by
  cases h with
  | finished c does curve => exact (Blocks.finish_locks _ slot c).holds (does.holds held)
  | release b f starts => exact (Power.startRelease_locks _ _ b f _).holds held
  | curve points clamped => exact s.supersede_locks.holds held

theorem Power.setFront_locks (p : Power) (f : Front) : p.LockStep { p with toFront := f } := .of_same (fun b => by cases b <;> rfl) rfl

/-- The restart as the bays, FHU and HLD see it (R170, steps 1 to 4). -/
theorem Blocks.restartJobs_power (s : Blocks) :
    s.restartJobs.toPower =
      ((({ s.toPower with toFront := s.toFront.abortAll } : Power).abortRelease s.loads .A).abortRelease s.loads .B).removeHolds s.loads
        fun e => decide (e.holder = .software) := by
  unfold Blocks.restartJobs
  dsimp only [Blocks.withPower, Blocks.withLight, Blocks.withFront, Blocks.loads]

theorem Power.restart_holds (p : Power) (l : Loads) (gone : HoldEntry → Bool) (held : HoldsBeatReleases p) :
    HoldsBeatReleases (((p.abortRelease l .A).abortRelease l .B).removeHolds l gone) :=
  (Power.removeHolds_ruled _ l gone).holds (((p.abortRelease_locks l .A).trans (Power.abortRelease_locks _ l .B)).holds held)

theorem Blocks.restartJobs_holds (s : Blocks) (held : HoldsBeatReleases s.toPower) : HoldsBeatReleases s.restartJobs.toPower := by
  rw [s.restartJobs_power]
  refine Power.restart_holds _ _ _ ?_
  exact (s.toPower.setFront_locks _).holds held

/-- Every command keeps the holds over the releases. -/
theorem holdsBeatReleases_kept : Blocks.Kept fun s => HoldsBeatReleases s.toPower where
  moves moves := moves.power.holds
  event acts _ := acts.holds
  take _ performs held := performs.holds ((Power.LockStep.of_same (fun b => by cases b <;> rfl) rfl).holds held)
  point {s} held := by
    unfold Blocks.adoptCurve
    split
    · exact held
    · exact (Blocks.finish_locks _ _ _).holds held
  restart {s} held := s.restartJobs_holds held

/-! ## The statement -/

theorem powerOnBlocks_holdsBeatReleases (a b : Bool) : HoldsBeatReleases (powerOnBlocks a b).toPower := fun _ _ => rfl

/-- Settles O55: no operation unlocks a bay under a demand, and the reactions of both bays follow every change of the table. -/
theorem everyStepKeepsHoldsOverReleases : Obligations.EveryStepKeepsHoldsOverReleases := fun _ _ held hs =>
  step_keeps (I := fun x => HoldsBeatReleases x.toPower) exec_acts (fun _ h => h) (fun a b _ => powerOnBlocks_holdsBeatReleases a b)
    (fun _ _ acts => holdsBeatReleases_kept.acts acts) held hs

end Sys2Proof.Machine
end

section
/-! PROOF. One feed and the slots it answers for (R2, R27, R35, R36, R44, R159): the invariant cut into its parts, and what a move of the feed does to them. -/

namespace Sys2Proof.Machine

open Sys2Proof.Safety

/-! ## The parts of the invariant -/

/-- A bay's state and link agree with the feed kind (R2, R7, R18). -/
structure BayAgrees (k : FeedKind) (b : Bay) (st : BayState) (a : LinkActivity) : Prop where
  feeds    : k = feedOf b ↔ feeds st = true
  unlatch  : unlatchedFeeds st = false
  identify : identifies a = true → isSeated st = true

/-- One source feeds, the bays agree with it, a switchover runs from a bay; its target and a waiting DC input are said apart. -/
structure Power.Steady (p : Power) : Prop where
  bays     : ∀ b, BayAgrees p.feed.kind b (p.bay b).state (p.link b).activity
  fromBay  : p.feed.switchover.isSome = true → p.feed.kind.bay.isSome = true
  holdover : p.feed.holdover.isSome = true → p.feed.kind = .reservoir
  lean     : p.feed.lean = p.feed.holdover.isSome
  dcFeed   : p.feed.kind = .dc → p.feed.dcPresent = true

/-- Besides, the target of a switchover in flight stands. -/
structure Power.Sound (p : Power) : Prop extends p.Steady where
  target : ∀ w, p.feed.switchover = some w → p.stands w.target

/-- A present DC input feeds, or waits for the switchover in flight (R31). -/
def Power.DcWaits (p : Power) : Prop := p.feed.dcPresent = true → p.feed.kind = .dc ∨ p.feed.switchover.isSome = true

theorem oneFeed_iff (p : Power) : OneFeed p ↔ p.Sound ∧ p.DcWaits := by
  constructor
  · rintro ⟨agrees, unlatch, identify, fromBay, target, holdover, lean, dcFeed, dcWaits⟩
    refine ⟨⟨⟨fun b => ⟨agrees b, unlatch b, identify b⟩, fromBay, holdover, lean, dcFeed⟩, fun w sw => ?_⟩, dcWaits⟩
    have stands := target w sw
    cases towards : w.target <;> rw [towards] at stands <;> exact stands
  · rintro ⟨⟨⟨bays, fromBay, holdover, lean, dcFeed⟩, target⟩, dcWaits⟩
    refine ⟨fun b => (bays b).feeds, fun b => (bays b).unlatch, fun b => (bays b).identify, fromBay, fun w sw => ?_, holdover, lean, dcFeed,
      dcWaits⟩
    have stands := target w sw
    cases towards : w.target <;> rw [towards] at stands <;> exact stands

/-! ## The slots that releases owe -/

/-- From `p` to `q` no bay owes a slot it did not owe before, and the slots in flight lose those that a bay no longer owes, and no others. -/
structure Power.SlotStep (p q : Power) : Prop where
  owes   : ∀ b slot, releaseOwes (q.bay b).state slot → releaseOwes (p.bay b).state slot
  flying : ∀ slot, q.flying slot = true ↔
    p.flying slot = true ∧ ∀ b, releaseOwes (p.bay b).state slot → releaseOwes (q.bay b).state slot

namespace Power.SlotStep

theorem of_same {p q : Power} (owes : ∀ b slot, releaseOwes (q.bay b).state slot ↔ releaseOwes (p.bay b).state slot)
    (inFlight : q.inFlight = p.inFlight) : p.SlotStep q := by
  refine ⟨fun b slot => (owes b slot).mp, fun slot => ?_⟩
  have flying : q.flying slot = p.flying slot := by unfold Front.flying Front.entryOf; rw [inFlight]
  rw [flying]
  exact ⟨fun h => ⟨h, fun b => (owes b slot).mpr⟩, fun h => h.1⟩

theorem refl (p : Power) : p.SlotStep p := .of_same (fun _ _ => .rfl) rfl

theorem trans {p q r : Power} (a : p.SlotStep q) (b : q.SlotStep r) : p.SlotStep r := by
  refine ⟨fun c slot h => a.owes c slot (b.owes c slot h), fun slot => ?_⟩
  rw [b.flying, a.flying]
  constructor
  · rintro ⟨⟨flew, first⟩, second⟩
    exact ⟨flew, fun c h => second c (first c h)⟩
  · rintro ⟨flew, kept⟩
    exact ⟨⟨flew, fun c h => b.owes c slot (kept c h)⟩, fun c h => kept c (a.owes c slot h)⟩

end Power.SlotStep

/-! ## What a change brings -/

/-- `q` is sound, a present DC input still feeds or waits, and the slots follow the releases. -/
structure Power.Passes (p q : Power) : Prop where
  sound : q.Sound
  dc    : p.DcWaits → q.DcWaits
  slots : p.SlotStep q

namespace Power.Passes

theorem refl {p : Power} (h : p.Sound) : p.Passes p := ⟨h, id, .refl p⟩

theorem trans {p q r : Power} (a : p.Passes q) (b : q.Passes r) : p.Passes r := ⟨b.sound, b.dc ∘ a.dc, a.slots.trans b.slots⟩

theorem ite {p q r : Power} {c : Prop} [Decidable c] (a : c → p.Passes q) (b : ¬ c → p.Passes r) : p.Passes (if c then q else r) := by
  split
  case isTrue h => exact a h
  case isFalse h => exact b h

end Power.Passes

/-! ### Changes that leave the states, the links and the feed kind -/

/-- Between `p` and `q` no bay's state, no link that starts to identify, no feed kind, switchover or slot in flight is changed. -/
structure Power.Level (p q : Power) : Prop where
  states     : ∀ b, (q.bay b).state = (p.bay b).state
  identifies : ∀ b, identifies (q.link b).activity = true → identifies (p.link b).activity = true
  kind       : q.feed.kind = p.feed.kind
  dcPresent  : q.feed.dcPresent = p.feed.dcPresent
  switchover : q.feed.switchover = p.feed.switchover
  inFlight   : q.inFlight = p.inFlight

namespace Power.Level

theorem refl (p : Power) : p.Level p := ⟨fun _ => rfl, fun _ => id, rfl, rfl, rfl, rfl⟩

theorem trans {p q r : Power} (a : p.Level q) (b : q.Level r) : p.Level r :=
  ⟨fun c => (b.states c).trans (a.states c), fun c h => a.identifies c (b.identifies c h), b.kind.trans a.kind,
    b.dcPresent.trans a.dcPresent, b.switchover.trans a.switchover, b.inFlight.trans a.inFlight⟩

theorem stands {p q : Power} (h : p.Level q) (k : FeedKind) : q.stands k ↔ p.stands k := by
  cases k with
  | dc => simp only [Power.stands, h.dcPresent]
  | bayA => exact Eq.congr_left (h.states .A)
  | bayB => exact Eq.congr_left (h.states .B)
  | reservoir => exact .rfl

theorem agrees {p q : Power} (h : p.Level q) {k : FeedKind} {b : Bay} (was : BayAgrees k b (p.bay b).state (p.link b).activity) :
    BayAgrees k b (q.bay b).state (q.link b).activity := by
  rw [h.states]
  exact ⟨was.feeds, was.unlatch, fun reads => was.identify (h.identifies b reads)⟩

theorem slots {p q : Power} (h : p.Level q) : p.SlotStep q := .of_same (fun b slot => by rw [h.states]) h.inFlight

theorem dc {p q : Power} (h : p.Level q) (waits : p.DcWaits) : q.DcWaits := by
  unfold Power.DcWaits at *
  rw [h.dcPresent, h.kind, h.switchover]
  exact waits

/-- With the holdover as it should be, soundness stays. -/
theorem passes {p q : Power} (h : p.Level q) (holdover : q.feed.holdover.isSome = p.feed.holdover.isSome)
    (lean : q.feed.lean = p.feed.lean) (sound : p.Sound) : p.Passes q := by
  refine ⟨⟨⟨fun b => ?_, ?_, ?_, ?_, ?_⟩, fun w sw => ?_⟩, h.dc, h.slots⟩
  · rw [h.kind]; exact h.agrees (sound.bays b)
  · rw [h.switchover, h.kind]; exact sound.fromBay
  · rw [holdover, h.kind]; exact sound.holdover
  · rw [lean, holdover]; exact sound.lean
  · rw [h.kind, h.dcPresent]; exact sound.dcFeed
  · exact (h.stands _).mpr (sound.target w (h.switchover ▸ sw))

end Power.Level

theorem Power.Aside.level {p q : Power} (h : p.Aside q) : p.Level q :=
  ⟨h.states, h.identifies, h.kind, h.dcPresent, h.switchover, h.inFlight⟩

theorem Power.Aside.passes {p q : Power} (h : p.Aside q) (sound : p.Sound) : p.Passes q := h.level.passes h.holdover h.lean sound

/-- A search keeps the invariant: it starts a switchover only from a bay and to a source that stands. -/
theorem Power.Seeks.passes {p q : Power} (h : p.Seeks q) (sound : p.Sound) : p.Passes q := by
  have holdover : q.feed.holdover = p.feed.holdover := by rw [h.feed]
  have link : ∀ b, q.link b = p.link b := fun b => by rw [h.rest]; cases b <;> rfl
  refine ⟨⟨⟨fun b => ?_, fun flight => ?_, ?_, ?_, ?_⟩, fun w sw => ?_⟩, fun waits present => ?_, .of_same (fun b slot => ?_) ?_⟩
  · rw [h.kind, h.bay, link]; exact sound.bays b
  · rw [h.kind]
    rcases h.started with same | ⟨w, -, fed, -⟩
    · exact sound.fromBay (same ▸ flight)
    · exact fed
  · rw [holdover, h.kind]; exact sound.holdover
  · rw [holdover, show q.feed.lean = p.feed.lean by rw [h.feed]]; exact sound.lean
  · rw [h.kind, h.dcPresent]; exact sound.dcFeed
  · rw [h.stands]
    rcases h.started with same | ⟨v, started, -, stands⟩
    · exact sound.target w (same ▸ sw)
    · rw [started] at sw; cases sw; exact stands
  · rw [h.kind]
    rcases h.started with same | ⟨v, started, -, -⟩
    · rw [same]; exact waits (h.dcPresent ▸ present)
    · rw [started]; exact .inr rfl
  · rw [h.bay]
  · rw [h.rest]

/-! ### Changes of one bay -/

/-- Between `p` and `q` the state and the link of bay `b` alone may change. -/
structure Power.Rebay (b : Bay) (p q : Power) : Prop where
  feed     : q.feed = p.feed
  state    : (q.bay (otherBay b)).state = (p.bay (otherBay b)).state
  link     : (q.link (otherBay b)).activity = (p.link (otherBay b)).activity
  inFlight : q.inFlight = p.inFlight

namespace Power.Rebay

theorem trans {b : Bay} {p q r : Power} (x : Rebay b p q) (y : Rebay b q r) : Rebay b p r :=
  ⟨y.feed.trans x.feed, y.state.trans x.state, y.link.trans x.link, y.inFlight.trans x.inFlight⟩

theorem setBay (b : Bay) (p : Power) (r : BayRec) : Rebay b p (p.setBay b r) := ⟨by simp, by simp, by simp, by simp⟩

theorem setLink (b : Bay) (p : Power) (n : Link) : Rebay b p (p.setLink b n) := ⟨by simp, by simp, by simp, by simp⟩

theorem setState (b : Bay) (p : Power) (st : BayState) : Rebay b p (p.setState b st) := by
  obtain ⟨-, other, link, front, -, -, feed, -⟩ := p.setState_frame b st
  exact ⟨feed, by rw [other], by rw [link], by rw [front]⟩

theorem enterSeated (b : Bay) (p : Power) : Rebay b p (p.enterSeated b) := by
  obtain ⟨-, -, other, link, front, feed, -⟩ := p.enterSeated_frame b
  exact ⟨feed, by rw [other], by rw [link], by rw [front]⟩

theorem steady {b : Bay} {p q : Power} (h : Rebay b p q) (was : p.Steady)
    (agrees : BayAgrees p.feed.kind b (q.bay b).state (q.link b).activity) : q.Steady := by
  refine ⟨fun c => ?_, h.feed ▸ was.fromBay, h.feed ▸ was.holdover, h.feed ▸ was.lean, h.feed ▸ was.dcFeed⟩
  rw [h.feed]
  rcases eq_or_eq_otherBay b c with rfl | rfl
  · exact agrees
  · rw [h.state, h.link]; exact was.bays _

/-- The sources that stood still stand, the bay itself where it did not leave STANDBY. -/
theorem stands {b : Bay} {p q : Power} (h : Rebay b p q) {k : FeedKind}
    (standby : k = feedOf b → (p.bay b).state = .standby → (q.bay b).state = .standby) (was : p.stands k) : q.stands k := by
  have dc : q.feed.dcPresent = p.feed.dcPresent := by rw [h.feed]
  cases b <;> cases k
  · exact dc.trans was
  · exact standby rfl was
  · exact h.state.trans was
  · exact was
  · exact dc.trans was
  · exact h.state.trans was
  · exact standby rfl was
  · exact was

theorem slots {b : Bay} {p q : Power} (h : Rebay b p q) (owes : ∀ slot, releaseOwes (q.bay b).state slot ↔ releaseOwes (p.bay b).state slot) :
    p.SlotStep q := by
  refine .of_same (fun c slot => ?_) h.inFlight
  rcases eq_or_eq_otherBay b c with rfl | rfl
  · exact owes slot
  · rw [h.state]

theorem dc {b : Bay} {p q : Power} (h : Rebay b p q) (waits : p.DcWaits) : q.DcWaits := by
  unfold Power.DcWaits at *
  rw [h.feed]
  exact waits

theorem sound {b : Bay} {p q : Power} (h : Rebay b p q) (was : p.Sound)
    (agrees : BayAgrees p.feed.kind b (q.bay b).state (q.link b).activity)
    (standby : (p.bay b).state = .standby → (q.bay b).state = .standby) : q.Sound :=
  { h.steady was.toSteady agrees with target := fun w sw => h.stands (fun _ => standby) (was.target w (h.feed ▸ sw)) }

end Power.Rebay

theorem Power.setState_state (p : Power) (b : Bay) (st : BayState) : ((p.setState b st).bay b).state = st := by
  rw [(p.setState_frame b st).1]

/-- A link that identifies after a change of state identified before it, and the new state is SEATED or polled. -/
theorem Power.setState_identifies {p : Power} {b : Bay} {st : BayState} (h : identifies ((p.setState b st).link b).activity = true) :
    identifies (p.link b).activity = true ∧ (isSeated st = true ∨ st.polls = true) := by
  unfold Power.setState at h
  dsimp only at h
  split at h
  · exact ⟨by simpa using h, .inl rfl⟩
  · split at h
    case isTrue polled => exact ⟨by simpa using h, .inr polled⟩
    case isFalse => simp [Safety.identifies] at h

/-- A bay enters a state that feeds as its old one did. -/
theorem Power.setState_agrees {p : Power} {b : Bay} {k : FeedKind} {st : BayState} (was : BayAgrees k b (p.bay b).state (p.link b).activity)
    (feeding : k = feedOf b ↔ feeds st = true) (unlatch : unlatchedFeeds st = false)
    (seated : isSeated (p.bay b).state = true → identifies (p.link b).activity = true → st.polls = false) :
    BayAgrees k b ((p.setState b st).bay b).state ((p.setState b st).link b).activity := by
  rw [p.setState_state]
  refine ⟨feeding, unlatch, fun reads => ?_⟩
  obtain ⟨read, now⟩ := Power.setState_identifies reads
  refine now.resolve_right fun polled => ?_
  rw [seated (was.identify read) read] at polled
  cases polled

theorem Power.enterSeated_agrees {p : Power} {b : Bay} {k : FeedKind} (h : k ≠ feedOf b) :
    BayAgrees k b ((p.enterSeated b).bay b).state ((p.enterSeated b).link b).activity := by
  rw [(p.enterSeated_frame b).1]
  exact ⟨⟨fun same => absurd same h, fun feeds => nomatch feeds⟩, rfl, fun _ => rfl⟩

/-! ### Changes of the hold table -/

theorem Power.putTable_level (p : Power) (es : List (Option HoldEntry)) : p.Level (p.putTable es) := by
  have put (h : HoldTable) (d : PassCauses) : p.Level ({ p with hld := h, due := d } : Power).publishMirror :=
    ⟨fun b => by cases b <;> rfl, fun b => by cases b <;> exact id, rfl, rfl, rfl, rfl⟩
  unfold Power.putTable
  dsimp only
  split
  · exact (put _ _).trans (Power.endWait_aside _ _).level
  · split
    · exact (put _ _).trans (Power.endWait_aside _ _).level
    · exact put _ _

theorem Power.putTable_feed (p : Power) (es : List (Option HoldEntry)) : (p.putTable es).feed = p.feed := by
  obtain ⟨-, -, -, -, -, -, feed, -⟩ := p.putTable_frame es
  exact feed

theorem Power.putTable_passes {p : Power} (es : List (Option HoldEntry)) (h : p.Sound) : p.Passes (p.putTable es) :=
  (p.putTable_level es).passes (by rw [p.putTable_feed]) (by rw [p.putTable_feed]) h

theorem Power.liftEnergy_level (p : Power) : p.Level p.liftEnergy ∧ p.liftEnergy.feed = p.feed := by
  unfold Power.liftEnergy
  dsimp only
  split
  · exact ⟨.refl p, rfl⟩
  · exact ⟨p.putTable_level _, p.putTable_feed _⟩

/-- A source ends a holdover: its fields are cleared, the lean flag with them. -/
theorem Power.endHoldover_level (p : Power) (c : HoldoverEndCause) (lean : p.feed.lean = p.feed.holdover.isSome) :
    p.Level (p.endHoldover c) ∧ (p.endHoldover c).feed.holdover = none ∧ (p.endHoldover c).feed.lean = false := by
  have cleared (q : Power) : q.Level q.clearHoldover :=
    ⟨fun b => by cases b <;> rfl, fun b => by cases b <;> exact id, rfl, rfl, rfl, rfl⟩
  unfold Power.endHoldover
  split
  case h_1 none_runs => exact ⟨.refl p, none_runs, by rw [lean, none_runs]; rfl⟩
  case h_2 h runs =>
    split
    · obtain ⟨lifted, feed⟩ := p.writeDeferredEnd.clearHoldover.liftEnergy_level
      exact ⟨(p.writeDeferredEnd_aside.level.trans (cleared _)).trans lifted, by rw [feed]; rfl, by rw [feed]; rfl⟩
    · exact ⟨(cleared p).trans (Power.makeRecord_aside _ _).level, rfl, rfl⟩

/-! ### A move of the feed -/

theorem bay_eq_some {k : FeedKind} {b : Bay} : k.bay = some b ↔ k = feedOf b := by cases k <;> cases b <;> simp [FeedKind.bay, feedOf]

/-- The feed can move to `t` (R27): no bay but the feed bay feeds, and the bay that is to feed owes no slot and is not being identified. -/
structure Power.Movable (p : Power) (t : FeedKind) : Prop where
  others   : ∀ b, p.feed.kind ≠ feedOf b → BayAgrees .reservoir b (p.bay b).state (p.link b).activity
  identify : ∀ b, identifies (p.link b).activity = true → isSeated (p.bay b).state = true
  holdover : p.feed.holdover.isSome = true → p.feed.kind = .reservoir
  lean     : p.feed.lean = p.feed.holdover.isSome
  differs  : p.feed.kind ≠ t
  dc       : t = .dc → p.feed.dcPresent = true
  ready    : ∀ b, t = feedOf b → (∀ slot, ¬ releaseOwes (p.bay b).state slot) ∧ identifies (p.link b).activity = false

/-- A bay that is not the feed agrees with any feed kind that is not it. -/
theorem BayAgrees.of_ne {k j : FeedKind} {b : Bay} {st : BayState} {a : LinkActivity} (h : BayAgrees k b st a) (hk : k ≠ feedOf b)
    (hj : j ≠ feedOf b) : BayAgrees j b st a :=
  ⟨⟨fun same => absurd same hj, fun feeds => absurd (h.feeds.mpr feeds) hk⟩, h.unlatch, h.identify⟩

theorem reservoir_ne_feedOf (b : Bay) : FeedKind.reservoir ≠ feedOf b := by cases b <;> decide

theorem dc_ne_feedOf (b : Bay) : FeedKind.dc ≠ feedOf b := by cases b <;> decide

theorem BayAgrees.not_identifies {k : FeedKind} {b : Bay} {st : BayState} {a : LinkActivity} (h : BayAgrees k b st a) (seated : isSeated st = false) :
    identifies a = false :=
  Bool.eq_false_iff.mpr fun reads => by rw [h.identify reads] at seated; cases seated

/-- A sound part's feed can move to any other source that stands. -/
theorem Power.Sound.movable {p : Power} (h : p.Sound) {t : FeedKind} (stands : p.stands t) (differs : p.feed.kind ≠ t) : p.Movable t := by
  refine ⟨fun b ne => (h.bays b).of_ne ne (reservoir_ne_feedOf b), fun b => (h.bays b).identify, h.holdover, h.lean, differs,
    fun dc => by subst dc; exact stands, fun b toward => ?_⟩
  subst toward
  have standby := (p.stands_feedOf b).mp stands
  exact ⟨fun slot owes => by rw [standby] at owes; exact owes, (h.bays b).not_identifies (by rw [standby]; rfl)⟩

theorem stateAfterFeed_feeding (c : MoveCause) (t : FeedKind) (f : FaultSet) :
    stateAfterFeed c t (.feeding f) = .standby ∨ ∃ r, stateAfterFeed c t (.feeding f) = .fault r := by
  cases left : leaveReason c f with
  | none => exact .inl (by simp only [stateAfterFeed, left])
  | some r => exact .inr ⟨r, by simp only [stateAfterFeed, left]⟩

theorem feeds_stateAfterFeed (c : MoveCause) (t : FeedKind) (st : BayState) : feeds (stateAfterFeed c t st) = false := by
  cases st with
  | feeding f => rcases stateAfterFeed_feeding c t f with left | ⟨r, left⟩ <;> rw [left] <;> rfl
  | releaseWait r => cases left : leaveReason c r.standing <;> simp [stateAfterFeed, left, feeds]
  | empty | seated | standby | opened | fault => rfl

theorem unlatchedFeeds_of_not_feeds {st : BayState} (h : feeds st = false) : unlatchedFeeds st = false := by
  cases st with
  | releaseWait r =>
    unfold unlatchedFeeds
    dsimp only
    split
    · exact h
    · rfl
  | empty | seated | standby | feeding | opened | fault => rfl

theorem isSeated_stateAfterFeed (c : MoveCause) (t : FeedKind) (st : BayState) : isSeated (stateAfterFeed c t st) = isSeated st := by
  cases st with
  | feeding f => rcases stateAfterFeed_feeding c t f with left | ⟨r, left⟩ <;> rw [left] <;> rfl
  | empty | seated | standby | releaseWait | opened | fault => rfl

theorem releaseOwes_stateAfterFeed (c : MoveCause) (t : FeedKind) (st : BayState) (slot : Fin 32) :
    releaseOwes (stateAfterFeed c t st) slot ↔ releaseOwes st slot := by
  cases st with
  | feeding f => rcases stateAfterFeed_feeding c t f with left | ⟨r, left⟩ <;> rw [left] <;> exact .rfl
  | empty | seated | standby | releaseWait | opened | fault => exact .rfl

/-- Once the feed has left, no bay feeds. -/
theorem Power.leaveFeed_agrees {p : Power} {t : FeedKind} (h : p.Movable t) (c : MoveCause) (b : Bay) :
    BayAgrees .reservoir b ((p.leaveFeed c t).bay b).state ((p.leaveFeed c t).link b).activity := by
  unfold Power.leaveFeed
  split
  case h_1 from_none => exact h.others b fun same => by rw [bay_eq_some.mpr same] at from_none; cases from_none
  case h_2 x from_bay =>
    have left := Rebay.setState x p (stateAfterFeed c t (p.bay x).state)
    rcases eq_or_eq_otherBay x b with rfl | rfl
    · rw [p.setState_state]
      refine ⟨⟨fun same => absurd same (reservoir_ne_feedOf _), fun feeding => ?_⟩, unlatchedFeeds_of_not_feeds (feeds_stateAfterFeed _ _ _),
        fun reads => ?_⟩
      · rw [feeds_stateAfterFeed] at feeding; cases feeding
      · rw [isSeated_stateAfterFeed]; exact h.identify _ (Power.setState_identifies reads).1
    · rw [left.state, left.link]
      refine h.others _ fun same => ?_
      rw [bay_eq_some.mpr same] at from_bay
      cases x <;> cases from_bay

theorem Power.leaveFeed_frame (p : Power) (c : MoveCause) (t : FeedKind) :
    (p.leaveFeed c t).feed = p.feed ∧ p.SlotStep (p.leaveFeed c t)
    ∧ ∀ b, p.feed.kind ≠ feedOf b →
      ((p.leaveFeed c t).bay b).state = (p.bay b).state ∧ ((p.leaveFeed c t).link b).activity = (p.link b).activity := by
  unfold Power.leaveFeed
  split
  · exact ⟨rfl, .refl p, fun _ _ => ⟨rfl, rfl⟩⟩
  case h_2 x from_bay =>
    have left := Rebay.setState x p (stateAfterFeed c t (p.bay x).state)
    refine ⟨left.feed, left.slots fun slot => ?_, fun b ne => ?_⟩
    · rw [p.setState_state]; exact releaseOwes_stateAfterFeed c t _ slot
    · rcases eq_or_eq_otherBay x b with rfl | rfl
      · exact absurd (bay_eq_some.mp from_bay) ne
      · exact ⟨left.state, left.link⟩

/-- The old bay, the kind and the new bay of a move. -/
def Power.fedBy (p : Power) (t : FeedKind) (c : MoveCause) : Power := ((p.leaveFeed c t).putFeed t).joinFeed t

theorem Power.moveFeed_eq (p : Power) (t : FeedKind) (c : MoveCause) (v : Bool) :
    p.moveFeed t c v =
      if t = .reservoir then (if p.feed.kind = .reservoir then p.fedBy t c else (p.fedBy t c).beginHoldover v)
      else if p.feed.kind = .reservoir then (p.fedBy t c).endHoldover (if t = .dc then .dc else .pack)
      else p.fedBy t c := rfl

/-- The bays agree with the new feed, and the slots follow the releases. -/
theorem Power.fedBy_bays {p : Power} {t : FeedKind} (h : p.Movable t) (c : MoveCause) :
    (∀ b, BayAgrees t b ((p.fedBy t c).bay b).state ((p.fedBy t c).link b).activity) ∧ p.SlotStep (p.fedBy t c) := by
  obtain ⟨-, slots, stays⟩ := p.leaveFeed_frame c t
  have left := fun b => Power.leaveFeed_agrees h c b
  have putSlots : p.SlotStep ((p.leaveFeed c t).putFeed t) :=
    slots.trans (.of_same (fun b slot => by cases b <;> exact .rfl) rfl)
  unfold Power.fedBy Power.joinFeed
  split
  case h_1 to_none =>
    refine ⟨fun b => ?_, putSlots⟩
    have ne : t ≠ feedOf b := fun same => by rw [bay_eq_some.mpr same] at to_none; cases to_none
    cases b <;> exact (left _).of_ne (reservoir_ne_feedOf _) ne
  case h_2 x to_bay =>
    have toward := bay_eq_some.mp to_bay
    obtain ⟨free, quiet⟩ := h.ready x toward
    obtain ⟨state, link⟩ := stays x (toward ▸ h.differs)
    have joined := Rebay.setState x ((p.leaveFeed c t).putFeed t) (.feeding noFaults)
    have same_state : (((p.leaveFeed c t).putFeed t).bay x).state = (p.bay x).state := by cases x <;> exact state
    have same_link : (((p.leaveFeed c t).putFeed t).link x).activity = (p.link x).activity := by cases x <;> exact link
    refine ⟨fun b => ?_, putSlots.trans (joined.slots fun slot => ?_)⟩
    · rcases eq_or_eq_otherBay x b with rfl | rfl
      · rw [Power.setState_state]
        refine ⟨⟨fun _ => rfl, fun _ => toward⟩, rfl, fun reads => ?_⟩
        have read := (Power.setState_identifies reads).1
        rw [same_link, quiet] at read
        cases read
      · rw [joined.state, joined.link]
        have ne : t ≠ feedOf (otherBay x) := by rw [toward]; cases x <;> decide
        cases x <;> exact (left _).of_ne (reservoir_ne_feedOf _) ne
    · rw [Power.setState_state, same_state]
      exact ⟨fun owes => (nomatch owes), fun owes => absurd owes (free slot)⟩

theorem Power.fedBy_feed (p : Power) (t : FeedKind) (c : MoveCause) :
    (p.fedBy t c).feed = { p.feed with
      kind := t, switchover := none, pending := ⟨false, false⟩, causes := { p.feed.causes with faulted := false, lowCharge := false } } := by
  have joined (q : Power) : (q.joinFeed t).feed = q.feed := by
    unfold Power.joinFeed
    split
    · rfl
    · exact q.setState_feed _ _
  obtain ⟨left, -, -⟩ := p.leaveFeed_frame c t
  unfold Power.fedBy
  rw [joined]
  unfold Power.putFeed
  rw [left]

/-- A move of the feed is made whole: the bays, the kind and the holdover go together (R27, R44, R45, R47). -/
theorem Power.moveFeed_sound {p : Power} {t : FeedKind} (h : p.Movable t) (c : MoveCause) (v : Bool) :
    (p.moveFeed t c v).Sound ∧ p.SlotStep (p.moveFeed t c v) := by
  obtain ⟨bays, slots⟩ := Power.fedBy_bays h c
  have feed := p.fedBy_feed t c
  have sound {q : Power} (level : (p.fedBy t c).Level q) (holdover : q.feed.holdover.isSome = decide (t = .reservoir))
      (lean : q.feed.lean = decide (t = .reservoir)) : q.Sound ∧ p.SlotStep q := by
    have kind : q.feed.kind = t := by rw [level.kind, feed]
    have switchover : q.feed.switchover = none := by rw [level.switchover, feed]
    refine ⟨⟨⟨fun b => ?_, fun flight => ?_, fun runs => ?_, lean.trans holdover.symm, fun dc => ?_⟩, fun w sw => ?_⟩, slots.trans level.slots⟩
    · rw [kind]; exact level.agrees (bays b)
    · rw [switchover] at flight; cases flight
    · rw [holdover] at runs; rw [kind]; exact of_decide_eq_true runs
    · rw [level.dcPresent, feed]; exact h.dc (kind ▸ dc)
    · rw [switchover] at sw; cases sw
  have no_holdover (ne : p.feed.kind ≠ .reservoir) : p.feed.holdover.isSome = false :=
    Bool.eq_false_iff.mpr fun runs => ne (h.holdover runs)
  rw [Power.moveFeed_eq]
  split
  case isTrue toward =>
    rw [if_neg fun old => h.differs (old.trans toward.symm)]
    exact sound ⟨fun b => by cases b <;> rfl, fun b => by cases b <;> exact id, rfl, rfl, rfl, rfl⟩ (decide_eq_true toward).symm
      (decide_eq_true toward).symm
  case isFalse other =>
    split
    case isTrue old =>
      obtain ⟨level, holdover, lean⟩ := (p.fedBy t c).endHoldover_level (if t = .dc then .dc else .pack) (by rw [feed]; exact h.lean)
      refine sound level ?_ ?_
      · rw [holdover, decide_eq_false other]; rfl
      · rw [lean, decide_eq_false other]
    case isFalse ne =>
      refine sound (.refl _) ?_ ?_
      · rw [feed, decide_eq_false other]; exact no_holdover ne
      · rw [feed, decide_eq_false other]; exact h.lean.trans (no_holdover ne)

/-- A move of a sound part's feed to another source that stands; DC, where present, must be that source. -/
theorem Power.moveFeed_passes {p : Power} {t : FeedKind} (h : p.Movable t) (c : MoveCause) (v : Bool)
    (dc : p.DcWaits → p.feed.dcPresent = true → t = .dc) : p.Passes (p.moveFeed t c v) := by
  obtain ⟨sound, slots⟩ := Power.moveFeed_sound h c v
  obtain ⟨kind, -, -, -, present, -⟩ := p.moveFeed_feed t c v
  exact ⟨sound, fun waits here => .inl (by rw [kind]; exact dc waits (present ▸ here)), slots⟩

end Sys2Proof.Machine
end

section
/-! PROOF. One feed and the slots it answers for: releases, switchovers and their outcomes (R14 to R21, R30, R33 to R38). -/

namespace Sys2Proof.Machine

open Sys2Proof.Safety

/-! ## Completions -/

theorem Front.flying_iff (f : Front) (slot : Fin 32) : f.flying slot = true ↔ ∃ e ∈ f.inFlight, e.slot = slot := by
  simp [Front.flying, Front.entryOf]

theorem Front.flying_complete (f : Front) (i : Fin 32) (c : Completion) (slot : Fin 32) :
    (f.complete i c).flying slot = true ↔ f.flying slot = true ∧ slot ≠ i := by
  cases taken : f.entryOf i with
  | none =>
    rw [Front.complete_of_not_flying f i c taken]
    refine ⟨fun flies => ⟨flies, fun same => ?_⟩, And.left⟩
    subst same
    rw [Front.flying, taken] at flies
    cases flies
  | some e =>
    rw [Front.complete_of_flying f i c e taken, Front.flying_iff, Front.flying_iff]
    simp only [List.mem_filter, decide_eq_true_eq]
    constructor
    · rintro ⟨x, ⟨mem, ne⟩, rfl⟩
      exact ⟨⟨x, mem, rfl⟩, ne⟩
    · rintro ⟨⟨x, mem, rfl⟩, ne⟩
      exact ⟨x, ⟨mem, ne⟩, rfl⟩

/-- A change of the host's side is none of the bays and the feed. -/
theorem Power.Steady.setFront {p : Power} (h : p.Steady) (f : Front) : ({ p with toFront := f } : Power).Steady :=
  ⟨fun b => by cases b <;> exact h.bays _, h.fromBay, h.holdover, h.lean, h.dcFeed⟩

theorem Power.stands_setFront (p : Power) (f : Front) (k : FeedKind) : ({ p with toFront := f } : Power).stands k ↔ p.stands k := by
  cases k <;> exact .rfl

theorem Power.Sound.setFront {p : Power} (h : p.Sound) (f : Front) : ({ p with toFront := f } : Power).Sound :=
  ⟨h.toSteady.setFront f, fun w sw => (p.stands_setFront f _).mpr (h.target w sw)⟩

theorem Power.completeRelease_front (p : Power) (b : Bay) (r : Release) (c : ResultCode) (v : Bool) :
    ∃ f, p.completeRelease b r c v = { p with toFront := f }
      ∧ ∀ slot, f.flying slot = true ↔ p.flying slot = true ∧ ¬ (r.origin = .software slot ∧ r.slotOpen = true) := by
  unfold Power.completeRelease
  cases origin : r.origin with
  | button => exact ⟨p.toFront, rfl, fun slot => ⟨fun h => ⟨h, fun owes => nomatch owes.1⟩, And.left⟩⟩
  | software s =>
    dsimp only
    split
    case isTrue isOpen =>
      refine ⟨_, rfl, fun slot => ?_⟩
      rw [Front.flying_complete]
      refine and_congr_right fun _ => ⟨fun ne owes => ne (Origin.software.inj owes.1).symm, fun free same => free ⟨by rw [same], isOpen⟩⟩
    case isFalse closed => exact ⟨p.toFront, rfl, fun slot => ⟨fun h => ⟨h, fun owes => closed owes.2⟩, And.left⟩⟩

/-! ## The end of a release -/

/-- Two releases with one former state and one slot to complete. -/
structure Release.Same (r u : Release) : Prop where
  former   : r.former = u.former
  origin   : r.origin = u.origin
  slotOpen : r.slotOpen = u.slotOpen

theorem Release.Same.refl (r : Release) : r.Same r := ⟨rfl, rfl, rfl⟩

/-- From `p` to `q` bay `b` has left its release, its slot still to be completed. -/
structure Power.Quits (b : Bay) (p q : Power) : Prop where
  sound    : q.Sound
  dc       : p.DcWaits → q.DcWaits
  other    : (q.bay (otherBay b)).state = (p.bay (otherBay b)).state
  inFlight : q.inFlight = p.inFlight
  done     : ∀ slot, ¬ releaseOwes (q.bay b).state slot

theorem Power.Quits.aside {b : Bay} {p q r : Power} (h : Quits b p q) (a : q.Aside r) : Quits b p r :=
  ⟨(a.passes h.sound).sound, fun waits => a.level.dc (h.dc waits), (a.states _).trans h.other, a.inFlight.trans h.inFlight,
    fun slot => by rw [a.states]; exact h.done slot⟩

/-- Once the slot of a release that is over has completed, the slots follow the releases. -/
theorem Power.completeRelease_slots {b : Bay} {p q : Power} (other : (q.bay (otherBay b)).state = (p.bay (otherBay b)).state)
    (inFlight : q.inFlight = p.inFlight) (done : ∀ slot, ¬ releaseOwes (q.bay b).state slot) {u r : Release}
    (was : (p.bay b).state = .releaseWait u) (same : r.Same u) (c : ResultCode) (v : Bool) : p.SlotStep (q.completeRelease b r c v) := by
  obtain ⟨f, shape, flying⟩ := q.completeRelease_front b r c v
  have owed (slot : Fin 32) : releaseOwes (p.bay b).state slot ↔ r.origin = .software slot ∧ r.slotOpen = true := by
    rw [was, same.origin, same.slotOpen]; rfl
  have before (slot : Fin 32) : q.flying slot = p.flying slot := by unfold Front.flying Front.entryOf; rw [inFlight]
  have state (c : Bay) : (({ q with toFront := f } : Power).bay c).state = (q.bay c).state := by cases c <;> rfl
  rw [shape]
  refine ⟨fun c slot owes => ?_, fun slot => ?_⟩
  · rw [state] at owes
    rcases eq_or_eq_otherBay b c with rfl | rfl
    · exact absurd owes (done slot)
    · exact other ▸ owes
  · show f.flying slot = true ↔ _
    rw [flying, before]
    refine and_congr_right fun _ => ⟨fun free c owes => ?_, fun kept owes => done slot ?_⟩
    · rcases eq_or_eq_otherBay b c with rfl | rfl
      · exact absurd ((owed slot).mp owes) free
      · rw [state, other]; exact owes
    · exact state b ▸ kept b ((owed slot).mpr owes)

theorem Power.Quits.completes {b : Bay} {p q : Power} (h : Quits b p q) {u r : Release} (was : (p.bay b).state = .releaseWait u)
    (same : r.Same u) (c : ResultCode) (v : Bool) : p.Passes (q.completeRelease b r c v) := by
  have slots := Power.completeRelease_slots h.other h.inFlight h.done was same c v
  obtain ⟨f, shape, -⟩ := q.completeRelease_front b r c v
  rw [shape] at slots ⊢
  exact ⟨h.sound.setFront f, h.dc, slots⟩

/-- A waiting bay, its former state and the feed (R15). -/
theorem Power.Steady.fed_iff {p : Power} (h : p.Steady) {b : Bay} {u : Release} (was : (p.bay b).state = .releaseWait u) :
    p.feed.kind = feedOf b ↔ u.former = .feeding := by
  have feeds := (h.bays b).feeds
  rw [was] at feeds
  simpa [Safety.feeds] using feeds

/-- A bay leaves RELEASE_WAIT for a state that feeds as the release's former state says. -/
theorem Power.Sound.quits {p : Power} (h : p.Sound) {b : Bay} {u : Release} (was : (p.bay b).state = .releaseWait u) {st : BayState}
    (feeding : feeds st = decide (u.former = .feeding)) (none_waits : ∀ r, st ≠ .releaseWait r) : Quits b p (p.setState b st) := by
  have changed := Rebay.setState b p st
  have unlatch : unlatchedFeeds st = false := by cases st with
    | releaseWait r => exact absurd rfl (none_waits r)
    | empty | seated | standby | feeding | fault | opened => rfl
  refine ⟨changed.sound h (Power.setState_agrees (h.bays b) ?_ unlatch fun seated _ => ?_) fun standby => ?_, changed.dc, changed.state,
    changed.inFlight, fun slot owes => ?_⟩
  · rw [h.fed_iff was, feeding, decide_eq_true_iff]
  · rw [was] at seated; cases seated
  · rw [was] at standby; cases standby
  · rw [p.setState_state] at owes
    cases st with
    | releaseWait r => exact none_waits r rfl
    | empty | seated | standby | feeding | fault | opened => exact owes

theorem Power.takeFormer_quits {p : Power} (h : p.Sound) {b : Bay} {u r : Release} (was : (p.bay b).state = .releaseWait u)
    (former : r.former = u.former) : Quits b p (p.takeFormer b r) := by
  unfold Power.takeFormer
  split
  case h_1 seated =>
    have changed := Rebay.enterSeated b p
    have ne : p.feed.kind ≠ feedOf b := fun same => by
      have := (h.fed_iff was).mp same
      rw [← former, seated] at this
      cases this
    refine ⟨changed.sound h (Power.enterSeated_agrees ne) fun standby => ?_, changed.dc, changed.state, changed.inFlight, fun slot owes => ?_⟩
    · rw [was] at standby; cases standby
    · rw [(p.enterSeated_frame b).1] at owes; exact owes
  case h_2 standby => exact h.quits was (by rw [← former, standby]; rfl) fun _ => nofun
  case h_3 feeding => exact h.quits was (by rw [← former, feeding]; rfl) fun _ => nofun
  case h_4 x faulted => exact h.quits was (by rw [← former, faulted]; rfl) fun _ => nofun

/-- What a refusal does before it completes the slot. -/
theorem Power.refuse_shape (p : Power) (b : Bay) (r : Release) (x : RefusalReason) (v : Bool) :
    ∃ q, p.Aside q ∧ p.refuse b r x v = q.completeRelease b r (refusalResult x) v := by
  have tied := p.makeTied_aside (.releaseRefused b x v r.origin) ⟨.releaseRefused, refusalBit x, none⟩
  refine ⟨_, ?_, rfl⟩
  exact .trans (.ite (tied.trans (Power.packFault_aside _ b .latch)) tied) (Power.setBlink_aside _ b _)

theorem Power.Quits.refused {b : Bay} {p q : Power} (h : Quits b p q) {u r : Release} (was : (p.bay b).state = .releaseWait u)
    (same : r.Same u) (x : RefusalReason) (v : Bool) : p.Passes (q.refuse b r x v) := by
  obtain ⟨m, aside, shape⟩ := q.refuse_shape b r x v
  rw [shape]
  exact (h.aside aside).completes was same _ _

/-! ## Choice points -/

theorem Power.choose_stands (p : Power) : p.stands p.choose := by
  unfold Power.choose
  split
  case isTrue present => exact present
  case isFalse =>
    split
    case isTrue a =>
      have standA := BayRec.standby_of_candidate a
      split
      case isTrue b =>
        unfold preferred
        split
        · exact standA
        · exact BayRec.standby_of_candidate b
        · split
          · exact BayRec.standby_of_candidate b
          · exact standA
      case isFalse => exact standA
    case isFalse =>
      split
      case isTrue b => exact BayRec.standby_of_candidate b
      case isFalse => exact trivial

theorem Power.choose_of_dc {p : Power} (h : p.feed.dcPresent = true) : p.choose = .dc := if_pos h

theorem Power.choicePoint_passes {p : Power} (h : p.Sound) : p.Passes p.choicePoint := by
  refine .ite (fun old => .ite (fun _ => .refl h) fun other => ?_) fun _ => .refl h
  exact Power.moveFeed_passes (h.movable p.choose_stands fun same => other (same.symm.trans old)) _ _ fun _ => Power.choose_of_dc

theorem Power.enteredStandby_passes {p : Power} (h : p.Sound) (l : Loads) (b : Bay) : p.Passes (p.enteredStandby l b) :=
  .ite (fun _ => .ite (fun _ => Power.choicePoint_passes h) fun _ => (p.reexamine_seeks l).passes h) fun _ => .refl h

/-! ## Releases -/

section
variable {p : Power} {b : Bay} {u r : Release}

theorem Power.endRefused_passes (h : p.Sound) (was : (p.bay b).state = .releaseWait u) (same : r.Same u) (l : Loads) (x : RefusalReason)
    (v : Bool) : p.Passes (p.endRefused l b r x v) := by
  have refused := (Power.takeFormer_quits h was same.former).refused was same x v
  exact refused.trans (Power.enteredStandby_passes refused.sound l b)

theorem Power.endCancelled_passes (h : p.Sound) (was : (p.bay b).state = .releaseWait u) (same : r.Same u) (l : Loads) :
    p.Passes (p.endCancelled l b r) := by
  have completed := (Power.takeFormer_quits h was same.former).completes was same .cancelled false
  exact completed.trans (Power.enteredStandby_passes completed.sound l b)

theorem Power.endStuck_passes (h : p.Sound) (was : (p.bay b).state = .releaseWait u) (same : r.Same u) (ne : p.feed.kind ≠ feedOf b) :
    p.Passes (p.endStuck b r) :=
  (h.quits (st := .fault .latch) was (decide_eq_false (mt (h.fed_iff was).mpr ne)).symm fun _ => nofun).refused was same _ _

theorem Power.confirmOpen_passes (h : p.Sound) (was : (p.bay b).state = .releaseWait u) (same : r.Same u) (ne : p.feed.kind ≠ feedOf b) :
    p.Passes (p.confirmOpen b r) := by
  have opened := h.quits (st := .opened (p.tmb.uptime + p.bayPolicy.openWindow * 1000)) was
    (decide_eq_false (mt (h.fed_iff was).mpr ne)).symm fun _ => nofun
  unfold Power.confirmOpen
  dsimp only
  split
  · exact opened.completes was same _ _
  · exact (opened.aside (Power.makeTied_aside _ _ _)).completes was same _ _

/-- A release changes its sub-state. -/
theorem Power.setRelease_passes (h : p.Sound) (was : (p.bay b).state = .releaseWait u) (same : r.Same u)
    (unlatch : unlatchedFeeds (.releaseWait r) = false) : p.Passes (p.setState b (.releaseWait r)) := by
  have changed := Rebay.setState b p (.releaseWait r)
  refine ⟨changed.sound h (Power.setState_agrees (h.bays b) ?_ unlatch fun seated _ => ?_) fun standby => ?_, changed.dc,
    changed.slots fun slot => ?_⟩
  · rw [h.fed_iff was, ← same.former]; simp [feeds]
  · rw [was] at seated; cases seated
  · rw [was] at standby; cases standby
  · rw [p.setState_state, was]; simp only [releaseOwes, same.origin, same.slotOpen]

theorem Power.enterUnlatching_passes (h : p.Sound) (was : (p.bay b).state = .releaseWait u) (same : r.Same u)
    (ne : p.feed.kind ≠ feedOf b) : p.Passes (p.enterUnlatching b r) := by
  have unlatching := Power.setRelease_passes (r := { r with sub := .unlatching (p.tmb.uptime + 500) }) h was
    ⟨same.former, same.origin, same.slotOpen⟩
    (decide_eq_false fun feeding => ne ((h.fed_iff was).mpr (same.former ▸ feeding)))
  refine .ite (fun _ => unlatching.trans ?_) fun _ => unlatching
  refine Power.confirmOpen_passes unlatching.sound (p.setState_state b _) (.refl _) ?_
  rw [p.setState_feed]
  exact ne

theorem Power.enterHeld_passes (h : p.Sound) (was : (p.bay b).state = .releaseWait u) (same : r.Same u) (l : Loads) :
    p.Passes (p.enterHeld l b r) :=
  .ite (fun _ => Power.endRefused_passes h was ⟨same.former, same.origin, same.slotOpen⟩ l _ _)
    fun _ => Power.setRelease_passes h was ⟨same.former, same.origin, same.slotOpen⟩ rfl

end

theorem Power.transferRefused_passes {p : Power} (h : p.Sound) (l : Loads) (b : Bay) (v : Bool) : p.Passes (p.transferRefused l b v) := by
  unfold Power.transferRefused
  split
  case h_1 r was =>
    split
    · exact Power.endCancelled_passes h was (.refl r) l
    · exact Power.endRefused_passes h was (.refl r) l _ _
    · exact .refl h
  case h_2 => exact .refl h

theorem Power.transferConfirmed_passes {p : Power} (h : p.Sound) (l : Loads) {b : Bay} (ne : p.feed.kind ≠ feedOf b) :
    p.Passes (p.transferConfirmed l b) := by
  unfold Power.transferConfirmed
  split
  case h_1 r was =>
    split
    · exact Power.endCancelled_passes h was (.refl r) l
    · exact .ite (fun _ => Power.enterHeld_passes h was (.refl r) l) fun _ => Power.enterUnlatching_passes h was (.refl r) ne
    · exact .refl h
  case h_2 => exact .refl h

theorem Power.planTakeover_passes {p : Power} (h : p.Sound) (l : Loads) (b : Bay) (fed : p.feed.kind.bay.isSome = true) :
    p.Passes (p.planTakeover l b) := by
  obtain ⟨sought, finds⟩ := p.findSource_finds l b true
  have passed := sought.passes h
  unfold Power.planTakeover
  dsimp only
  split
  case h_1 t found =>
    exact passed.trans ((Power.startSwitchover_seeks t _ (sought.kind ▸ fed) ((sought.stands t).mpr (finds t found))).passes passed.sound)
  case h_2 => exact passed.trans (Power.transferRefused_passes passed.sound l b false)

section
variable {p : Power} {b : Bay} {u r : Release}

theorem Power.enterTransfer_passes (h : p.Sound) (was : (p.bay b).state = .releaseWait u) (same : r.Same u) (l : Loads)
    (fed : p.feed.kind = feedOf b) : p.Passes (p.enterTransfer l b r) := by
  have waits := Power.setRelease_passes (r := { r with sub := .transfer false }) h was ⟨same.former, same.origin, same.slotOpen⟩ rfl
  refine .ite (fun _ => waits) fun _ => waits.trans (Power.planTakeover_passes waits.sound l b ?_)
  rw [p.setState_feed]
  exact fed_of_kind fed

theorem Power.moveOn_passes (h : p.Sound) (was : (p.bay b).state = .releaseWait u) (same : r.Same u) (l : Loads) :
    p.Passes (p.moveOn l b r) :=
  .ite (Power.enterTransfer_passes h was same l) (Power.enterUnlatching_passes h was same)

theorem Power.cancelRelease_passes (h : p.Sound) (was : (p.bay b).state = .releaseWait u) (same : r.Same u) (l : Loads) :
    p.Passes (p.cancelRelease l b r) := by
  unfold Power.cancelRelease
  split
  case h_1 =>
    have changed := Rebay.setBay b p { p.bay b with state := .releaseWait { r with sub := .transfer true } }
    refine ⟨changed.sound h ⟨?_, ?_, fun reads => ?_⟩ fun standby => ?_, changed.dc, changed.slots fun slot => ?_⟩
    · simp [h.fed_iff was, same.former, feeds]
    · simp [unlatchedFeeds]
    · rw [Power.setBay_link] at reads
      have seated := (h.bays b).identify reads
      rw [was] at seated
      cases seated
    · rw [was] at standby; cases standby
    · rw [Power.setBay_bay, was]; simp only [releaseOwes, same.origin, same.slotOpen]
  · exact Power.endCancelled_passes h was same l
  · exact Power.endCancelled_passes h was same l

end

/-! ## Switchover outcomes -/

/-- With DC waiting or nothing due, the part is whole once no switchover is in flight (R31, R35). -/
theorem Power.afterSwitchover_passes {p : Power} (h : p.Sound) (l : Loads) : p.Passes (p.afterSwitchover l) ∧ (p.afterSwitchover l).DcWaits := by
  unfold Power.afterSwitchover
  split
  case isTrue flight => exact ⟨.refl h, fun _ => .inr flight⟩
  case isFalse =>
    split
    case isTrue arrives =>
      simp only [Bool.and_eq_true, decide_eq_true_eq] at arrives
      have moved := Power.moveFeed_passes (t := .dc) (h.movable arrives.1 arrives.2) .ordinary false fun _ _ => rfl
      exact ⟨moved, fun _ => .inl (p.moveFeed_feed .dc .ordinary false).1⟩
    case isFalse settled =>
      have waits : p.DcWaits := fun present => .inl (by simpa [present] using settled)
      split
      · exact ⟨.refl h, waits⟩
      case h_2 x from_bay =>
        have examined := (Power.examineDue_seeks l x (by rw [from_bay]; rfl)).passes h
        exact ⟨examined, examined.dc waits⟩

theorem Power.replan_passes {p : Power} (h : p.Sound) (l : Loads) (x : Bay) (fed : p.feed.kind.bay.isSome = true) : p.Passes (p.replan l x) :=
  .ite (fun _ => Power.planTakeover_passes h l x fed) fun _ => .refl h

theorem Power.reportFailure_passes {p : Power} (h : p.Sound) (l : Loads) (x : Bay) (purpose : Purpose) (fed : p.feed.kind.bay.isSome = true) :
    p.Passes (p.reportFailure l x purpose) := by
  have replanned {q : Power} (sought : p.Seeks q) : p.Passes (q.replan l x) :=
    (sought.passes h).trans (Power.replan_passes (sought.passes h).sound l x (sought.kind ▸ fed))
  cases purpose with
  | takeover => exact Power.transferRefused_passes h l x true
  | faultMove => exact replanned (.ite (.refl p) p.recordFaulted_seeks)
  | changeover => exact replanned p.recordLow_seeks

/-- The old path alone closed, no target is left to stand (R35, step 3). -/
theorem Power.revertSwitchover_sound {p : Power} (h : p.Steady) : p.revertSwitchover.Sound ∧ p.SlotStep p.revertSwitchover :=
  ⟨⟨⟨fun b => by cases b <;> exact h.bays _, fun flight => (nomatch flight), h.holdover, h.lean, h.dcFeed⟩, fun _ sw => (nomatch sw)⟩,
    .of_same (fun b slot => by cases b <;> exact .rfl) rfl⟩

/-- A switchover that is not confirmed leaves a sound part, whether its target still stands or not. -/
theorem Power.failSwitchover_whole {p : Power} (h : p.Steady) (l : Loads) (flight : p.feed.switchover.isSome = true) :
    (p.failSwitchover l).Sound ∧ (p.failSwitchover l).DcWaits ∧ p.SlotStep (p.failSwitchover l) := by
  obtain ⟨sound, slots⟩ := Power.revertSwitchover_sound h
  obtain ⟨w, started⟩ := Option.isSome_iff_exists.mp flight
  obtain ⟨x, from_bay⟩ := Option.isSome_iff_exists.mp (h.fromBay flight)
  have reported := Power.reportFailure_passes sound l x w.purpose (h.fromBay flight)
  obtain ⟨after, waits⟩ := Power.afterSwitchover_passes reported.sound l
  simp only [Power.failSwitchover, started, from_bay]
  exact ⟨after.sound, waits, slots.trans (reported.slots.trans after.slots)⟩

theorem Power.failSwitchover_of_none {p : Power} (l : Loads) (h : p.feed.switchover = none) : p.failSwitchover l = p := by
  simp only [Power.failSwitchover, h]

theorem Power.failSwitchover_passes {p : Power} (h : p.Sound) (l : Loads) : p.Passes (p.failSwitchover l) := by
  cases flight : p.feed.switchover with
  | none => rw [Power.failSwitchover_of_none l flight]; exact .refl h
  | some w =>
    obtain ⟨sound, waits, slots⟩ := Power.failSwitchover_whole h.toSteady l (by rw [flight]; rfl)
    exact ⟨sound, fun _ => waits, slots⟩

/-- A bay has left STANDBY: the targets of the other sources still stand (R36). -/
theorem Power.leftStandby_passes {p : Power} (h : p.Steady) (l : Loads) (b : Bay)
    (target : ∀ w, p.feed.switchover = some w → w.target ≠ feedOf b → p.stands w.target) : p.Passes (p.leftStandby l b) := by
  unfold Power.leftStandby
  split
  case h_1 w flight =>
    split
    case isTrue =>
      obtain ⟨sound, waits, slots⟩ := Power.failSwitchover_whole h l (by rw [flight]; rfl)
      exact ⟨sound, fun _ => waits, slots⟩
    case isFalse other => exact .refl ⟨h, fun v sw => by rw [flight] at sw; cases sw; exact target w flight other⟩
  case h_2 none_runs => exact .refl ⟨h, fun w sw => by rw [none_runs] at sw; cases sw⟩

/-- Where the bay agrees with the feed but has left STANDBY, FHU's answer makes the part whole again. -/
theorem Power.Rebay.leftStandby {b : Bay} {p q : Power} (h : Rebay b p q) (was : p.Sound)
    (agrees : BayAgrees p.feed.kind b (q.bay b).state (q.link b).activity) (l : Loads) : q.Passes (q.leftStandby l b) :=
  Power.leftStandby_passes (h.steady was.toSteady agrees) l b fun w sw other =>
    h.stands (fun same => absurd same other) (was.target w (h.feed ▸ sw))

/-- A confirmed switchover moves the feed to its target, and the release of the old feed bay goes on (R35, step 2). -/
theorem Power.confirmSwitchover_passes {p : Power} (h : p.Sound) (l : Loads) : p.Passes (p.confirmSwitchover l) := by
  unfold Power.confirmSwitchover
  split
  case h_1 w x flight from_bay =>
    have fed := bay_eq_some.mp from_bay
    have differs : p.feed.kind ≠ w.target := fun same => by
      have standby := (p.stands_feedOf x).mp (fed ▸ same ▸ h.target w flight)
      have feeds := (h.bays x).feeds.mp fed
      rw [standby] at feeds
      cases feeds
    have movable := h.movable (h.target w flight) differs
    have finished {q : Power} (sound : q.Sound) (slots : p.SlotStep q) : p.Passes (q.afterSwitchover l) := by
      obtain ⟨after, waits⟩ := Power.afterSwitchover_passes sound l
      exact ⟨after.sound, fun _ => waits, slots.trans after.slots⟩
    split
    case isTrue =>
      obtain ⟨sound, slots⟩ := Power.moveFeed_sound movable .takeover true
      have confirmed := Power.transferConfirmed_passes sound l (b := x) (by rw [(p.moveFeed_feed _ _ _).1, ← fed]; exact differs.symm)
      exact finished confirmed.sound (slots.trans confirmed.slots)
    case isFalse =>
      obtain ⟨sound, slots⟩ := Power.moveFeed_sound movable .ordinary true
      have entered := Power.enteredStandby_passes sound l x
      exact finished entered.sound (slots.trans entered.slots)
  case h_2 => exact .refl h

/-! ## Unplanned losses -/

/-- An unplanned loss takes the feed to where the choice points, or leaves it on the reservoir (R39). -/
theorem Power.loss_whole {p : Power} (h : p.Movable p.choose) (l : Loads) (c : LossCause) :
    (p.loss l c).Sound ∧ (p.loss l c).DcWaits ∧ p.SlotStep (p.loss l c) := by
  obtain ⟨moved, slots⟩ := Power.moveFeed_sound h (if c = .voltage then .collapse else .ordinary) false
  obtain ⟨kind, -, -, -, present, -⟩ := p.moveFeed_feed p.choose (if c = .voltage then .collapse else .ordinary) false
  have taken := (p.lossTaken_aside c).passes moved
  have now : (p.lossTaken c).feed.kind = p.choose := (p.lossTaken_aside c).kind.trans kind
  have waits : (p.lossTaken c).DcWaits := fun here => by
    rw [now, (p.lossTaken_aside c).dcPresent, present] at *
    exact .inl (Power.choose_of_dc here)
  cases from_bay : p.feed.kind.bay with
  | none => rw [Power.loss_of_dc l c from_bay]; exact ⟨taken.sound, waits, slots.trans taken.slots⟩
  | some x =>
    rw [Power.loss_of_bay l c from_bay]
    have ne : p.choose ≠ feedOf x := by rw [← bay_eq_some.mp from_bay]; exact h.differs.symm
    have recorded : (p.lossTaken c).Passes (if (p.bay x).state.standing.pack then p.lossTaken c else (p.lossTaken c).packFault x .pack) :=
      .ite (fun _ => .refl taken.sound) fun _ => (Power.packFault_aside _ x .pack).passes taken.sound
    have kept : (if (p.bay x).state.standing.pack then p.lossTaken c else (p.lossTaken c).packFault x .pack).feed.kind = p.choose := by
      split
      · exact now
      · exact ((p.lossTaken c).packFault_aside x .pack).kind.trans now
    split
    · have confirmed := recorded.trans (Power.transferConfirmed_passes recorded.sound l (b := x) (by rw [kept]; exact ne))
      exact ⟨confirmed.sound, confirmed.dc waits, slots.trans (taken.slots.trans confirmed.slots)⟩
    · exact ⟨taken.sound, waits, slots.trans taken.slots⟩

end Sys2Proof.Machine
end

section
/-! PROOF. One feed and the slots it answers for: findings, the pack link, starting a release, presence, the feed's events (R5 to R15, R31 to R39). -/

namespace Sys2Proof.Machine

open Sys2Proof.Safety

/-! ## Findings -/

theorem Power.packFault_bay (p : Power) (b c : Bay) (r : FaultReason) : (p.packFault b r).bay c = p.bay c := by cases c <;> rfl

theorem Power.packFault_link (p : Power) (b c : Bay) (r : FaultReason) : (p.packFault b r).link c = p.link c := by cases c <;> rfl

theorem Power.Rebay.packFault (b : Bay) (p : Power) (r : FaultReason) : Rebay b p (p.packFault b r) :=
  ⟨rfl, by rw [p.packFault_bay], by rw [p.packFault_link], (p.packFault_aside b r).inFlight⟩

/-- A bay that is not the feed and runs no release enters FAULT. -/
theorem Power.toFault_passes {p : Power} (h : p.Sound) (l : Loads) (b : Bay) (r : FaultReason) (ne : p.feed.kind ≠ feedOf b)
    (idle : ∀ slot, ¬ releaseOwes (p.bay b).state slot)
    (quiet : isSeated (p.bay b).state = true → identifies (p.link b).activity = true → (BayState.fault r).polls = false) :
    p.Passes (p.toFault l b r) := by
  have changed := (Rebay.setState b p (.fault r)).trans (Rebay.packFault b _ r)
  have agrees : BayAgrees p.feed.kind b (((p.setState b (.fault r)).packFault b r).bay b).state
      (((p.setState b (.fault r)).packFault b r).link b).activity := by
    rw [Power.packFault_bay, Power.packFault_link]
    exact Power.setState_agrees (h.bays b) ⟨fun same => absurd same ne, fun feeds => (nomatch feeds)⟩ rfl quiet
  have slots := changed.slots fun slot => by
    rw [Power.packFault_bay, p.setState_state]; exact ⟨fun owes => (nomatch owes), fun owes => absurd owes (idle slot)⟩
  unfold Power.toFault
  dsimp only
  split
  case isTrue =>
    have left := changed.leftStandby h agrees l
    exact ⟨left.sound, left.dc ∘ changed.dc, slots.trans left.slots⟩
  case isFalse not_standby =>
    exact ⟨changed.sound h agrees fun standby => absurd ((BayState.isStandby_iff _).mpr standby) not_standby, changed.dc, slots⟩

/-- Two states that agree in all that the feed and the slots see. -/
structure BayState.Alike (st old : BayState) : Prop where
  feeds   : feeds st = feeds old
  unlatch : unlatchedFeeds st = unlatchedFeeds old
  seated  : isSeated old = true → st.polls = false
  standby : old = .standby → st = .standby
  owes    : ∀ slot, releaseOwes st slot ↔ releaseOwes old slot

theorem Power.alike_passes {p : Power} (h : p.Sound) {b : Bay} {st : BayState} (alike : st.Alike (p.bay b).state) :
    p.Passes (p.setState b st) := by
  have changed := Rebay.setState b p st
  refine ⟨changed.sound h (Power.setState_agrees (h.bays b) ?_ ?_ fun seated _ => alike.seated seated) fun standby => ?_, changed.dc,
    changed.slots fun slot => ?_⟩
  · rw [alike.feeds]; exact (h.bays b).feeds
  · rw [alike.unlatch]; exact (h.bays b).unlatch
  · rw [p.setState_state]; exact alike.standby standby
  · rw [p.setState_state]; exact alike.owes slot

theorem BayState.withStanding_alike (f : FaultSet) (st : BayState) : (st.withStanding f).Alike st := by
  cases st with
  | feeding | releaseWait => exact ⟨rfl, rfl, nofun, nofun, fun _ => .rfl⟩
  | seated => exact ⟨rfl, rfl, fun _ => rfl, nofun, fun _ => .rfl⟩
  | empty | standby | fault | opened => exact ⟨rfl, rfl, nofun, id, fun _ => .rfl⟩

theorem Power.addStanding_passes {p : Power} (h : p.Sound) (l : Loads) (b : Bay) (r : Standing) (fed : p.feed.kind = feedOf b) :
    p.Passes (p.addStanding l b r) := by
  refine .ite (fun _ => .refl h) fun _ => ?_
  have joined := Power.alike_passes h ((p.bay b).state.withStanding_alike ((p.bay b).state.standing.put r true))
  have noted := joined.trans ((Power.packFault_aside _ b r.reason).passes joined.sound)
  refine noted.trans ((Power.seekFaultMove_seeks l b (fed_of_kind (b := b) ?_)).passes noted.sound)
  exact (congrArg FeedRec.kind (p.setState_feed b _)).trans fed

theorem Power.dropThermal_passes {p : Power} (h : p.Sound) (l : Loads) (b : Bay) : p.Passes (p.dropThermal l b) := by
  have cooled := Power.alike_passes h ((p.bay b).state.withStanding_alike ((p.bay b).state.standing.put .thermal false))
  refine .ite (fun _ => .ite (fun _ => cooled.trans (Power.Seeks.passes ?_ cooled.sound))
    fun _ => .ite (fun _ => cooled.trans ((Power.reexamine_seeks _ l).passes cooled.sound)) fun _ => cooled) fun _ => .refl h
  exact ⟨rfl, rfl, .inl rfl⟩

/-- The former state of a release on a bay that is not the feed is replaced by another that does not feed. -/
theorem Power.setFormer_passes {p : Power} (h : p.Sound) {b : Bay} {r : Release} (was : (p.bay b).state = .releaseWait r)
    (ne : p.feed.kind ≠ feedOf b) {f : FormerState} (hf : f ≠ .feeding) : p.Passes (p.setState b (.releaseWait { r with former := f })) := by
  refine Power.alike_passes h ?_
  have not_feeding : r.former ≠ .feeding := fun feeding => ne ((h.fed_iff was).mpr feeding)
  rw [was]
  refine ⟨?_, ?_, fun seated => (nomatch seated), fun standby => (nomatch standby), fun _ => .rfl⟩
  · simp [feeds, hf, not_feeding]
  · rw [unlatchedFeeds_of_not_feeds (by simp [feeds, hf]), unlatchedFeeds_of_not_feeds (by simp [feeds, not_feeding])]

theorem Standing.reason_ne_feeding (x : Standing) : FormerState.fault x.reason ≠ .feeding := nofun

theorem Power.noteFormer_passes {p : Power} (h : p.Sound) {b : Bay} {r : Release} (was : (p.bay b).state = .releaseWait r)
    (ne : p.feed.kind ≠ feedOf b) (x : Standing) : p.Passes (p.noteFormer b r x) := by
  have noted := Power.setFormer_passes h was ne x.reason_ne_feeding
  exact .ite (fun _ => .refl h) fun _ => noted.trans ((Power.packFault_aside _ b x.reason).passes noted.sound)

theorem Power.judgeFeed_passes {p : Power} (h : p.Sound) (l : Loads) (b : Bay) (k : PackState) (fed : p.feed.kind = feedOf b) :
    p.Passes (p.judgeFeed l b k) :=
  .ite (fun _ => Power.addStanding_passes h l b _ fed) fun _ => .ite (fun _ => Power.addStanding_passes h l b _ fed)
    fun _ => .ite (fun _ => Power.dropThermal_passes h l b) fun _ => .refl h

/-- From STANDBY, and from FAULT, nothing else is asked of an entry to FAULT. -/
theorem Power.toFault_passes_of {p : Power} (h : p.Sound) (l : Loads) {b : Bay} (r : FaultReason) (ne : p.feed.kind ≠ feedOf b)
    {st : BayState} (was : (p.bay b).state = st) (idle : ∀ slot, ¬ releaseOwes st slot) (seated : isSeated st = false) :
    p.Passes (p.toFault l b r) :=
  Power.toFault_passes h l b r ne (was ▸ idle) fun now => by rw [was, seated] at now; cases now

theorem Power.judgePoll_passes {p : Power} (h : p.Sound) (l : Loads) (b : Bay) (k : PackState) : p.Passes (p.judgePoll l b k) := by
  refine .ite (Power.judgeFeed_passes h l b k) fun ne => ?_
  split
  case h_1 was =>
    exact .ite (fun _ => Power.toFault_passes_of h l _ ne was (fun _ => id) rfl)
      fun _ => .ite (fun _ => Power.toFault_passes_of h l _ ne was (fun _ => id) rfl) fun _ => .refl h
  case h_2 was =>
    refine .ite (fun _ => Power.toFault_passes_of h l _ ne was (fun _ => id) rfl) fun _ => .ite (fun _ => ?_) fun _ => .refl h
    have seated := Rebay.enterSeated b p
    refine ⟨seated.sound h (Power.enterSeated_agrees ne) fun standby => ?_, seated.dc, seated.slots fun slot => ?_⟩
    · rw [was] at standby; cases standby
    · rw [(p.enterSeated_frame b).1, was]; exact .rfl
  case h_3 r was =>
    exact .ite (fun _ => Power.noteFormer_passes h was ne _) fun _ => .ite (fun _ => Power.noteFormer_passes h was ne _)
      fun _ => .ite (fun _ => Power.setFormer_passes h was ne nofun) fun _ => .refl h
  case h_4 => exact .refl h

theorem Power.polledFeed_passes {p : Power} (h : p.Sound) (l : Loads) (b : Bay) (k : PackState) : p.Passes (p.polledFeed l b k) :=
  .ite (fun fed => .ite (fun _ => (Power.seekChangeover_seeks l b (fed_of_kind fed)).passes h) fun _ => .refl h)
    fun _ => .ite (fun _ => .ite (fun _ => Power.choicePoint_passes h) fun _ => .refl h) fun _ => (p.reexamine_seeks l).passes h

theorem Power.pollGood_passes {p : Power} (h : p.Sound) (l : Loads) (b : Bay) (k : PackState) : p.Passes (p.pollGood l b k) := by
  have taken := (p.takePoll_aside b k).passes h
  have judged := Power.judgePoll_passes taken.sound l b k
  rw [Power.pollGood_eq]
  exact taken.trans (judged.trans (Power.polledFeed_passes judged.sound l b k))

theorem Power.linkLost_passes {p : Power} (h : p.Sound) (l : Loads) (b : Bay) : p.Passes (p.linkLost l b) := by
  refine .ite (Power.addStanding_passes h l b _) fun ne => ?_
  split
  case h_1 was => exact Power.toFault_passes_of h l _ ne was (fun _ => id) rfl
  case h_2 was => exact Power.toFault_passes_of h l _ ne was (fun _ => id) rfl
  case h_3 r was => exact Power.noteFormer_passes h was ne _
  case h_4 => exact .refl h

theorem Power.pollBad_passes {p : Power} (h : p.Sound) (l : Loads) (b : Bay) : p.Passes (p.pollBad l b) := by
  have counted := (p.countFailedPoll_aside b).passes h
  rw [Power.pollBad_eq]
  exact .ite (fun _ => counted.trans (Power.linkLost_passes counted.sound l b)) fun _ => counted

/-! ## The pack link -/

theorem isSeated_iff {st : BayState} : isSeated st = true ↔ ∃ d, st = .seated d := by cases st <;> simp [isSeated]

/-- A bay that is being identified is SEATED: neither the feed nor in a release. -/
theorem Power.Sound.identified {p : Power} (h : p.Sound) {b : Bay} (reads : identifies (p.link b).activity = true) :
    ∃ d, (p.bay b).state = .seated d ∧ p.feed.kind ≠ feedOf b := by
  obtain ⟨d, seated⟩ := isSeated_iff.mp ((h.bays b).identify reads)
  refine ⟨d, seated, fun fed => ?_⟩
  have feeds := (h.bays b).feeds.mp fed
  rw [seated] at feeds
  cases feeds

/-- A SEATED bay whose link no longer identifies, or whose new state ends the link, enters FAULT. -/
theorem Power.toFault_passes_seated {p : Power} (h : p.Sound) (l : Loads) {b : Bay} (r : FaultReason) {d : Nat}
    (was : (p.bay b).state = .seated d) (quiet : identifies (p.link b).activity = false ∨ (BayState.fault r).polls = false) :
    p.Passes (p.toFault l b r) := by
  have ne : p.feed.kind ≠ feedOf b := fun fed => by
    have feeds := (h.bays b).feeds.mp fed
    rw [was] at feeds
    cases feeds
  refine Power.toFault_passes h l b r ne (fun slot owes => by rw [was] at owes; exact owes) fun _ reads => ?_
  exact quiet.resolve_left (by simp [reads])

theorem Power.fillPackState_idle (p : Power) (b : Bay) (k : PackState) : ((p.fillPackState b k).link b).activity = .idle := by
  cases b <;> rfl

theorem feedOf_injective {b c : Bay} (h : feedOf b = feedOf c) : b = c := by cases b <;> cases c <;> simp [feedOf] at h ⊢

theorem Power.identified_passes {p : Power} (h : p.Sound) (l : Loads) {b : Bay} (k : PackState) {d : Nat}
    (was : (p.bay b).state = .seated d) : p.Passes (p.identified l b k) := by
  have filled := (p.fillPackState_aside b k).passes h
  have seated := ((p.fillPackState_aside b k).states b).trans was
  have idle : identifies ((p.fillPackState b k).link b).activity = false := by rw [p.fillPackState_idle]; rfl
  rw [Power.identified_eq]
  refine .ite (fun _ => filled.trans (Power.toFault_passes_seated filled.sound l _ seated (.inl idle)))
    fun _ => .ite (fun _ => filled.trans (Power.toFault_passes_seated filled.sound l _ seated (.inl idle)))
    fun _ => .ite (fun empty => filled.trans ?_) fun _ => filled.trans ?_
  · have old : (p.fillPackState b k).feed.kind = .reservoir := empty.1
    have movable : (p.fillPackState b k).Movable (feedOf b) := by
      refine ⟨fun c _ => old ▸ filled.sound.bays c, fun c => (filled.sound.bays c).identify, filled.sound.holdover, filled.sound.lean,
        by rw [old]; exact reservoir_ne_feedOf b, fun dc => absurd dc.symm (dc_ne_feedOf b), fun c same => ?_⟩
      obtain rfl : b = c := feedOf_injective same
      exact ⟨fun slot owes => by rw [seated] at owes; exact owes, idle⟩
    refine Power.moveFeed_passes movable .ordinary false fun waits present => ?_
    rcases waits present with dc | flight
    · rw [old] at dc; cases dc
    · have fed := filled.sound.fromBay flight
      rw [old] at fed
      cases fed
  · have changed := Rebay.setState b (p.fillPackState b k) .standby
    have ne : (p.fillPackState b k).feed.kind ≠ feedOf b := fun fed => by
      have feeds := (filled.sound.bays b).feeds.mp fed
      rw [seated] at feeds
      cases feeds
    have standby : (p.fillPackState b k).Passes ((p.fillPackState b k).setState b .standby) := by
      refine ⟨changed.sound filled.sound (Power.setState_agrees (filled.sound.bays b) ⟨fun same => absurd same ne, fun feeds => (nomatch feeds)⟩
        rfl fun _ reads => by rw [idle] at reads; cases reads) fun _ => Power.setState_state _ _ _, changed.dc, changed.slots fun slot => ?_⟩
      rw [Power.setState_state, seated]
      exact .rfl
    exact standby.trans (Power.enteredStandby_passes standby.sound l b)

theorem Power.setActivity_passes {p : Power} (h : p.Sound) (b : Bay) (a : LinkActivity)
    (reads : identifies a = true → identifies (p.link b).activity = true) : p.Passes (p.setActivity b a) :=
  (p.setLink_aside b reads).passes h

theorem Power.badTransaction_passes {p : Power} (h : p.Sound) (l : Loads) (b : Bay) : p.Passes (p.badTransaction l b) := by
  unfold Power.badTransaction
  split
  case h_1 k again t reads => exact Power.setActivity_passes h b _ fun _ => by rw [reads]; rfl
  case h_2 k again t reads => exact .ite (fun _ => Power.pollBad_passes h l b) fun _ => Power.setActivity_passes h b _ fun now => (nomatch now)
  · exact .refl h
  · exact .refl h

theorem Power.judgeIdentity_passes {p : Power} (h : p.Sound) (l : Loads) {b : Bay} (i : Identity)
    (reads : identifies (p.link b).activity = true) : p.Passes (p.judgeIdentity l b i) := by
  have kept : p.Aside (p.setBay b { p.bay b with identity := some i }) := p.setBay_aside b rfl
  have held := kept.passes h
  obtain ⟨d, seated, -⟩ := h.identified reads
  refine .ite (fun _ => held.trans (Power.setActivity_passes held.sound b _ fun _ => ?_))
    fun _ => held.trans (Power.toFault_passes_seated held.sound l .ident ((kept.states b).trans seated) (.inr rfl))
  rw [Power.setBay_link]
  exact reads

theorem Power.identBlock_passes {p : Power} (h : p.Sound) (l : Loads) {b : Bay} (k : Nat) (d : BitVec 128)
    (reads : identifies (p.link b).activity = true) : p.Passes (p.identBlock l b k d) := by
  have read {n : Link} (_ : identifies n.activity = true) : p.Aside (p.setLink b n) := p.setLink_aside b fun _ => reads
  have held : p.Aside (p.setLink b { p.link b with block1 := d }) := read reads
  unfold Power.identBlock
  dsimp only
  split
  · exact (read rfl).passes h
  · refine (held.passes h).trans (Power.judgeIdentity_passes (held.passes h).sound l _ ?_)
    rw [Power.setLink_link]
    exact reads
  · exact (read rfl).passes h
  · obtain ⟨deadline, seated, -⟩ := h.identified reads
    exact Power.identified_passes h l _ seated

theorem Power.goodTransaction_passes {p : Power} (h : p.Sound) (l : Loads) (b : Bay) (d : BitVec 128) :
    p.Passes (p.goodTransaction l b d) := by
  unfold Power.goodTransaction
  split
  case h_1 k again t activity =>
    have reads : identifies (p.link b).activity = true := by rw [activity]; rfl
    exact .ite (fun _ => Power.setActivity_passes h b _ fun _ => reads) fun _ => Power.identBlock_passes h l k d reads
  case h_2 k again t activity =>
    refine .ite (fun _ => Power.pollBad_passes h l b) fun _ => .ite (fun _ => ?_) fun _ => Power.pollGood_passes h l b _
    refine (p.setLink_aside b ?_).passes h
    nofun
  · exact .refl h
  · exact .refl h

theorem Power.linkReply_passes {p : Power} (h : p.Sound) (l : Loads) (b : Bay) (d : BitVec 136) : p.Passes (p.linkReply l b d) := by
  unfold Power.linkReply
  split
  · exact .refl h
  · exact .ite (fun _ => .refl h) fun _ => .ite (fun _ => Power.goodTransaction_passes h l b _) fun _ => Power.badTransaction_passes h l b

theorem Power.linkTimeout_passes {p : Power} (h : p.Sound) (l : Loads) (b : Bay) : p.Passes (p.linkTimeout l b) := by
  unfold Power.linkTimeout
  split
  · exact .refl h
  · exact .ite (fun _ => Power.badTransaction_passes h l b) fun _ => .refl h

theorem Power.identDeadline_passes {p : Power} (h : p.Sound) (l : Loads) (b : Bay) : p.Passes (p.identDeadline l b) := by
  unfold Power.identDeadline
  split
  case h_1 d seated => exact .ite (fun _ => Power.toFault_passes_seated h l .ident seated (.inr rfl)) fun _ => .refl h
  case h_2 => exact .refl h

end Sys2Proof.Machine
end

section
/-! PROOF. One feed and the slots it answers for: starting a release, presence, the holds' reactions, the feed's events, and the two statements. -/

namespace Sys2Proof.Machine

open Sys2Proof.Safety

/-! ## What a switchover's outcome spares -/

/-- Between `p` and `q` the feed kind and the state of the bay that is not `x` are as before. -/
structure Power.Spares (x : Bay) (p q : Power) : Prop where
  kind  : q.feed.kind = p.feed.kind
  state : (q.bay (otherBay x)).state = (p.bay (otherBay x)).state

namespace Power.Spares

theorem refl (x : Bay) (p : Power) : Spares x p p := ⟨rfl, rfl⟩

theorem trans {x : Bay} {p q r : Power} (a : Spares x p q) (b : Spares x q r) : Spares x p r :=
  ⟨b.kind.trans a.kind, b.state.trans a.state⟩

theorem ite {x : Bay} {p q r : Power} {c : Prop} [Decidable c] (a : Spares x p q) (b : Spares x p r) :
    Spares x p (if c then q else r) := by
  split
  · exact a
  · exact b

end Power.Spares

theorem Power.Rebay.spares {x : Bay} {p q : Power} (h : Rebay x p q) : Spares x p q := ⟨by rw [h.feed], h.state⟩

theorem Power.Aside.spares {p q : Power} (h : p.Aside q) (x : Bay) : Spares x p q := ⟨h.kind, h.states _⟩

theorem Power.Seeks.spares {p q : Power} (h : p.Seeks q) (x : Bay) : Spares x p q := ⟨h.kind, by rw [h.bay]⟩

section
variable {p : Power} {x : Bay} (l : Loads)

theorem Power.completeRelease_spares (p : Power) (b : Bay) (r : Release) (c : ResultCode) (v : Bool) (x : Bay) :
    Spares x p (p.completeRelease b r c v) := by
  obtain ⟨f, shape, -⟩ := p.completeRelease_front b r c v
  rw [shape]
  exact ⟨rfl, by cases x <;> rfl⟩

theorem Power.takeFormer_spares (p : Power) (x : Bay) (r : Release) : Spares x p (p.takeFormer x r) := by
  unfold Power.takeFormer
  split
  · exact (Rebay.enterSeated x p).spares
  all_goals exact (Rebay.setState x p _).spares

theorem Power.refuse_spares (p : Power) (b : Bay) (r : Release) (y : RefusalReason) (v : Bool) (x : Bay) :
    Spares x p (p.refuse b r y v) := by
  obtain ⟨q, aside, shape⟩ := p.refuse_shape b r y v
  rw [shape]
  exact (aside.spares x).trans (q.completeRelease_spares _ _ _ _ x)

/-- With a bay as the feed there is no choice point. -/
theorem Power.enteredStandby_spares (h : p.feed.kind = feedOf x) (b : Bay) : Spares x p (p.enteredStandby l b) := by
  refine .ite ?_ (.refl x p)
  rw [if_neg (h ▸ (reservoir_ne_feedOf x).symm)]
  exact (p.reexamine_seeks l).spares x

theorem Power.transferRefused_spares (h : p.feed.kind = feedOf x) (v : Bool) : Spares x p (p.transferRefused l x v) := by
  unfold Power.transferRefused
  split
  case h_1 r _ =>
    split
    · have cancelled := (p.takeFormer_spares x r).trans (Power.completeRelease_spares _ x r .cancelled false x)
      exact cancelled.trans (Power.enteredStandby_spares l (cancelled.kind.trans h) x)
    · have refused := (p.takeFormer_spares x r).trans (Power.refuse_spares _ x r .noTakeover v x)
      exact refused.trans (Power.enteredStandby_spares l (refused.kind.trans h) x)
    · exact .refl x p
  case h_2 => exact .refl x p

theorem Power.planTakeover_spares (h : p.feed.kind = feedOf x) : Spares x p (p.planTakeover l x) := by
  have sought := (p.findSource_finds l x true).1.spares x
  have started (q : Power) (t : FeedKind) : Spares x q (q.startSwitchover t .takeover) := ⟨rfl, by cases x <;> rfl⟩
  unfold Power.planTakeover
  dsimp only
  split
  · exact sought.trans (started _ _)
  · exact sought.trans (Power.transferRefused_spares l (sought.kind.trans h) false)

theorem Power.reportFailure_spares (h : p.feed.kind = feedOf x) (purpose : Purpose) : Spares x p (p.reportFailure l x purpose) := by
  have replanned {q : Power} (sought : p.Seeks q) : Spares x p (q.replan l x) :=
    (sought.spares x).trans (.ite (Power.planTakeover_spares l (sought.kind.trans h)) (.refl x q))
  cases purpose with
  | takeover => exact Power.transferRefused_spares l h true
  | faultMove => exact replanned (.ite (.refl p) p.recordFaulted_seeks)
  | changeover => exact replanned p.recordLow_seeks

/-- DC taking the feed from bay `x` leaves the other bay. -/
theorem Power.moveFeed_dc_state (h : p.feed.kind = feedOf x) (c : MoveCause) (v : Bool) :
    ((p.moveFeed .dc c v).bay (otherBay x)).state = (p.bay (otherBay x)).state := by
  obtain ⟨-, -, stays⟩ := p.leaveFeed_frame c .dc
  rw [Power.moveFeed_eq, if_neg nofun, if_neg (h ▸ (reservoir_ne_feedOf x).symm)]
  refine .trans ?_ (stays (otherBay x) (by rw [h]; cases x <;> decide)).1
  cases x <;> rfl

theorem Power.afterSwitchover_state (h : p.feed.kind = feedOf x) :
    ((p.afterSwitchover l).bay (otherBay x)).state = (p.bay (otherBay x)).state
    ∧ ((p.afterSwitchover l).feed.kind = p.feed.kind ∨ (p.afterSwitchover l).feed.kind = .dc) := by
  unfold Power.afterSwitchover
  rw [h, bay_eq_some.mpr rfl]
  split
  · exact ⟨rfl, .inl h⟩
  · split
    · exact ⟨Power.moveFeed_dc_state h _ _, .inr (p.moveFeed_feed _ _ _).1⟩
    · have examined := Power.examineDue_seeks l x (fed_of_kind h)
      exact ⟨by rw [examined.bay], .inl (examined.kind.trans h)⟩

end

/-- The reversion of a switchover leaves a bay that is not the feed, and the feed kind or DC (R35). -/
theorem Power.failSwitchover_spares {p : Power} (h : p.Steady) (l : Loads) {b : Bay} (ne : p.feed.kind ≠ feedOf b) :
    ((p.failSwitchover l).bay b).state = (p.bay b).state ∧ (p.failSwitchover l).feed.kind ≠ feedOf b := by
  cases flight : p.feed.switchover with
  | none => rw [Power.failSwitchover_of_none l flight]; exact ⟨rfl, ne⟩
  | some w =>
    obtain ⟨x, from_bay⟩ := Option.isSome_iff_exists.mp (h.fromBay (by rw [flight]; rfl))
    have fed := bay_eq_some.mp from_bay
    obtain rfl : b = otherBay x := (eq_or_eq_otherBay x b).resolve_left fun same => ne (same ▸ fed)
    have reverted : Spares x p p.revertSwitchover := ⟨rfl, by cases x <;> rfl⟩
    have reported := reverted.trans (Power.reportFailure_spares l (reverted.kind.trans fed) w.purpose)
    obtain ⟨state, kind⟩ := Power.afterSwitchover_state l (reported.kind.trans fed)
    simp only [Power.failSwitchover, flight, from_bay]
    refine ⟨state.trans reported.state, ?_⟩
    rcases kind with same | dc
    · rw [same, reported.kind]; exact ne
    · rw [dc]; exact dc_ne_feedOf _

theorem Power.leftStandby_spares {p : Power} (h : p.Steady) (l : Loads) {b : Bay} (ne : p.feed.kind ≠ feedOf b) :
    ((p.leftStandby l b).bay b).state = (p.bay b).state ∧ (p.leftStandby l b).feed.kind ≠ feedOf b := by
  unfold Power.leftStandby
  split
  · split
    · exact Power.failSwitchover_spares h l ne
    · exact ⟨rfl, ne⟩
  · exact ⟨rfl, ne⟩

/-! ## Starting a release -/

/-- A bay as its release starts in HELD, before FHU hears of it. -/
def Power.heldRelease (p : Power) (b : Bay) (former : FormerState) (origin : Origin) : Power :=
  (p.clearForRelease b former).setState b (.releaseWait (p.newRelease b former origin))

theorem feeds_of_former {st : BayState} {f : FormerState} (h : st.former = some f) : feeds st = decide (f = .feeding) := by
  cases st <;> cases h <;> rfl

theorem not_owes_of_former {st : BayState} {f : FormerState} (h : st.former = some f) (slot : Fin 32) : ¬ releaseOwes st slot := by
  cases st with
  | seated | standby | feeding | fault => exact id
  | empty | opened | releaseWait => cases h

theorem Power.heldRelease_state (p : Power) (b : Bay) (f : FormerState) (o : Origin) :
    ((p.heldRelease b f o).bay b).state = .releaseWait (p.newRelease b f o) := Power.setState_state _ _ _

section
variable {p : Power} {b : Bay} {f : FormerState}

/-- The records are cleared and the bay is held: the feed, the other bay and the slots in flight stand. -/
theorem Power.heldRelease_rebay (h : p.Sound) (o : Origin) :
    (p.clearForRelease b f).Sound ∧ Rebay b (p.clearForRelease b f) (p.heldRelease b f o) :=
  ⟨((p.clearForRelease_aside b f).passes h).sound, Rebay.setState b _ _⟩

theorem Power.heldRelease_agrees (h : p.Sound) (o : Origin) (starts : (p.bay b).state.former = some f) :
    BayAgrees (p.clearForRelease b f).feed.kind b ((p.heldRelease b f o).bay b).state ((p.heldRelease b f o).link b).activity := by
  have cleared := p.clearForRelease_aside b f
  have sound := (cleared.passes h).sound
  refine Power.setState_agrees (sound.bays b) ?_ rfl fun seated _ => ?_
  · rw [(sound.bays b).feeds, cleared.states, feeds_of_former starts]
    simp [feeds, Power.newRelease]
  · rw [cleared.states] at seated
    obtain ⟨d, was⟩ := isSeated_iff.mp seated
    rw [was] at starts
    cases starts
    rfl

theorem Power.heldRelease_dc (h : p.Sound) (o : Origin) (waits : p.DcWaits) : (p.heldRelease b f o).DcWaits :=
  (Power.heldRelease_rebay h o).2.dc ((p.clearForRelease_aside b f).level.dc waits)

/-- A started release keeps the invariant; from the held bay on the slots follow the releases. -/
theorem Power.startRelease_passes (h : p.Sound) (l : Loads) (o : Origin) (starts : (p.bay b).state.former = some f) :
    (p.heldRelease b f o).Passes (p.startRelease l b f o) := by
  obtain ⟨cleared, changed⟩ := Power.heldRelease_rebay (b := b) (f := f) h o
  have was := (p.clearForRelease_aside b f).states b
  have agrees := Power.heldRelease_agrees h o starts
  have begun : (p.heldRelease b f o).Passes (p.beginRelease l b f o)
      ∧ ((p.beginRelease l b f o).bay b).state = .releaseWait (p.newRelease b f o) := by
    unfold Power.beginRelease
    dsimp only
    split
    case isTrue standby =>
      have steady := changed.steady cleared.toSteady agrees
      have ne : (p.heldRelease b f o).feed.kind ≠ feedOf b := by
        intro fed
        have feeds := (steady.bays b).feeds.mp fed
        rw [p.heldRelease_state] at feeds
        rw [(BayState.isStandby_iff _).mp standby] at starts
        cases starts
        cases feeds
      exact ⟨changed.leftStandby cleared agrees l, (Power.leftStandby_spares steady l ne).1.trans (p.heldRelease_state b f o)⟩
    case isFalse not_standby =>
      refine ⟨.refl (changed.sound cleared agrees fun standby => ?_), p.heldRelease_state b f o⟩
      exact absurd ((BayState.isStandby_iff _).mpr (was ▸ standby)) not_standby
  rw [Power.startRelease_eq]
  exact .ite (fun _ => begun.1) fun _ => begun.1.trans (Power.moveOn_passes begun.1.sound begun.2 (.refl _) l)

theorem Power.heldRelease_slots (h : p.Sound) (starts : (p.bay b).state.former = some f) : p.SlotStep (p.heldRelease b f .button) := by
  obtain ⟨-, changed⟩ := Power.heldRelease_rebay (b := b) (f := f) h .button
  refine (p.clearForRelease_aside b f).level.slots.trans (changed.slots fun slot => ?_)
  rw [p.heldRelease_state, (p.clearForRelease_aside b f).states]
  exact ⟨fun owes => (nomatch owes.1), fun owes => absurd owes (not_owes_of_former starts slot)⟩

end

theorem Power.pressButton_passes {p : Power} (h : p.Sound) (l : Loads) (b : Bay) : p.Passes (p.pressButton l b) := by
  unfold Power.pressButton
  split
  case h_1 r was => exact Power.cancelRelease_passes h was (.refl r) l
  case h_2 =>
    split
    case h_1 f starts =>
      have started := Power.startRelease_passes h l .button starts
      exact ⟨started.sound, started.dc ∘ Power.heldRelease_dc h .button, (Power.heldRelease_slots h starts).trans started.slots⟩
    case h_2 => exact .refl h

/-! ## The holds' reactions -/

/-- A bay that is not the feed and runs no release enters SEATED. -/
theorem Power.enterSeated_passes {p : Power} (h : p.Sound) {b : Bay} {st : BayState} (was : (p.bay b).state = st)
    (ne : feeds st = false) (idle : ∀ slot, ¬ releaseOwes st slot) (standby : st ≠ .standby) : p.Passes (p.enterSeated b) := by
  have changed := Rebay.enterSeated b p
  have other : p.feed.kind ≠ feedOf b := fun fed => by
    have feeds := (h.bays b).feeds.mp fed
    rw [was, ne] at feeds
    cases feeds
  refine ⟨changed.sound h (Power.enterSeated_agrees other) fun now => absurd (was.symm.trans now) standby, changed.dc,
    changed.slots fun slot => ?_⟩
  rw [(p.enterSeated_frame b).1, was]
  exact ⟨fun owes => (nomatch owes), fun owes => absurd owes (idle slot)⟩

theorem Power.reactToDemand_passes {p : Power} (h : p.Sound) (l : Loads) (b : Bay) : p.Passes (p.reactToDemand l b) := by
  unfold Power.reactToDemand
  split
  case h_1 t was =>
    have seated := Power.enterSeated_passes h was rfl (fun _ => id) nofun
    exact .ite (fun _ => seated.trans ((Power.makeRecord_aside _ _).passes seated.sound)) fun _ => .refl h
  case h_2 r was =>
    split
    · exact .ite (fun _ => .refl h) fun _ => Power.moveOn_passes h was (.refl r) l
    · exact .ite (fun _ => Power.enterHeld_passes h was (.refl r) l) fun _ => .refl h
    · exact .refl h
  case h_3 => exact .refl h

theorem Power.changeTable_passes {p : Power} (h : p.Sound) (l : Loads) (es : List (Option HoldEntry)) : p.Passes (p.changeTable l es) := by
  have put := Power.putTable_passes es h
  have a := Power.reactToDemand_passes put.sound l .A
  exact put.trans (a.trans (Power.reactToDemand_passes a.sound l .B))

theorem Power.Ruled.passes {p q : Power} (h : p.Ruled q) (sound : p.Sound) : p.Passes q := by
  induction h with
  | aside h => exact h.passes sound
  | table p l es => exact Power.changeTable_passes sound l es
  | reexamine p l => exact (p.reexamine_seeks l).passes sound
  | trans _ _ first second => exact (first sound).trans (second (first sound).sound)

/-! ## Presence -/

theorem Power.emptyBay_rebay (p : Power) (b : Bay) : Rebay b p (p.emptyBay b) := (Rebay.setBay b p _).trans (Rebay.setLink b _ _)

theorem Power.emptyBay_bay (p : Power) (b : Bay) : ((p.emptyBay b).bay b).state = .empty ∧ ((p.emptyBay b).link b).activity = .idle := by
  cases b <;> exact ⟨rfl, rfl⟩

/-- The emptied bay's release is off the slots, and the slots follow the releases. -/
theorem Power.dropRelease_front {p q : Power} {b : Bay} (h : Rebay b p q) (done : (q.bay b).state = .empty) :
    (∃ f, q.dropRelease b (p.bay b).state = { q with toFront := f }) ∧ p.SlotStep (q.dropRelease b (p.bay b).state) := by
  have idle (slot : Fin 32) : ¬ releaseOwes (q.bay b).state slot := by rw [done]; exact id
  cases was : (p.bay b).state with
  | releaseWait r =>
    obtain ⟨f, shape, -⟩ := q.completeRelease_front b r .nothingToRelease false
    exact ⟨⟨f, shape⟩, Power.completeRelease_slots h.state h.inFlight idle was (.refl r) _ _⟩
  | empty => exact ⟨⟨q.toFront, rfl⟩, h.slots fun slot => by rw [was, done]⟩
  | seated | standby | feeding | fault | opened =>
    refine ⟨⟨q.toFront, rfl⟩, h.slots fun slot => ?_⟩
    rw [was, done]
    exact .rfl

/-- The feed can move where the choice rule points, from a feed that is gone. -/
theorem Power.movable_choose {p : Power}
    (others : ∀ b, p.feed.kind ≠ feedOf b → BayAgrees .reservoir b (p.bay b).state (p.link b).activity)
    (identify : ∀ b, identifies (p.link b).activity = true → isSeated (p.bay b).state = true)
    (holdover : p.feed.holdover.isSome = true → p.feed.kind = .reservoir) (lean : p.feed.lean = p.feed.holdover.isSome)
    (differs : p.feed.kind ≠ p.choose) : p.Movable p.choose := by
  refine ⟨others, identify, holdover, lean, differs, fun dc => ?_, fun b toward => ?_⟩
  · have stands := p.choose_stands
    rw [dc] at stands
    exact stands
  · have standby := (p.stands_feedOf b).mp (toward ▸ p.choose_stands)
    refine ⟨fun slot owes => by rw [standby] at owes; exact owes, Bool.eq_false_iff.mpr fun reads => ?_⟩
    have seated := identify b reads
    rw [standby] at seated
    cases seated

/-- Presence opening on the feed bay: the feed moves on (R39). -/
theorem Power.unseat_loss {p q : Power} (h : p.Sound) {b : Bay} (l : Loads) (c : LossCause) (changed : Rebay b p q)
    (state : (q.bay b).state = .empty) (link : (q.link b).activity = .idle) (fed : p.feed.kind = feedOf b) (f : Front) :
    let r : Power := { q with toFront := f }
    (r.loss l c).Sound ∧ (r.loss l c).DcWaits ∧ r.SlotStep (r.loss l c) := by
  intro r
  have bay (c : Bay) : r.bay c = q.bay c := by cases c <;> rfl
  have links (c : Bay) : r.link c = q.link c := by cases c <;> rfl
  have feed : r.feed = p.feed := changed.feed
  refine Power.loss_whole (Power.movable_choose (fun c ne => ?_) (fun c => ?_) ?_ ?_ fun same => ?_) l c
  · obtain rfl : c = otherBay b := (eq_or_eq_otherBay b c).resolve_left fun same => ne (same ▸ feed ▸ fed)
    rw [bay, links, changed.state, changed.link]
    exact (h.bays _).of_ne (feed ▸ ne) (reservoir_ne_feedOf _)
  · rw [bay, links]
    rcases eq_or_eq_otherBay b c with rfl | rfl
    · rw [link]; nofun
    · rw [changed.state, changed.link]; exact (h.bays _).identify
  · rw [feed]; exact h.holdover
  · rw [feed]; exact h.lean
  · have standby := (r.stands_feedOf b).mp (by rw [← fed, ← feed, same]; exact r.choose_stands)
    rw [bay, state] at standby
    cases standby

theorem Power.unseat_passes {p : Power} (h : p.Sound) (l : Loads) (b : Bay) : p.Passes (p.unseat l b) := by
  have changed := p.emptyBay_rebay b
  obtain ⟨state, link⟩ := p.emptyBay_bay b
  obtain ⟨⟨f, shape⟩, slots⟩ := Power.dropRelease_front changed state
  have same : (p.bay b).state = (p.bay b).state := rfl
  rw [Power.unseat_eq]
  rw [shape] at slots ⊢
  have feed : ({ p.emptyBay b with toFront := f } : Power).feed = p.feed := changed.feed
  split
  case isTrue fed =>
    obtain ⟨sound, waits, lost⟩ := Power.unseat_loss h l .presence changed state link (feed ▸ fed) f
    exact ⟨sound, fun _ => waits, slots.trans lost⟩
  case isFalse ne =>
    have agrees : BayAgrees p.feed.kind b ((p.emptyBay b).bay b).state ((p.emptyBay b).link b).activity := by
      rw [state, link]
      exact ⟨⟨fun fed => absurd (feed ▸ fed) ne, fun feeds => (nomatch feeds)⟩, rfl, nofun⟩
    split
    case isTrue =>
      have left := Power.leftStandby_passes ((changed.steady h.toSteady agrees).setFront f) l b fun w sw other =>
        ((p.emptyBay b).stands_setFront f _).mpr (changed.stands (fun to_b => absurd to_b other) (h.target w (changed.feed ▸ sw)))
      exact ⟨left.sound, left.dc ∘ changed.dc, slots.trans left.slots⟩
    case isFalse not_standby =>
      exact ⟨(changed.sound h agrees fun standby => absurd ((BayState.isStandby_iff _).mpr standby) not_standby).setFront f, changed.dc,
        slots⟩

theorem Power.seat_passes {p : Power} (h : p.Sound) (b : Bay) : p.Passes (p.seat b) := by
  have closed : p.Aside (p.setBay b { p.bay b with presence := true }) := p.setBay_aside b rfl
  unfold Power.seat
  dsimp only
  split
  case h_1 was =>
    exact (closed.passes h).trans
      (Power.enterSeated_passes (closed.passes h).sound ((closed.states b).trans was) rfl (fun _ => id) nofun)
  case h_2 => exact closed.passes h

/-- An UNLATCHING bay is not the feed (R18). -/
theorem Power.Sound.unlatching {p : Power} (h : p.Sound) {b : Bay} {r : Release} {t : Nat} (was : (p.bay b).state = .releaseWait r)
    (sub : r.sub = .unlatching t) : p.feed.kind ≠ feedOf b := fun fed => by
  have unlatch := (h.bays b).unlatch
  simp only [was, unlatchedFeeds, sub, decide_eq_false_iff_not] at unlatch
  exact unlatch ((h.fed_iff was).mp fed)

theorem Power.senseLatch_passes {p : Power} (h : p.Sound) (b : Bay) (v : Bool) : p.Passes (p.senseLatch b v) := by
  have sensed : p.Aside (p.setBay b { p.bay b with latchOpen := v }) := p.setBay_aside b rfl
  have passed := sensed.passes h
  unfold Power.senseLatch
  dsimp only
  split
  case h_1 r was =>
    split
    case h_1 t sub =>
      have now := (sensed.states b).trans was
      exact .ite (fun _ => passed.trans (Power.confirmOpen_passes passed.sound now (.refl r) (passed.sound.unlatching now sub)))
        fun _ => passed
    case h_2 => exact passed
  case h_2 => exact passed

theorem Power.waitLimit_passes {p : Power} (h : p.Sound) (l : Loads) (b : Bay) : p.Passes (p.waitLimit l b) := by
  unfold Power.waitLimit
  split
  case h_1 r was => exact .ite (fun _ => Power.endRefused_passes h was (.refl r) l _ _) fun _ => .refl h
  case h_2 => exact .refl h

theorem Power.unlatchExpires_passes {p : Power} (h : p.Sound) (b : Bay) : p.Passes (p.unlatchExpires b) := by
  unfold Power.unlatchExpires
  split
  case h_1 r was =>
    split
    case h_1 t sub =>
      have ne := h.unlatching was sub
      exact .ite (fun _ => .ite (fun _ => Power.confirmOpen_passes h was (.refl r) ne) fun _ => Power.endStuck_passes h was (.refl r) ne)
        fun _ => .refl h
    case h_2 => exact .refl h
  case h_2 => exact .refl h

theorem Power.openExpires_passes {p : Power} (h : p.Sound) (b : Bay) : p.Passes (p.openExpires b) := by
  unfold Power.openExpires
  split
  case h_1 t was => exact .ite (fun _ => Power.enterSeated_passes h was rfl (fun _ => id) nofun) fun _ => .refl h
  case h_2 => exact .refl h

/-! ## The feed's events -/

theorem Power.arriveDc_passes {p : Power} (h : p.Sound) : p.Passes p.arriveDc := by
  have sound : (p.setDc true).Sound :=
    ⟨⟨fun b => by cases b <;> exact h.bays _, h.fromBay, h.holdover, h.lean, fun _ => rfl⟩, fun w sw => by
      have stands := h.target w sw
      cases toward : w.target <;> rw [toward] at stands <;> first | rfl | exact stands⟩
  have slots : p.SlotStep (p.setDc true) := .of_same (fun b slot => by cases b <;> exact .rfl) rfl
  refine .ite (fun waits => ⟨sound, fun _ _ => waits.symm, slots⟩) fun moves => ?_
  have ne : (p.setDc true).feed.kind ≠ .dc := fun dc => moves (.inr dc)
  obtain ⟨moved, moved_slots⟩ := Power.moveFeed_sound (sound.movable (t := .dc) rfl ne) .ordinary false
  exact ⟨moved, fun _ _ => .inl ((p.setDc true).moveFeed_feed .dc .ordinary false).1, slots.trans moved_slots⟩

theorem Power.departDc_passes {p : Power} (h : p.Sound) (l : Loads) (ne : p.feed.kind ≠ .dc) : p.Passes (p.departDc l) := by
  have steady : (p.setDc false).Steady :=
    ⟨fun b => by cases b <;> exact h.bays _, h.fromBay, h.holdover, h.lean, fun dc => absurd dc ne⟩
  have slots : p.SlotStep (p.setDc false) := .of_same (fun b slot => by cases b <;> exact .rfl) rfl
  have target (w : Switchover) (sw : p.feed.switchover = some w) (other : w.target ≠ .dc) : (p.setDc false).stands w.target := by
    have stands := h.target w sw
    cases toward : w.target <;> rw [toward] at stands other <;> first | exact absurd rfl other | exact stands
  unfold Power.departDc
  dsimp only
  split
  case h_1 w flight =>
    split
    case isTrue =>
      obtain ⟨sound, waits, failed⟩ := Power.failSwitchover_whole steady l (by rw [flight]; rfl)
      exact ⟨sound, fun _ => waits, slots.trans failed⟩
    case isFalse other =>
      refine ⟨⟨steady, fun v sw => ?_⟩, fun _ present => (nomatch present), slots⟩
      rw [flight] at sw
      cases sw
      exact target w flight other
  case h_2 none_runs => exact ⟨⟨steady, fun w sw => by rw [none_runs] at sw; cases sw⟩, fun _ present => (nomatch present), slots⟩

/-- A feed bay is no candidate of the loss choice. -/
theorem Power.Sound.choose_differs {p : Power} (h : p.Sound) {b : Bay} (fed : p.feed.kind = feedOf b) : p.feed.kind ≠ p.choose := by
  intro same
  have standby := (p.stands_feedOf b).mp (fed ▸ same ▸ p.choose_stands)
  have feeds := (h.bays b).feeds.mp fed
  rw [standby] at feeds
  cases feeds

theorem Power.collapse_passes {p : Power} (h : p.Sound) (l : Loads) {b : Bay} (fed : p.feed.kind = feedOf b) (c : LossCause) :
    p.Passes (p.loss l c) := by
  obtain ⟨sound, waits, slots⟩ := Power.loss_whole (h.movable p.choose_stands (h.choose_differs fed)) l c
  exact ⟨sound, fun _ => waits, slots⟩

theorem Power.loseDc_passes {p : Power} (h : p.Sound) (l : Loads) (dc : p.feed.kind = .dc) :
    p.Passes ((p.setDc false).loss l .dcDeparture) := by
  have slots : p.SlotStep (p.setDc false) := .of_same (fun b slot => by cases b <;> exact .rfl) rfl
  have movable : (p.setDc false).Movable (p.setDc false).choose := by
    refine Power.movable_choose (fun b ne => ?_) (fun b => ?_) h.holdover h.lean fun same => ?_
    · cases b <;> exact (h.bays _).of_ne ne (reservoir_ne_feedOf _)
    · cases b
      · exact (h.bays .A).identify
      · exact (h.bays .B).identify
    · have stands := (p.setDc false).choose_stands
      rw [← same, show (p.setDc false).feed.kind = .dc from dc] at stands
      cases stands
  obtain ⟨sound, waits, lost⟩ := Power.loss_whole movable l .dcDeparture
  exact ⟨sound, fun _ => waits, slots.trans lost⟩

theorem Power.placeEnergy_passes {p : Power} (h : p.Sound) : p.Passes p.placeEnergy := Power.putTable_passes _ h

theorem Power.exhaust_passes {p : Power} (h : p.Sound) {o : Holdover} (runs : p.feed.holdover = some o) : p.Passes (p.exhaust o) := by
  have level (q : Power) {f : Front} {d : FeedRec} (hf : f.inFlight = q.inFlight) (kind : d.kind = q.feed.kind)
      (dc : d.dcPresent = q.feed.dcPresent) (switchover : d.switchover = q.feed.switchover) :
      q.Level { q with toFront := f, feed := d } :=
    ⟨fun b => by cases b <;> rfl, fun b => by cases b <;> exact id, kind, dc, switchover, hf⟩
  have declared : p.Passes { p with feed := { p.feed with holdover := some { o with exhausted := true } } } := by
    refine (level p ?_ ?_ ?_ ?_).passes ?_ ?_ h
    case refine_5 => rw [runs]; rfl
    all_goals rfl
  have held := declared.trans (Power.placeEnergy_passes declared.sound)
  have told (q : Power) (sound : q.Sound) : q.Passes
      { q with feed := { q.feed with causes := { q.feed.causes with exhausted := true } }
               toFront := q.toFront.sendEvent (exhaustedEvent o.planned) } := by
    refine (level q ?_ ?_ ?_ ?_).passes ?_ ?_ sound
    case refine_1 => exact (Front.sendEvent_step _ _).inFlight
    all_goals rfl
  have sent := held.trans (told _ held.sound)
  exact sent.trans ((Power.recordExhaustion_aside _ o).passes sent.sound)

theorem Power.goodSample_passes {p : Power} (h : p.Sound) (l : Loads) (r : PowerReading) : p.Passes (p.goodSample l r) := by
  have recomputed := (p.recompute_aside r).passes h
  have judged {q : Power} (sound : q.Sound) : q.Passes q.judgeExhaustion := by
    unfold Power.judgeExhaustion
    split
    case h_1 => exact .refl sound
    case h_2 o runs => exact .ite (fun _ => Power.exhaust_passes sound runs) fun _ => .refl sound
  have confirmed {q : Power} (sound : q.Sound) : q.Passes (q.judgeSwitchover l r) := by
    unfold Power.judgeSwitchover
    split
    · exact .refl sound
    · exact .ite (fun _ => Power.confirmSwitchover_passes sound l) fun _ => .refl sound
  exact recomputed.trans ((judged recomputed.sound).trans (confirmed (judged recomputed.sound).sound))

theorem Power.Acts.passes {p q : Power} {l : Loads} (h : p.Acts l q) (sound : p.Sound) : p.Passes q := by
  cases h with
  | ruled h => exact h.passes sound
  | seat b => exact Power.seat_passes sound b
  | unseat b present => exact Power.unseat_passes sound l b
  | senseLatch b v => exact Power.senseLatch_passes sound b v
  | pressButton b => exact Power.pressButton_passes sound l b
  | linkReply b d => exact Power.linkReply_passes sound l b d
  | linkTimeout b => exact Power.linkTimeout_passes sound l b
  | identDeadline b => exact Power.identDeadline_passes sound l b
  | waitLimit b => exact Power.waitLimit_passes sound l b
  | unlatchExpires b => exact Power.unlatchExpires_passes sound b
  | openExpires b => exact Power.openExpires_passes sound b
  | arriveDc => exact Power.arriveDc_passes sound
  | loseDc dc => exact Power.loseDc_passes sound l dc
  | departDc ne => exact Power.departDc_passes sound l ne
  | collapse b fed => exact Power.collapse_passes sound l fed _
  | failSwitchover => exact Power.failSwitchover_passes sound l
  | goodSample r => exact Power.goodSample_passes sound l r

end Sys2Proof.Machine
end

section
/-! PROOF. The two statements of one feed and its slots: what is in flight beside the releases, requests, the curve, the restart (R85, R86, R159 to R162, R170). -/

namespace Sys2Proof.Machine

open Sys2Proof.Safety

/-! ## The slots in flight -/

/-- A slot is in flight exactly while one bay's release owes it or it is one of `X`. -/
structure Power.OwedBeside (p : Power) (X : Fin 32 → Prop) : Prop where
  owed   : ∀ slot, p.flying slot = true ↔ (∃ b, releaseOwes (p.bay b).state slot) ∨ X slot
  bays   : ∀ slot b c, releaseOwes (p.bay b).state slot → releaseOwes (p.bay c).state slot → b = c
  beside : ∀ slot b, releaseOwes (p.bay b).state slot → ¬ X slot

theorem slotsOwed_iff (s : Blocks) : SlotsOwed s ↔ s.toPower.OwedBeside (curveOwes s.blc) := by
  constructor
  · rintro ⟨owed, bays, curveA, curveB⟩
    refine ⟨fun slot => (owed slot).trans ⟨?_, ?_⟩, fun slot b c => ?_, fun slot b owes curve => ?_⟩
    · rintro (a | b | curve)
      · exact .inl ⟨.A, a⟩
      · exact .inl ⟨.B, b⟩
      · exact .inr curve
    · rintro (⟨b, owes⟩ | curve)
      · cases b
        · exact .inl owes
        · exact .inr (.inl owes)
      · exact .inr (.inr curve)
    · cases b <;> cases c <;> intro x y
      · rfl
      · exact absurd ⟨x, y⟩ (bays slot)
      · exact absurd ⟨y, x⟩ (bays slot)
      · rfl
    · cases b
      · exact curveA slot ⟨owes, curve⟩
      · exact curveB slot ⟨owes, curve⟩
  · rintro ⟨owed, bays, beside⟩
    refine ⟨fun slot => (owed slot).trans ⟨?_, ?_⟩, fun slot both => ?_, fun slot both => beside slot .A both.1 both.2,
      fun slot both => beside slot .B both.1 both.2⟩
    · rintro (⟨b, owes⟩ | curve)
      · cases b
        · exact .inl owes
        · exact .inr (.inl owes)
      · exact .inr (.inr curve)
    · rintro (a | b | curve)
      · exact .inl ⟨.A, a⟩
      · exact .inl ⟨.B, b⟩
      · exact .inr curve
    · cases bays slot .A .B both.1 both.2

theorem Power.SlotStep.owedBeside {p q : Power} (h : p.SlotStep q) {X : Fin 32 → Prop} (was : p.OwedBeside X) : q.OwedBeside X := by
  refine ⟨fun slot => ?_, fun slot b c x y => was.bays slot b c (h.owes b slot x) (h.owes c slot y),
    fun slot b owes => was.beside slot b (h.owes b slot owes)⟩
  rw [h.flying, was.owed]
  constructor
  · rintro ⟨⟨b, owes⟩ | x, kept⟩
    · exact .inl ⟨b, kept b owes⟩
    · exact .inr x
  · rintro (⟨b, owes⟩ | x)
    · exact ⟨.inl ⟨b, h.owes b slot owes⟩, fun c other => was.bays slot b c (h.owes b slot owes) other ▸ owes⟩
    · exact ⟨.inr x, fun b owes => absurd x (was.beside slot b owes)⟩

theorem Power.OwedBeside.congr {p : Power} {X Y : Fin 32 → Prop} (h : p.OwedBeside X) (same : ∀ slot, X slot ↔ Y slot) : p.OwedBeside Y :=
  (funext fun slot => propext (same slot) : X = Y) ▸ h

theorem Power.bay_setFront (p : Power) (f : Front) (b : Bay) : ({ p with toFront := f } : Power).bay b = p.bay b := by cases b <;> rfl

/-- One slot beside the releases completes. -/
theorem Power.OwedBeside.completed {p : Power} {X : Fin 32 → Prop} {slot : Fin 32} (h : p.OwedBeside fun i => X i ∨ i = slot)
    (free : ¬ X slot) (c : Completion) : ({ p with toFront := p.toFront.complete slot c } : Power).OwedBeside X := by
  refine ⟨fun i => ?_, fun i b d => ?_, fun i b => ?_⟩
  · show (p.toFront.complete slot c).flying i = true ↔ _
    rw [Front.flying_complete, h.owed]
    simp only [Power.bay_setFront]
    constructor
    · rintro ⟨owes | x | same, ne⟩
      · exact .inl owes
      · exact .inr x
      · exact absurd same ne
    · rintro (⟨b, owes⟩ | x)
      · exact ⟨.inl ⟨b, owes⟩, fun same => h.beside i b owes (.inr same)⟩
      · exact ⟨.inr (.inl x), fun same => free (same ▸ x)⟩
  · simp only [Power.bay_setFront]; exact h.bays i b d
  · simp only [Power.bay_setFront]; exact fun owes x => h.beside i b owes (.inl x)

/-! ## The take of a request -/

theorem Front.flying_markTaken (f : Front) (slot i : Fin 32) : (f.markTaken slot).flying i = true ↔ f.flying i = true ∨ i = slot := by
  rw [Front.flying_iff, Front.flying_iff]
  show (∃ e ∈ f.inFlight ++ [f.copyOf slot], e.slot = i) ↔ _
  simp only [List.mem_append, List.mem_singleton]
  constructor
  · rintro ⟨e, mem | rfl, rfl⟩
    · exact .inl ⟨e, mem, rfl⟩
    · exact .inr rfl
  · rintro (⟨e, mem, rfl⟩ | rfl)
    · exact ⟨e, .inl mem, rfl⟩
    · exact ⟨_, .inr rfl, rfl⟩

/-- The slot of a take is in flight and owed by no one yet (R161). -/
theorem Power.OwedBeside.taken {p : Power} {X : Fin 32 → Prop} {slot : Fin 32} (h : p.OwedBeside X) (free : p.flying slot = false) :
    ({ p with toFront := p.toFront.markTaken slot } : Power).OwedBeside fun i => X i ∨ i = slot := by
  refine ⟨fun i => ?_, fun i b c => ?_, fun i b => ?_⟩
  · show (p.toFront.markTaken slot).flying i = true ↔ _
    rw [Front.flying_markTaken, h.owed]
    simp only [Power.bay_setFront, or_assoc]
  · simp only [Power.bay_setFront]; exact h.bays i b c
  · simp only [Power.bay_setFront]
    rintro owes (x | rfl)
    · exact h.beside i b owes x
    · exact Bool.eq_false_iff.mp free ((h.owed i).mpr (.inl ⟨b, owes⟩))

/-- A software release owes its slot as it starts (R14). -/
theorem Power.OwedBeside.held {p : Power} {X : Fin 32 → Prop} {slot : Fin 32} (h : p.OwedBeside fun i => X i ∨ i = slot) (free : ¬ X slot)
    {b : Bay} {f : FormerState} (starts : (p.bay b).state.former = some f) : (p.heldRelease b f (.software slot)).OwedBeside X := by
  have cleared := p.clearForRelease_aside b f
  have changed := Rebay.setState b (p.clearForRelease b f) (.releaseWait (p.newRelease b f (.software slot)))
  have own (i : Fin 32) : releaseOwes ((p.heldRelease b f (.software slot)).bay b).state i ↔ i = slot := by
    rw [p.heldRelease_state]
    exact ⟨fun owes => (Origin.software.inj owes.1).symm, fun same => ⟨by rw [same]; rfl, rfl⟩⟩
  have other (i : Fin 32) : releaseOwes ((p.heldRelease b f (.software slot)).bay (otherBay b)).state i ↔
      releaseOwes (p.bay (otherBay b)).state i := by rw [← cleared.states, ← changed.state]; rfl
  have flying (i : Fin 32) : (p.heldRelease b f (.software slot)).flying i = p.flying i := by
    unfold Front.flying Front.entryOf
    rw [show (p.heldRelease b f (.software slot)).inFlight = p.inFlight from changed.inFlight.trans cleared.inFlight]
  have ours (c : Bay) (i : Fin 32) (owes : releaseOwes ((p.heldRelease b f (.software slot)).bay c).state i) :
      c = b ∧ i = slot ∨ c = otherBay b ∧ releaseOwes (p.bay (otherBay b)).state i := by
    rcases eq_or_eq_otherBay b c with same | same
    · exact .inl ⟨same, (own i).mp (same ▸ owes)⟩
    · exact .inr ⟨same, (other i).mp (same ▸ owes)⟩
  have idle (i : Fin 32) : ¬ releaseOwes (p.bay b).state i := not_owes_of_former starts i
  have apart (i : Fin 32) (owes : releaseOwes (p.bay (otherBay b)).state i) : i ≠ slot := fun same => h.beside i _ owes (.inr same)
  refine ⟨fun i => ?_, fun i c d x y => ?_, fun i c owes x => ?_⟩
  · rw [flying, h.owed]
    constructor
    · rintro (⟨c, owes⟩ | x | same)
      · rcases eq_or_eq_otherBay b c with rfl | rfl
        · exact absurd owes (idle i)
        · exact .inl ⟨_, (other i).mpr owes⟩
      · exact .inr x
      · exact .inl ⟨b, (own i).mpr same⟩
    · rintro (⟨c, owes⟩ | x)
      · rcases eq_or_eq_otherBay b c with rfl | rfl
        · exact .inr (.inr ((own i).mp owes))
        · exact .inl ⟨_, (other i).mp owes⟩
      · exact .inr (.inl x)
  · rcases ours c i x with ⟨rfl, same⟩ | ⟨rfl, before⟩ <;> rcases ours d i y with ⟨hd, same'⟩ | ⟨hd, before'⟩
    · exact hd.symm
    · exact absurd same (apart i before')
    · exact absurd same' (apart i before)
    · exact hd.symm
  · rcases ours c i owes with ⟨-, rfl⟩ | ⟨-, before⟩
    · exact free x
    · exact h.beside i _ before (.inl x)

theorem Power.Does.passes {p q : Power} {l : Loads} (h : p.Does l q) (sound : p.Sound) : p.Passes q := by
  cases h with
  | ruled h => exact h.passes sound
  | cancel b r was => exact Power.cancelRelease_passes sound was (.refl r) l

/-- A whole part: one feed, a present DC input feeding or waiting. -/
structure Power.Whole (p : Power) : Prop where
  sound : p.Sound
  dc    : p.DcWaits

theorem Power.Passes.whole {p q : Power} (h : p.Passes q) (was : p.Whole) : q.Whole := ⟨h.sound, h.dc was.dc⟩

theorem Power.Whole.setFront {p : Power} (h : p.Whole) (f : Front) : ({ p with toFront := f } : Power).Whole := ⟨h.sound.setFront f, h.dc⟩

theorem Blocks.supersede_whole {s : Blocks} (h : s.toPower.Whole) : s.supersede.toPower.Whole := by
  unfold Blocks.supersede
  split
  · exact h
  · exact h.setFront _

theorem Blocks.Performs.whole {slot : Fin 32} {s t : Blocks} (h : s.Performs slot t) (was : s.toPower.Whole) : t.toPower.Whole := by
  cases h with
  | finished c does curve => exact ((does.passes was.sound).whole was).setFront _
  | release b f starts =>
    have started := Power.startRelease_passes was.sound s.loads (.software slot) starts
    exact ⟨started.sound, started.dc (Power.heldRelease_dc was.sound _ was.dc)⟩
  | curve points clamped => exact Blocks.supersede_whole was

theorem curveOwes_of_none {l : LightRec} (h : l.pendingCurve = none) (slot : Fin 32) : ¬ curveOwes l slot := by
  rintro ⟨c, pending, -⟩
  rw [h] at pending
  cases pending

theorem curveOwes_of_some {l : LightRec} {c : PendingCurve} (h : l.pendingCurve = some c) (slot : Fin 32) : curveOwes l slot ↔ slot = c.slot := by
  constructor
  · rintro ⟨d, pending, rfl⟩
    rw [h] at pending
    cases pending
    rfl
  · rintro rfl
    exact ⟨c, h, rfl⟩

theorem curveOwes_congr {l m : LightRec} (h : l.pendingCurve = m.pendingCurve) : curveOwes l = curveOwes m := by
  unfold curveOwes; rw [h]

/-- The curve that was pending has completed its slot (R86). -/
theorem Blocks.supersede_owed {s : Blocks} {slot : Fin 32} (h : s.toPower.OwedBeside fun i => curveOwes s.blc i ∨ i = slot)
    (free : ¬ curveOwes s.blc slot) : s.supersede.toPower.OwedBeside fun i => i = slot := by
  unfold Blocks.supersede
  split
  case h_1 none_pends => exact h.congr fun i => or_iff_right (curveOwes_of_none none_pends i)
  case h_2 c pending =>
    refine Power.OwedBeside.completed (h.congr fun i => ?_) (fun same => free ((curveOwes_of_some pending slot).mpr same.symm)) _
    rw [curveOwes_of_some pending, or_comm]

theorem Blocks.Performs.owed {slot : Fin 32} {s t : Blocks} (h : s.Performs slot t) (sound : s.toPower.Sound)
    (was : s.toPower.OwedBeside fun i => curveOwes s.blc i ∨ i = slot) (free : ¬ curveOwes s.blc slot) :
    t.toPower.OwedBeside (curveOwes t.blc) := by
  cases h with
  | finished c does curve =>
    rw [← curveOwes_congr curve] at was free
    exact ((does.passes sound).slots.owedBeside was).completed free c
  | release b f starts =>
    exact (Power.startRelease_passes sound s.loads (.software slot) starts).slots.owedBeside (was.held free starts)
  | curve points clamped =>
    have pends : (s.supersede.withLight { s.supersede.blc with pendingCurve := some ⟨points, slot, clamped⟩ }).blc.pendingCurve
        = some ⟨points, slot, clamped⟩ := rfl
    exact (Blocks.supersede_owed was free).congr fun i => (curveOwes_of_some pends i).symm

/-! ## The exchange restart -/

theorem Power.takeFormer_setBay (p : Power) (b : Bay) (st : BayState) (r : Release) :
    (p.setBay b { p.bay b with state := st }).takeFormer b r = p.takeFormer b r := by
  unfold Power.takeFormer
  cases r.former with
  | seated => cases b <;> rfl
  | standby => cases b <;> rfl
  | feeding => cases b <;> rfl
  | fault x => cases b <;> rfl

/-- A cancelled release whose slot the restart has completed already is one whose slot is no longer open. -/
theorem Power.cancelRelease_closed (p : Power) (l : Loads) (b : Bay) (r : Release) :
    p.cancelRelease l b r = (p.setBay b { p.bay b with state := .releaseWait r }).cancelRelease l b r := by
  unfold Power.cancelRelease Power.endCancelled
  rw [p.takeFormer_setBay]
  split
  · cases b <;> rfl
  · rfl
  · rfl

/-- A release without its slot: nothing else that the feed or the slots rest on is changed. -/
theorem Power.closeSlot_sound {p : Power} (h : p.Sound) {b : Bay} {r : Release} (was : (p.bay b).state = .releaseWait r) :
    (p.setBay b { p.bay b with state := .releaseWait { r with slotOpen := false } }).Sound := by
  have changed := Rebay.setBay b p { p.bay b with state := .releaseWait { r with slotOpen := false } }
  refine changed.sound h ?_ fun standby => ?_
  · have agrees := h.bays b
    rw [was] at agrees
    rw [Power.setBay_bay, Power.setBay_link]
    exact ⟨agrees.feeds, agrees.unlatch, agrees.identify⟩
  · rw [was] at standby; cases standby

/-- What the restart does to a bay's release: the bay owes no slot after it, no bay owes a new one, and nothing comes in flight (R20, R25). -/
structure Power.Aborts (b : Bay) (p q : Power) : Prop where
  sound  : q.Sound
  dc     : p.DcWaits → q.DcWaits
  owes   : ∀ c slot, releaseOwes (q.bay c).state slot → releaseOwes (p.bay c).state slot
  free   : ∀ slot, ¬ releaseOwes (q.bay b).state slot
  flying : ∀ slot, q.flying slot = true → p.flying slot = true

theorem Power.abortRelease_aborts {p : Power} (h : p.Sound) (l : Loads) (b : Bay) : Aborts b p (p.abortRelease l b) := by
  unfold Power.abortRelease
  split
  case h_1 r was =>
    split
    case h_1 slot soft =>
      rw [p.cancelRelease_closed]
      have changed := Rebay.setBay b p { p.bay b with state := .releaseWait { r with slotOpen := false } }
      have shut (i : Fin 32) : ¬ releaseOwes ((p.setBay b { p.bay b with state := .releaseWait { r with slotOpen := false } }).bay b).state i := by
        rw [Power.setBay_bay]
        exact fun owes => nomatch owes.2
      have passes := Power.cancelRelease_passes (Power.closeSlot_sound h was) (r := { r with slotOpen := false })
        (congrArg BayRec.state (Power.setBay_bay _ _ _)) (.refl _) l
      refine ⟨passes.sound, passes.dc ∘ changed.dc, fun c i owes => ?_, fun i owes => shut i (passes.slots.owes b i owes), fun i flies => ?_⟩
      · have before := passes.slots.owes c i owes
        rcases eq_or_eq_otherBay b c with rfl | rfl
        · exact absurd before (shut i)
        · exact changed.state ▸ before
      · have flew := ((passes.slots.flying i).mp flies).1
        unfold Front.flying Front.entryOf at flew ⊢
        rwa [changed.inFlight] at flew
    case h_2 button =>
      refine ⟨h, id, fun _ _ => id, fun slot owes => ?_, fun _ => id⟩
      rw [was] at owes
      have soft := owes.1
      rw [button] at soft
      cases soft
  case h_2 other =>
    refine ⟨h, id, fun _ _ => id, fun slot owes => ?_, fun _ => id⟩
    cases st : (p.bay b).state with
    | releaseWait r => exact other r st
    | empty | seated | standby | feeding | fault | opened => rw [st] at owes; exact owes

theorem Power.restart_whole {p : Power} (h : p.Whole) (l : Loads) (gone : HoldEntry → Bool) :
    let q := ((p.abortRelease l .A).abortRelease l .B).removeHolds l gone
    q.Whole ∧ (∀ b slot, ¬ releaseOwes (q.bay b).state slot) ∧ ∀ slot, q.flying slot = true → p.flying slot = true := by
  have first := Power.abortRelease_aborts h.sound l .A
  have second := Power.abortRelease_aborts first.sound l .B
  have lifted := (Power.removeHolds_ruled _ l gone).passes second.sound
  refine ⟨⟨lifted.sound, lifted.dc (second.dc (first.dc h.dc))⟩, fun b slot owes => ?_, fun slot flies =>
    first.flying slot (second.flying slot ((lifted.slots.flying slot).mp flies).1)⟩
  have before := lifted.slots.owes b slot owes
  cases b
  · exact first.free slot (second.owes .A slot before)
  · exact second.free slot before

theorem Blocks.restartJobs_whole {s : Blocks} (h : s.toPower.Whole) : s.restartJobs.toPower.Whole := by
  rw [s.restartJobs_power]
  exact (Power.restart_whole (h.setFront _) _ _).1

theorem Blocks.restartJobs_curve (s : Blocks) : s.restartJobs.blc.pendingCurve = none := rfl

theorem Front.flying_abortAll (f : Front) (slot : Fin 32) : f.abortAll.flying slot = false := rfl

/-- After the restart nothing is in flight and nothing is owed. -/
theorem Blocks.restartJobs_owed {s : Blocks} (h : s.toPower.Whole) : s.restartJobs.toPower.OwedBeside (curveOwes s.restartJobs.blc) := by
  have none_pends := curveOwes_of_none s.restartJobs_curve
  rw [s.restartJobs_power]
  obtain ⟨-, idle, landed⟩ := Power.restart_whole (h.setFront s.toFront.abortAll) s.loads fun e => decide (e.holder = .software)
  refine ⟨fun slot => ⟨fun flies => ?_, ?_⟩, fun slot b c owes => absurd owes (idle b slot), fun slot b owes => absurd owes (idle b slot)⟩
  · have flew := landed slot flies
    rw [show Front.flying _ slot = false from s.toFront.flying_abortAll slot] at flew
    cases flew
  · rintro (⟨b, owes⟩ | curve)
    · exact absurd owes (idle b slot)
    · exact absurd curve (none_pends slot)

/-! ## Every command keeps both -/

theorem Blocks.adoptCurve_whole {s : Blocks} (h : s.toPower.Whole) : s.adoptCurve.toPower.Whole := by
  unfold Blocks.adoptCurve
  split
  · exact h
  · exact h.setFront _

/-- The adopted curve's slot completes (R85). -/
theorem Blocks.adoptCurve_owed {s : Blocks} (h : s.toPower.OwedBeside (curveOwes s.blc)) :
    s.adoptCurve.toPower.OwedBeside (curveOwes s.adoptCurve.blc) := by
  unfold Blocks.adoptCurve
  split
  case h_1 => exact h
  case h_2 c pending =>
    refine Power.OwedBeside.completed (h.congr fun i => ?_) (curveOwes_of_none rfl c.slot) _
    rw [curveOwes_of_some pending, or_iff_right (curveOwes_of_none rfl i)]

theorem whole_kept : Blocks.Kept fun s => s.toPower.Whole where
  moves moves whole := (moves.power.passes whole.sound).whole whole
  event acts _ whole := (acts.passes whole.sound).whole whole
  take _ performs whole := performs.whole (whole.setFront _)
  point := Blocks.adoptCurve_whole
  restart := Blocks.restartJobs_whole

theorem owed_kept : Blocks.Kept fun s => s.toPower.Whole ∧ s.toPower.OwedBeside (curveOwes s.blc) where
  moves moves h := ⟨whole_kept.moves moves h.1, curveOwes_congr moves.curve ▸ (moves.power.passes h.1.sound).slots.owedBeside h.2⟩
  event acts curve h := ⟨whole_kept.event acts curve h.1, curveOwes_congr curve ▸ (acts.passes h.1.sound).slots.owedBeside h.2⟩
  take {s _ slot} free performs h := by
    refine ⟨whole_kept.take free performs h.1, performs.owed (h.1.setFront _).sound (h.2.taken free) fun curve => ?_⟩
    exact Bool.eq_false_iff.mp free ((h.2.owed slot).mpr (.inr curve))
  point h := ⟨Blocks.adoptCurve_whole h.1, Blocks.adoptCurve_owed h.2⟩
  restart h := ⟨Blocks.restartJobs_whole h.1, Blocks.restartJobs_owed h.1⟩

/-! ## The two statements -/

theorem powerOnBlocks_oneFeed (a b : Bool) : OneFeed (powerOnBlocks a b).toPower := by
  refine ⟨fun b => ?_, fun b => ?_, fun b => ?_, nofun, nofun, nofun, rfl, nofun, nofun⟩
  · cases b <;> exact ⟨nofun, nofun⟩
  · cases b <;> rfl
  · cases b <;> exact nofun

theorem powerOnBlocks_inFlight (a b : Bool) : (powerOnBlocks a b).inFlight = [] := (Front.makeRecord_step _ _).inFlight

theorem powerOnBlocks_slotsOwed (a b : Bool) : SlotsOwed (powerOnBlocks a b) := by
  have flies_none (slot : Fin 32) : (powerOnBlocks a b).flying slot = false := by
    unfold Front.flying Front.entryOf
    rw [powerOnBlocks_inFlight]
    rfl
  have idle (st : BayState) (h : st = .empty) (slot : Fin 32) : ¬ releaseOwes st slot := h ▸ id
  have curve (slot : Fin 32) : ¬ curveOwes (powerOnBlocks a b).blc slot := curveOwes_of_none rfl slot
  refine ⟨fun slot => ⟨fun flies => (nomatch (flies_none slot).symm.trans flies), ?_⟩, fun slot owes => idle _ rfl slot owes.1, fun slot owes => idle _ rfl slot owes.1,
    fun slot owes => idle _ rfl slot owes.1⟩
  rintro (owes | owes | owes)
  · exact absurd owes (idle _ rfl slot)
  · exact absurd owes (idle _ rfl slot)
  · exact absurd owes (curve slot)

theorem whole_iff (p : Power) : OneFeed p ↔ p.Whole := (oneFeed_iff p).trans ⟨fun h => ⟨h.1, h.2⟩, fun h => ⟨h.sound, h.dc⟩⟩

theorem Blocks.tick_whole {x : Blocks} (h : x.toPower.Whole) (m : Timebase) : ({ x with tmb := m } : Blocks).toPower.Whole := h.setFront _

theorem Blocks.tick_owed {x : Blocks} (h : x.toPower.OwedBeside (curveOwes x.blc)) (m : Timebase) :
    ({ x with tmb := m } : Blocks).toPower.OwedBeside (curveOwes x.blc) := ⟨h.owed, h.bays, h.beside⟩

/-- Settles O54: the invariant is cut into a sound part and a waiting DC input, and every operation on the feed and its bays keeps both. -/
theorem everyStepKeepsOneFeed : Obligations.EveryStepKeepsOneFeed := fun _ t one hs =>
  (whole_iff t.toPower).mpr <| step_keeps (I := fun x => x.toPower.Whole) exec_acts (fun _ h => Blocks.tick_whole h _)
    (fun a b _ => (whole_iff _).mp (powerOnBlocks_oneFeed a b)) (fun _ _ acts => whole_kept.acts acts) ((whole_iff _).mp one) hs

/-- Settles O56: releases, requests, the curve and the restart each pass on or complete the slots that they answer for. -/
theorem everyStepKeepsSlotsOwed : Obligations.EveryStepKeepsSlotsOwed := fun _ t one owed hs =>
  (slotsOwed_iff t.toBlocks).mpr <| And.right <|
    step_keeps (I := fun x => x.toPower.Whole ∧ x.toPower.OwedBeside (curveOwes x.blc)) exec_acts
      (fun _ h => ⟨Blocks.tick_whole h.1 _, Blocks.tick_owed h.2 _⟩)
      (fun a b _ => ⟨(whole_iff _).mp (powerOnBlocks_oneFeed a b), (slotsOwed_iff (powerOnBlocks a b)).mp (powerOnBlocks_slotsOwed a b)⟩)
      (fun _ _ acts => owed_kept.acts acts) ⟨(whole_iff _).mp one, (slotsOwed_iff _).mp owed⟩ hs

end Sys2Proof.Machine
end

section
/-! PROOF. The queue, the clock, the supply, the invariants at reset (R143, R174, R175). -/

namespace Sys2Proof.Machine

open Sys2Proof.Safety

/-- Settles O53: each part of the invariants is its base fact after power-on reset. -/
theorem resetMeetsTheInvariants : Obligations.ResetMeetsTheInvariants := by
  obtain ⟨panel, duties, dark⟩ := powerOnBlocks_light false false
  exact ⟨wf_reset, rfl, rfl, powerOnBlocks_gensEven _ _, powerOnBlocks_logAccounted _ _, dark, panel, duties, powerOnBlocks_motion _ _,
    powerOnBlocks_policy _ _, rfl, powerOnBlocks_holdsBeatReleases _ _, powerOnBlocks_holdsDistinct _ _, powerOnBlocks_waitRuns _ _,
    powerOnBlocks_oneFeed _ _, powerOnBlocks_slotsOwed _ _⟩

/-- Settles O1. -/
theorem stepRunsTheQueueOrCountsTime : Obligations.StepRunsTheQueueOrCountsTime := by
  refine ⟨fun c cs s h => ?_, fun s h => ?_⟩ <;> simp only [step, h, State.tick]

/-- The bytes of a host write are as many as it names. -/
theorem length_writeDataBytes (d : WriteData) : (writeDataBytes d).length = d.size := by
  cases d with
  | one v => rfl
  | two v => exact length_leBytes 2 _
  | four v => exact length_leBytes 4 _

/-- Every row but those of the supply, of the ignored offsets and of the area is a change of a running part's blocks. -/
theorem exec_cases (c : Instr) : (∃ a b, c = .powerOnReset a b) ∨ c = .keepAliveFail ∨ (∃ o w, c = .registerWriteIgnored o w)
    ∨ (∃ a d, c = .hostMemoryWrite a d) ∨ ∀ s, ∃ f, exec c s = s.whilePowered f := by
  cases c with
  | powerOnReset a b => exact .inl ⟨a, b, rfl⟩
  | keepAliveFail => exact .inr (.inl rfl)
  | registerWriteIgnored o w => exact .inr (.inr (.inl ⟨o, w, rfl⟩))
  | hostMemoryWrite a d => exact .inr (.inr (.inr (.inl ⟨a, d, rfl⟩)))
  | releaseBay | cancelRelease | setEnergyPolicy | setReservoir | loadCurve | setLightMode | setPanel | setMotion | placeHold | liftHold
  | setMonitor | clearMonitors | thawMonitors | setTime | unknownRequest =>
    exact .inr (.inr (.inr (.inr fun s => ⟨_, exec_of_requestOf rfl s⟩)))
  | _ =>
    refine .inr (.inr (.inr (.inr fun s => ?_)))
    simp only [exec_presenceClosed, exec_presenceOpened, exec_latchSenseChange, exec_buttonPress, exec_packLinkReply,
      exec_packLinkTimeout, exec_identificationRetry, exec_identificationDeadline, exec_pollDue, exec_releaseWaitLimit,
      exec_unlatchWait, exec_openWindow, exec_refusalBlinkEnd, exec_dcArrival, exec_dcDeparture, exec_packCollapse,
      exec_switchoverDeadline, exec_powerSenseSample, exec_powerSenseLost, exec_thermistorReading, exec_thermistorLost,
      exec_ambientSample_eq, exec_ambientLost, exec_accelSample, exec_sampleWatch, exec_liftDeadline, exec_settleDeadline,
      exec_holdExpiry, exec_storageAcknowledge, exec_ackDeadline, exec_periodicTimer, exec_frameStart, exec_freeRunPoint,
      exec_frameWatchDeadline, exec_panelEnableFall, exec_panelEnableRise, exec_sweepTimer, exec_energyPagePeriodic,
      exec_motionPagePeriodic, exec_timePagePeriodic, exec_calendarStep, exec_attentionRequests, exec_attentionLog,
      exec_attentionTrace_eq, exec_exchangeEnable, exec_exchangeRestart, exec_hostLinkReset, exec_summaryWrite,
      exec_summaryEnableWrite]
    exact ⟨_, rfl⟩

theorem exec_hostMemoryWrite_outside {a : Nat} {d : WriteData} (h : 16384 < a + d.size) (s : State) :
    exec (.hostMemoryWrite a d) s = .fault .outsideExchangeArea := by
  rw [exec_hostMemoryWrite, length_writeDataBytes]
  exact if_pos h

theorem exec_hostMemoryWrite_inside {a : Nat} {d : WriteData} (h : a + d.size ≤ 16384) (s : State) :
    exec (.hostMemoryWrite a d) s = s.whilePowered fun x => x.quiet fun f => f.write a (writeDataBytes d) := by
  rw [exec_hostMemoryWrite, length_writeDataBytes]
  exact if_neg (Nat.not_lt.mpr h)

/-- Every command completes, but a write that reaches outside the area. -/
theorem exec_completes (c : Instr) (s : State) : (∃ t, exec c s = .next t ∧ t.pending = s.pending)
    ∨ ∃ offset data, c = .hostMemoryWrite offset data ∧ 16384 < offset + data.size ∧ exec c s = .fault .outsideExchangeArea := by
  rcases exec_cases c with ⟨a, b, rfl⟩ | rfl | ⟨o, w, rfl⟩ | ⟨a, d, rfl⟩ | acts
  · exact .inl ⟨_, rfl, rfl⟩
  · exact .inl ⟨_, rfl, rfl⟩
  · exact .inl ⟨_, rfl, rfl⟩
  · rcases Nat.lt_or_ge 16384 (a + d.size) with outside | inside
    · exact .inr ⟨a, d, rfl, outside, exec_hostMemoryWrite_outside outside s⟩
    · rw [exec_hostMemoryWrite_inside inside]
      exact .inl (s.whilePowered_next _)
  · obtain ⟨f, eq⟩ := acts s
    rw [eq]
    exact .inl (s.whilePowered_next f)

/-- Settles O2. -/
theorem everyCommandCompletesInsideTheArea : Obligations.EveryCommandCompletesInsideTheArea := by
  refine ⟨fun c s sendable => ?_, fun c s => ?_⟩
  · refine (exec_completes c s).resolve_right ?_
    rintro ⟨a, d, rfl, outside, -⟩
    exact absurd (of_decide_eq_true sendable) (Nat.not_le.mpr outside)
  · exact (exec_completes c s).imp_left fun ⟨t, next, _⟩ => ⟨t, next⟩

/-- Settles O4. -/
theorem unpoweredPartDoesNothing : Obligations.UnpoweredPartDoesNothing := by
  refine ⟨fun s => ⟨_, rfl, rfl, rfl, rfl⟩, fun c s off sendable no_reset no_fail => ?_⟩
  rcases exec_cases c with ⟨a, b, rfl⟩ | rfl | ⟨o, w, rfl⟩ | ⟨a, d, rfl⟩ | acts
  · exact absurd rfl (no_reset a b)
  · exact absurd rfl no_fail
  · rfl
  · rw [exec_hostMemoryWrite_inside (of_decide_eq_true sendable)]
    exact s.whilePowered_off _ off
  · obtain ⟨f, eq⟩ := acts s
    rw [eq]
    exact s.whilePowered_off f off

/-! ## Deadlines -/

/-- A command whose change is none leaves a state with its output signals driven as it is. -/
theorem State.whilePowered_still {s : State} {f : Blocks → Blocks} (on : s.powered = true) (pins : PinsDriven s)
    (same : f s.toBlocks = s.toBlocks) : s.whilePowered f = .next s := by
  rw [s.whilePowered_on f on, same, s.withBlocks_self on pins]

/-- An event of the bays, FHU or HLD whose own change is none changes nothing. -/
theorem Blocks.powerEvent_still {x : Blocks} {core : Power → Loads → Power} (settled : x.due = noCauses) (charger : ChargerSettled x.toPower)
    (same : core x.toPower x.loads = x.toPower) : x.powerEvent core = x :=
  x.runEvent_of_same _ (congrArg x.withPower same) settled charger

theorem Blocks.whenDue_waits {x : Blocks} {d : Option Nat} (early : ∀ n, d = some n → x.tmb.uptime < n) (f : Blocks → Blocks) :
    x.whenDue d f = x := by
  cases d with
  | none => rfl
  | some n => exact x.whenDue_early n f (early n rfl)

theorem Power.identRetry_early {p : Power} {b : Bay} (early : ∀ k t, (p.link b).activity = .identWait k t → p.tmb.uptime < t) :
    p.identRetry b = p := by
  unfold Power.identRetry
  split
  case h_1 k t waits => exact if_neg (Nat.not_le.mpr (early k t waits))
  case h_2 => rfl

theorem Power.identDeadline_early {p : Power} {b : Bay} (early : ∀ d, (p.bay b).state = .seated d → p.tmb.uptime < d) (l : Loads) :
    p.identDeadline l b = p := by
  unfold Power.identDeadline
  split
  case h_1 d seated => exact if_neg (Nat.not_le.mpr (early d seated))
  case h_2 => rfl

theorem Power.pollDue_early {p : Power} {b : Bay} (early : ∀ t, (p.link b).pollAt = some t → p.tmb.uptime < t) : p.pollDue b = p := by
  unfold Power.pollDue
  dsimp only
  split
  case h_1 => rfl
  case h_2 t polls => exact if_neg (Nat.not_le.mpr (early t polls))

theorem Power.waitLimit_early {p : Power} {b : Bay} (l : Loads)
    (early : ∀ r, (p.bay b).state = .releaseWait r → r.sub = .held → p.tmb.uptime < r.limitAt) : p.waitLimit l b = p := by
  unfold Power.waitLimit
  split
  case h_1 r waits => exact if_neg fun both => Nat.not_le.mpr (early r waits both.1) both.2
  case h_2 => rfl

theorem Power.unlatchExpires_early {p : Power} {b : Bay}
    (early : ∀ r t, (p.bay b).state = .releaseWait r → r.sub = .unlatching t → p.tmb.uptime < t) : p.unlatchExpires b = p := by
  unfold Power.unlatchExpires
  split
  case h_1 r waits =>
    split
    case h_1 t unlatching => exact if_neg (Nat.not_le.mpr (early r t waits unlatching))
    case h_2 => rfl
  case h_2 => rfl

theorem Power.openExpires_early {p : Power} {b : Bay} (early : ∀ t, (p.bay b).state = .opened t → p.tmb.uptime < t) :
    p.openExpires b = p := by
  unfold Power.openExpires
  split
  case h_1 t opened => exact if_neg (Nat.not_le.mpr (early t opened))
  case h_2 => rfl

theorem Power.blinkEnds_early {p : Power} {b : Bay} (early : ∀ t, (p.bay b).blinkEnd = some t → p.tmb.uptime < t) : p.blinkEnds b = p := by
  unfold Power.blinkEnds
  split
  case h_1 => rfl
  case h_2 t blinks => exact if_neg (Nat.not_le.mpr (early t blinks))

/-- Settles O5: the row's deadline is what its meaning compares uptime with. -/
theorem deadlinesWaitForTheirUptime : Obligations.DeadlinesWaitForTheirUptime := by
  intro c s d row early on settled pins charger
  have event {core : Power → Loads → Power} (same : core s.toPower s.loads = s.toPower) :
      (s.whilePowered fun x => x.powerEvent core) = .next s :=
    s.whilePowered_still on pins (Blocks.powerEvent_still settled charger same)
  have due (f : Blocks → Blocks) : s.toBlocks.whenDue d f = s.toBlocks := Blocks.whenDue_waits early f
  have still {c : Instr} {f : Blocks → Blocks} (row : exec c s = s.whilePowered f) (same : f s.toBlocks = s.toBlocks) : exec c s = .next s :=
    row.trans (s.whilePowered_still on pins same)
  cases c <;> simp only [deadlineOf, Option.some.injEq, reduceCtorEq] at row <;> subst row
  case identificationRetry b => exact event (Power.identRetry_early fun k t waits => early t (by rw [waits]))
  case identificationDeadline b => exact event (Power.identDeadline_early (fun t seated => early t (by rw [seated])) _)
  case pollDue b => exact event (Power.pollDue_early early)
  case releaseWaitLimit b =>
    exact event (Power.waitLimit_early _ fun r waits held => early r.limitAt (by rw [waits]; exact if_pos held))
  case unlatchWait b => exact event (Power.unlatchExpires_early fun r t waits unlatching => early t (by rw [waits]; dsimp only; rw [unlatching]))
  case openWindow b => exact event (Power.openExpires_early fun t opened => early t (by rw [opened]))
  case refusalBlinkEnd b => exact event (Power.blinkEnds_early early)
  case sampleWatch =>
    rw [exec_sampleWatch]
    refine s.whilePowered_still on pins ?_
    split
    case isTrue => rfl
    case isFalse heard => exact Blocks.whenDue_waits (fun n armed => early n (by rw [if_neg heard, armed])) _
  case presenceClosed b => exact still (exec_presenceClosed b s) (due _)
  case dcArrival => exact still (exec_dcArrival s) (due _)
  case switchoverDeadline => exact still (exec_switchoverDeadline s) (due _)
  case powerSenseSample reading => exact still (exec_powerSenseSample reading s) (due _)
  case powerSenseLost => exact still (exec_powerSenseLost s) (due _)
  case thermistorReading t => exact still (exec_thermistorReading t s) (due _)
  case thermistorLost => exact still (exec_thermistorLost s) (due _)
  case ambientLost => exact still (exec_ambientLost s) (due _)
  case liftDeadline => exact still (exec_liftDeadline s) (due _)
  case settleDeadline => exact still (exec_settleDeadline s) (due _)
  case holdExpiry t => exact still (exec_holdExpiry t s) (due _)
  case ackDeadline => exact still (exec_ackDeadline s) (due _)
  case periodicTimer => exact still (exec_periodicTimer s) (due _)
  case freeRunPoint => exact still (exec_freeRunPoint s) (due _)
  case frameWatchDeadline => exact still (exec_frameWatchDeadline s) (due _)
  case sweepTimer => exact still (exec_sweepTimer s) (due _)
  case energyPagePeriodic => exact still (exec_energyPagePeriodic s) (due _)
  case motionPagePeriodic => exact still (exec_motionPagePeriodic s) (due _)
  case timePagePeriodic => exact still (exec_timePagePeriodic s) (due _)
  case calendarStep => exact still (exec_calendarStep s) (due _)

/-! ## The duty at application points -/

theorem LightRec.stepDuty_eq (l : LightRec) : l.stepDuty = { l with
    liveDuty :=
      if l.panelEnable = false then l.liveDuty
      else if min l.liveDuty l.ceiling < l.pendingDuty then min l.pendingDuty (min l.liveDuty l.ceiling + l.panel.sUp)
      else if l.pendingDuty < min l.liveDuty l.ceiling then max l.pendingDuty (min l.liveDuty l.ceiling - l.panel.sDown)
      else min l.liveDuty l.ceiling } := by
  unfold LightRec.stepDuty
  cases on : l.panelEnable
  · simp [← on]
  · rfl

theorem Blocks.applyPoint_without_curve {x : Blocks} (h : x.blc.pendingCurve = none) : x.applyPoint = x.withLight x.blc.stepDuty := by
  unfold Blocks.applyPoint Blocks.adoptCurve
  rw [h]

theorem AppMode.nextPoint_freeRun (n : Nat) : (AppMode.freeRun n).nextPoint = some n := rfl

theorem AppMode.watchDeadline_frame (d : Nat) : (AppMode.frame d).watchDeadline = some d := rfl

/-- Settles O26. -/
theorem dutyStepsAtPointsAndPanelLine : Obligations.DutyStepsAtPointsAndPanelLine := by
  refine ⟨fun s on none_pends => ?_, fun s on => ?_⟩
  · have point (m : AppMode) : s.applyPoint.withAppMode m = { s.toBlocks with blc := { s.blc.stepDuty with appMode := m } } := by
      rw [Blocks.applyPoint_without_curve none_pends]; rfl
    refine ⟨?_, fun n mode due => ?_, fun d mode due => ?_⟩
    · rw [exec_frameStart, s.whilePowered_on _ on, point, LightRec.stepDuty_eq]
    · rw [exec_freeRunPoint, s.whilePowered_on _ on, mode, AppMode.nextPoint_freeRun, Blocks.whenDue_due _ _ _ due, point, mode,
        LightRec.stepDuty_eq]
      rfl
    · rw [exec_frameWatchDeadline, s.whilePowered_on _ on, mode, AppMode.watchDeadline_frame, Blocks.whenDue_due _ _ _ due, point, mode,
        LightRec.stepDuty_eq]
      rfl
  · refine ⟨by rw [exec_panelEnableFall, s.whilePowered_on _ on]; rfl, fun dark => ?_⟩
    rw [exec_panelEnableRise, s.whilePowered_on _ on, dark]
    exact ⟨_, rfl, rfl, rfl, rfl⟩

end Sys2Proof.Machine
end

section
/-! PROOF. Bytes of the exchange area and what the host writes into them: posts, register writes, memory writes (R155, R160, R161, R165 to R169). -/

namespace Sys2Proof.Machine

open Sys2Proof.Safety

/-! ## Bytes -/

/-- Bytes read inside a write. -/
theorem readBytes_writeBytes_within (m : Mem) (a : Nat) (bs : List Byte) (i n : Nat) (h : i + n ≤ bs.length)
    (area : a + bs.length ≤ Config.areaSize) : readBytes (writeBytes m a bs) (a + i) n = (bs.drop i).take n := by
  have whole := readBytes_writeBytes_self m a bs area
  obtain ⟨k, hk⟩ := Nat.exists_eq_add_of_le h
  have cut := readBytes_add (writeBytes m a bs) a i (n + k)
  rw [← Nat.add_assoc, ← hk, whole, readBytes_add] at cut
  have dropped : bs.drop i = readBytes (writeBytes m a bs) (a + i) n ++ readBytes (writeBytes m a bs) (a + i + n) k :=
    (congrArg (List.drop i) cut).trans (List.drop_left' (length_readBytes _ _ _))
  rw [dropped, List.take_left' (length_readBytes _ _ _)]

theorem toNat_append_bytes {w : Nat} (v : BitVec w) (hi lo : BitVec w) (high : hi.toNat = v.toNat) : (hi ++ lo).toNat = 2 ^ w * v.toNat + lo.toNat := by
  rw [BitVec.toNat_append, Nat.shiftLeft_eq, Nat.mul_comm, ← Nat.two_pow_add_eq_or_of_lt lo.isLt, high]

theorem half_of_bytes (v : Half) : (BitVec.ofNat 8 (v.toNat / 256) ++ BitVec.ofNat 8 v.toNat : BitVec 16) = v := by
  apply BitVec.eq_of_toNat_eq
  rw [toNat_append_bytes _ _ _ rfl]
  have := v.isLt
  simp only [BitVec.toNat_ofNat]
  omega

theorem word_of_bytes (v : Word) :
    ((BitVec.ofNat 8 (v.toNat / 256 / 256 / 256) ++ BitVec.ofNat 8 (v.toNat / 256 / 256) : BitVec 16)
      ++ (BitVec.ofNat 8 (v.toNat / 256) ++ BitVec.ofNat 8 v.toNat : BitVec 16) : BitVec 32) = v := by
  apply BitVec.eq_of_toNat_eq
  rw [toNat_append_bytes _ _ _ rfl, toNat_append_bytes _ _ _ rfl, toNat_append_bytes _ _ _ rfl]
  have := v.isLt
  simp only [BitVec.toNat_ofNat]
  omega

/-- A request's argument bytes spell the request (Table 10-8). -/
theorem decodeRequest_args {c : Instr} {p : Posting} {r : Request} (row : requestOf c = some (p, r)) (sendable : c.wellFormed = true) :
    decodeRequest r.kind r.args = r := by
  cases r with
  | unknown k =>
    have kind : k.toNat = 0 ∨ 15 ≤ k.toNat := by
      cases c <;> simp only [requestOf, Option.some.injEq, Prod.mk.injEq, reduceCtorEq, and_false, Request.unknown.injEq] at row
      obtain ⟨-, rfl⟩ := row
      simpa [Instr.wellFormed] using sendable
    unfold decodeRequest
    split
    case h_15 => rfl
    all_goals
      rename_i known
      change k.toNat = _ at known
      omega
  | releaseBay | cancelRelease | loadCurve | liftHold | clearMonitors | thawMonitors => rfl
  | setEnergyPolicy q c t m r o a =>
    exact (Request.setEnergyPolicy.injEq ..).mpr ⟨rfl, rfl, half_of_bytes t, rfl, half_of_bytes r, half_of_bytes o, word_of_bytes a⟩
  | setReservoir c v e l => exact (Request.setReservoir.injEq ..).mpr ⟨word_of_bytes c, word_of_bytes v, word_of_bytes e, word_of_bytes l⟩
  | setLightMode m v => exact (Request.setLightMode.injEq ..).mpr ⟨rfl, half_of_bytes v⟩
  | setPanel a b c d e f g h =>
    exact (Request.setPanel.injEq ..).mpr ⟨half_of_bytes a, half_of_bytes b, half_of_bytes c, half_of_bytes d, half_of_bytes e,
      half_of_bytes f, half_of_bytes g, half_of_bytes h⟩
  | setMotion a b c d e f g h p t =>
    exact (Request.setMotion.injEq ..).mpr ⟨half_of_bytes a, half_of_bytes b, half_of_bytes c, half_of_bytes d, half_of_bytes e,
      half_of_bytes f, half_of_bytes g, half_of_bytes h, rfl, rfl⟩
  | placeHold t r d => exact (Request.placeHold.injEq ..).mpr ⟨rfl, half_of_bytes r, half_of_bytes d⟩
  | setMonitor i k m e n a g f t p =>
    exact (Request.setMonitor.injEq ..).mpr ⟨rfl, rfl, rfl, rfl, rfl, rfl, rfl, rfl, word_of_bytes t, word_of_bytes p⟩
  | setTime v => exact (Request.setTime.injEq ..).mpr (word_of_bytes v)

/-! ## A post -/

@[simp] theorem Request.length_args (r : Request) : r.args.length = 40 := length_padTo 40 _

theorem slot_in_area (i : Fin 32) : slotAt i + 64 ≤ Config.areaSize := (slotAt_le i).2.trans (by decide)

/-- What the host's posting of a slot writes. -/
theorem Front.post_mem (f : Front) (p : Posting) (r : Request) :
    f.post p r = { f with mem := (f.post p r).mem }
    ∧ keepsOutside [slotRange p.slot] f.mem (f.post p r).mem
    ∧ readBytes (f.post p r).mem (slotAt p.slot) 3 = [1, r.kind, boolByte p.notify]
    ∧ readBytes (f.post p r).mem (slotAt p.slot + 4) 2 = leBytes 2 p.tag.toNat
    ∧ readBytes (f.post p r).mem (slotAt p.slot + 8) 40 = r.args := by
  have area := slot_in_area p.slot
  have inside : slotRange p.slot ∈ [slotRange p.slot] := List.mem_singleton.mpr rfl
  refine ⟨rfl, ?_, ?_, ?_, ?_⟩
  · refine keepsOutside_trans (keepsOutside_trans (keepsOutside_writeBytes _ _ _ _ inside ?_ ?_)
      (keepsOutside_writeBytes _ _ _ _ inside ?_ ?_)) (keepsOutside_writeBytes _ _ _ _ inside ?_ ?_) <;> simp [slotRange]
  · exact readBytes_writeBytes_self _ _ [1, r.kind, boolByte p.notify] (by simp only [List.length_cons, List.length_nil]; omega)
  · refine (readBytes_writeBytes_disjoint _ _ _ _ _ (.inr (by simp))).trans ?_
    exact readBytes_writeBytes_self _ (slotAt p.slot + 4) (leBytes 2 p.tag.toNat) (by rw [length_leBytes]; omega)
  · refine (readBytes_writeBytes_disjoint _ _ _ _ _ (.inr (by simp))).trans ?_
    refine (readBytes_writeBytes_disjoint _ _ _ _ _ (.inr (by simp))).trans ?_
    rw [← r.length_args]
    exact readBytes_writeBytes_self _ (slotAt p.slot + 8) r.args (by rw [r.length_args]; omega)

/-- A posted slot reads POSTED, and the take copies what was posted. -/
theorem Front.post_read (f : Front) (p : Posting) (r : Request) :
    (f.post p r).posted p.slot = true ∧ (f.post p r).copyOf p.slot = ⟨p.slot, r.kind, p.notify, p.tag⟩
    ∧ (f.post p r).requestIn p.slot = decodeRequest r.kind r.args := by
  obtain ⟨-, -, head, tag, args⟩ := f.post_mem p r
  obtain ⟨state, kind, notify⟩ : readByte (f.post p r).mem (slotAt p.slot) = 1 ∧ readByte (f.post p r).mem (slotAt p.slot + 1) = r.kind
      ∧ readByte (f.post p r).mem (slotAt p.slot + 2) = boolByte p.notify := by simpa [readBytes] using head
  obtain ⟨low, high⟩ : readByte (f.post p r).mem (slotAt p.slot + 4) = BitVec.ofNat 8 p.tag.toNat
      ∧ readByte (f.post p r).mem (slotAt p.slot + 5) = BitVec.ofNat 8 (p.tag.toNat / 256) := by simpa [readBytes, leBytes] using tag
  refine ⟨decide_eq_true state, ?_, by unfold Front.requestIn; rw [kind, args]⟩
  unfold Front.copyOf
  rw [kind, notify, low, high, half_of_bytes]
  cases p.notify <;> rfl

/-- Settles O42. -/
theorem postedRequestIsReadBackWhole : Obligations.PostedRequestIsReadBackWhole := by
  intro c p r f row sendable
  obtain ⟨posted, copy, request⟩ := f.post_read p r
  have back := decodeRequest_args row sendable
  exact ⟨back, request.trans back, posted, copy, (f.post_mem p r).2.1⟩

/-- A request posted while it cannot be taken stands in its slot. -/
theorem Blocks.hostPosts_waits {x : Blocks} {p : Posting} (waits : x.exchangeEnable = false ∨ x.flying p.slot = true) (r : Request) :
    x.hostPosts p r = x.withFront (x.toFront.post p r) := by
  refine if_neg fun takes => ?_
  obtain ⟨on, free⟩ := Bool.and_eq_true_iff.mp takes
  rw [Bool.not_eq_true'] at free
  rcases waits with off | flies
  · exact Bool.noConfusion (off.symm.trans on)
  · exact Bool.noConfusion (flies.symm.trans free)

/-- Where the output signals are those of the records, a change of the area alone leaves them. -/
theorem State.withBlocks_mem {s : State} (on : s.powered = true) (pins : PinsDriven s) (m : Mem) :
    s.withBlocks { s.toBlocks with mem := m } = { s with mem := m } := by
  have same : derivePins { s.toBlocks with mem := m } = derivePins s.toBlocks := rfl
  unfold State.withBlocks
  rw [same, ← (show s.pins = derivePins s.toBlocks from pins.trans (if_pos on))]

/-- Settles O43. -/
theorem requestWaitsWhileNotTaken : Obligations.RequestWaitsWhileNotTaken := by
  intro c p r s row on pins waits
  obtain ⟨-, kept, head, tag, args⟩ := s.toFront.post_mem p r
  refine ⟨{ s with mem := (s.toFront.post p r).mem }, ?_, rfl, kept, head, tag, args⟩
  rw [exec_of_requestOf row, s.whilePowered_on _ on, Blocks.hostPosts_waits waits, ← State.withBlocks_mem on pins]
  rfl

/-! ## Writes into the area -/

/-- A write that stays inside the area. -/
theorem exec_hostMemoryWrite_mem {a : Nat} {d : WriteData} {s : State} (on : s.powered = true) (pins : PinsDriven s)
    (inside : a + d.size ≤ 16384) : exec (.hostMemoryWrite a d) s = .next { s with mem := writeBytes s.mem a (writeDataBytes d) } := by
  rw [exec_hostMemoryWrite_inside inside, s.whilePowered_on _ on, ← State.withBlocks_mem on pins]
  rfl

theorem keepsOutside_hostWrite (m : Mem) (a : Nat) (d : WriteData) :
    keepsOutside [(a, a + d.size)] m (writeBytes m a (writeDataBytes d)) :=
  keepsOutside_writeBytes _ _ _ (a, a + d.size) (List.mem_singleton.mpr rfl) (Nat.le_refl a) (by rw [length_writeDataBytes])

/-- A field of `n` bytes reads as the number written, where it fits. -/
theorem readField_writeBytes (m : Mem) (a n v : Nat) (fits : v < 256 ^ n) (inside : a + n ≤ 16384) :
    readField (writeBytes m a (leBytes n v)) a n = v := by
  have back := readBytes_writeBytes_self m a (leBytes n v) (by rw [length_leBytes]; exact inside)
  rw [length_leBytes] at back
  rw [readField, back, ofLe_leBytes, Nat.mod_eq_of_lt fits]

/-- Settles O38. -/
theorem hostWriteChangesItsBytesAlone : Obligations.HostWriteChangesItsBytesAlone := by
  refine ⟨fun a v s on pins inside => ⟨_, exec_hostMemoryWrite_mem on pins inside, rfl, ?_, keepsOutside_hostWrite _ _ (.one v)⟩,
    fun a v s on pins inside => ⟨_, exec_hostMemoryWrite_mem on pins inside, rfl, ?_, keepsOutside_hostWrite _ _ (.two v)⟩,
    fun a v s on pins inside => ⟨_, exec_hostMemoryWrite_mem on pins inside, rfl, ?_, keepsOutside_hostWrite _ _ (.four v)⟩,
    fun a d s outside => exec_hostMemoryWrite_outside outside s⟩
  · exact readByte_writeBytes_inside s.mem a 0 [v] v rfl inside
  · exact readField_writeBytes s.mem a 2 v.toNat v.isLt inside
  · exact readField_writeBytes s.mem a 4 v.toNat v.isLt inside

/-! ## The register window -/

/-- Bit `i` of the bytes that a register write covers. -/
theorem getLsbD_laneMask (lanes : BitVec 4) (i : Nat) (h : i < 32) : (laneMask lanes).getLsbD i = lanes.getLsbD (i / 8) := by
  revert lanes
  interval_cases i <;> decide

theorem getLsbD_summaryMask (i : Nat) : summaryMask.getLsbD i = decide (i < 8) := by
  unfold summaryMask
  rw [show (0xFF : Word) = BitVec.ofNat 32 (2 ^ 8 - 1) from rfl, BitVec.getLsbD_ofNat, Nat.testBit_two_pow_sub_one]
  by_cases low : i < 8
  · simp [low, show i < 32 by omega]
  · simp [low]

/-- A register of eight named bits reads them in its first byte and 0 in the others. -/
theorem readWord_masked (v : Word) :
    (v &&& summaryMask).extractLsb' 0 8 = v.extractLsb' 0 8 ∧ ∀ k, 8 ≤ k → (v &&& summaryMask).extractLsb' k 8 = 0 := by
  refine ⟨BitVec.eq_of_getLsbD_eq fun i hi => ?_, fun k hk => BitVec.eq_of_getLsbD_eq fun i hi => ?_⟩
  · rw [BitVec.getLsbD_extractLsb', BitVec.getLsbD_extractLsb', BitVec.getLsbD_and, getLsbD_summaryMask]
    simp [hi]
  · rw [BitVec.getLsbD_extractLsb', BitVec.getLsbD_and, getLsbD_summaryMask]
    simp [show ¬ k + i < 8 by omega]

theorem Front.register_unused (f : Front) {n : Nat} (h : 5 ≤ n) : f.register n = 0 := by
  unfold Front.register
  split
  case h_6 => rfl
  all_goals omega

theorem Front.readWindow_get (f : Front) (a n i : Nat) (h : i < n) : (f.readWindow a n)[i]? = some (f.windowByte (a + i)) := by
  induction n generalizing a i with
  | zero => omega
  | succ n ih =>
    cases i with
    | zero => rfl
    | succ i =>
      have next := ih (a + 1) i (by omega)
      rwa [show a + 1 + i = a + (i + 1) by omega] at next

/-- The interrupt line is up exactly while an enabled flag is set (R166). -/
theorem interruptLine_iff (v e : Word) : interruptLine v e = true ↔ ∃ i, i < 32 ∧ v.getLsbD i = true ∧ e.getLsbD i = true := by
  unfold interruptLine
  rw [decide_eq_true_iff]
  constructor
  · intro ne
    by_contra none_set
    refine ne (BitVec.eq_of_getLsbD_eq fun i hi => ?_)
    rw [BitVec.getLsbD_and, show (0 : Word).getLsbD i = false from BitVec.getLsbD_zero]
    refine Bool.eq_false_iff.mpr fun both => none_set ⟨i, hi, ?_⟩
    exact Bool.and_eq_true_iff.mp both
  · rintro ⟨i, -, set, enabled⟩ zero
    have bit := congrArg (fun w => w.getLsbD i) zero
    simp [set, enabled] at bit

/-- Settles O37. -/
theorem registerWritesActOnTheirBytes : Obligations.RegisterWritesActOnTheirBytes := by
  refine ⟨fun w s on => ⟨?_, ?_⟩, fun _ _ _ => rfl, fun f => ?_⟩
  · rw [exec_summaryWrite, s.whilePowered_on _ on]
    refine ⟨_, rfl, rfl, fun i hi => ?_, interruptLine_iff _ _⟩
    show (clearedSummary s.summary w).getLsbD i = _
    unfold clearedSummary
    rw [BitVec.getLsbD_and, BitVec.getLsbD_not, BitVec.getLsbD_and, getLsbD_laneMask _ _ hi]
    simp [hi, Bool.and_comm]
  · rw [exec_summaryEnableWrite, s.whilePowered_on _ on]
    refine ⟨_, rfl, rfl, fun i hi => ?_, interruptLine_iff _ _⟩
    show (writtenEnable s.summaryEnable w).getLsbD i = _
    unfold writtenEnable
    rw [BitVec.getLsbD_and, BitVec.getLsbD_or, BitVec.getLsbD_and, BitVec.getLsbD_not, BitVec.getLsbD_and, getLsbD_laneMask _ _ hi,
      getLsbD_summaryMask]
    cases w.lanes.getLsbD (i / 8) <;> simp [hi, Bool.and_comm]
  · have masked (v : Word) (k : Nat) (h : 8 ≤ k) := (readWord_masked v).2 k h
    have named (v : Word) : [(v &&& summaryMask).extractLsb' 0 8, (v &&& summaryMask).extractLsb' 8 8,
        (v &&& summaryMask).extractLsb' 16 8, (v &&& summaryMask).extractLsb' 24 8] = [v.extractLsb' 0 8, 0, 0, 0] := by
      rw [(readWord_masked v).1, masked v 8 (by decide), masked v 16 (by decide), masked v 24 (by decide)]
    have word (v : Word) (bytes : List Byte) (same : [v.extractLsb' 0 8, v.extractLsb' 8 8, v.extractLsb' 16 8, v.extractLsb' 24 8] = bytes)
        (a : Nat) (register : f.readWindow a 4 = [v.extractLsb' 0 8, v.extractLsb' 8 8, v.extractLsb' 16 8, v.extractLsb' 24 8]) :
        f.readWindow a 4 = bytes := register.trans same
    refine ⟨named f.summary, named f.summaryEnable, word 0 _ (by decide) _ rfl, ?_, word identValue _ (by decide) _ rfl, fun a unused => ?_, fun a n i => f.readWindow_get a n i⟩
    · refine word (if f.exchangeEnable then 1 else 0) _ ?_ _ rfl
      cases f.exchangeEnable <;> decide
    · unfold Front.windowByte
      rw [f.register_unused (by omega)]
      exact BitVec.extractLsb'_zero

end Sys2Proof.Machine
end

section
/-! PROOF. The pages at their periods and the calendar (R120, R143, R144, R157, R158). -/

namespace Sys2Proof.Machine

open Sys2Proof.Safety

/-- A state whose output signals are driven, with the page `g` republished and the timers set on. -/
def State.republished (s : State) (g : PageId) (body : List Byte) (tm : Timers) : State :=
  { s with mem := (s.toFront.publish g body).mem, gens := (s.toFront.publish g body).gens, timers := tm }

theorem State.withBlocks_republished {s : State} (on : s.powered = true) (pins : PinsDriven s) (g : PageId) (body : List Byte) (tm : Timers) :
    s.withBlocks ((s.withTimers tm).withFront (s.toFront.publish g body)) = s.republished g body tm := by
  have same : derivePins ((s.withTimers tm).withFront (s.toFront.publish g body)) = derivePins s.toBlocks := rfl
  unfold State.withBlocks
  rw [same, ← (show s.pins = derivePins s.toBlocks from pins.trans (if_pos on))]
  rfl

/-- Settles O36. -/
theorem pagesAndCalendarKeepTheirPeriods : Obligations.PagesAndCalendarKeepTheirPeriods := by
  refine ⟨fun s on pins => ?_, fun n s on pins next due => ?_⟩
  · intro page
    have made (g : PageId) (body : List Byte) (tm : Timers) : page g body tm (s.republished g body tm) := by
      obtain ⟨kept, -, whole⟩ := s.toFront.publish_frame g body
      exact ⟨whole, rfl, kept⟩
    refine ⟨fun due => ⟨s.republished .energy (energyPage s.toBlocks) _, ?_, made ..⟩,
      fun due => ⟨s.republished .motion (motionPage s.mot) _, ?_, made ..⟩,
      fun due => ⟨s.republished .time (timePage s.tmb) _, ?_, made .., ?_, ?_⟩⟩
    · rw [exec_energyPagePeriodic, s.whilePowered_on _ on, Blocks.whenDue_due _ _ _ due, ← State.withBlocks_republished on pins]; rfl
    · rw [exec_motionPagePeriodic, s.whilePowered_on _ on, Blocks.whenDue_due _ _ _ due, ← State.withBlocks_republished on pins]; rfl
    · rw [exec_timePagePeriodic, s.whilePowered_on _ on, Blocks.whenDue_due _ _ _ due, ← State.withBlocks_republished on pins]; rfl
    · exact (readBytes_writeBytes_within _ 0x0700 _ 8 8 (by simp) (by simp [Config.areaSize])).trans rfl
    · exact (readBytes_writeBytes_within _ 0x0700 _ 16 4 (by simp) (by simp [Config.areaSize])).trans rfl
  · have same : derivePins { s.toBlocks with tmb := s.tmb.stepCalendar } = derivePins s.toBlocks := rfl
    rw [exec_calendarStep, s.whilePowered_on _ on, next, Blocks.whenDue_due _ _ _ due]
    refine congrArg Host.Outcome.next ?_
    unfold State.withBlocks
    rw [show s.toBlocks.quiet (fun f => { f with tmb := f.tmb.stepCalendar }) = { s.toBlocks with tmb := s.tmb.stepCalendar } from rfl, same,
      ← (show s.pins = derivePins s.toBlocks from pins.trans (if_pos on))]
    unfold Timebase.stepCalendar
    rw [next]
    rfl

end Sys2Proof.Machine
end

section
/-! PROOF. What surrounds every request: the post, the take, the completion, and the event's frame when no pass follows (R24, R158, R160 to R164). -/

namespace Sys2Proof.Machine

open Sys2Proof.Safety

/-! ## The take of a posted request -/

/-- The host's side once a request has been posted and taken (R161, steps 1 to 3). -/
def Front.takes (f : Front) (p : Posting) (r : Request) : Front := (f.post p r).markTaken p.slot

/-- The in-flight entry of a request that is posted and taken. -/
def entryFor (p : Posting) (r : Request) : InFlight := ⟨p.slot, r.kind, p.notify, p.tag⟩

theorem Front.takes_mem (f : Front) (p : Posting) (r : Request) :
    f.takes p r = { f with mem := (f.takes p r).mem, inFlight := f.inFlight ++ [entryFor p r], lastSlot := p.slot }
    ∧ keepsOutside [slotRange p.slot] f.mem (f.takes p r).mem ∧ readByte (f.takes p r).mem (slotAt p.slot) = 2 := by
  obtain ⟨-, copy, -⟩ := f.post_read p r
  obtain ⟨-, kept, -⟩ := f.post_mem p r
  refine ⟨?_, keepsOutside_trans kept ?_, ?_⟩
  · unfold Front.takes Front.markTaken
    rw [copy]
    rfl
  · exact keepsOutside_writeBytes _ _ [2] (slotRange p.slot) (List.mem_singleton.mpr rfl) (Nat.le_refl _) (by simp [slotRange])
  · exact readByte_writeBytes_inside _ (slotAt p.slot) 0 [2] 2 rfl (by have := slot_in_area p.slot; omega)

theorem Front.takes_inFlight (f : Front) (p : Posting) (r : Request) : (f.takes p r).inFlight = f.inFlight ++ [entryFor p r] := by
  rw [(f.takes_mem p r).1]

theorem Front.entryOf_none {f : Front} {i : Fin 32} (free : f.flying i = false) : f.inFlight.find? (fun e => decide (e.slot = i)) = none :=
  Option.not_isSome_iff_eq_none.mp (Bool.eq_false_iff.mp free)

/-- What XIF does with a request that the part takes. -/
theorem exec_taken {c : Instr} {p : Posting} {r : Request} {s : State} (h : Taken s p) (row : requestOf c = some (p, r))
    (sendable : c.wellFormed = true) :
    exec c s = .next (s.withBlocks ((s.toBlocks.withFront (s.toFront.post p r)).runEvent
      (fun _ => (s.toBlocks.withFront (s.toFront.takes p r)).perform p.slot r) id)) := by
  obtain ⟨⟨on, -⟩, enabled, free⟩ := h
  obtain ⟨-, -, request⟩ := s.toFront.post_read p r
  rw [decodeRequest_args row sendable] at request
  rw [exec_of_requestOf row, s.whilePowered_on _ on]
  have takes : s.toBlocks.hostPosts p r = (s.toBlocks.withFront (s.toFront.post p r)).takeSlot p.slot :=
    if_pos (Bool.and_eq_true_iff.mpr ⟨enabled, by rw [Bool.not_eq_true']; exact free⟩)
  rw [takes]
  unfold Blocks.takeSlot
  rw [Blocks.withFront_toFront, request]
  rfl

/-! ## The completion -/

/-- A completion writes the result where the entry's slot stands (R162). -/
theorem Front.complete_answers {f : Front} {i : Fin 32} {e : InFlight} (h : f.entryOf i = some e) (c : Completion) :
    answeredFlags (f.complete i c).mem (postingOf e) e.kind (resultFlags c.clamped c.transferFailed) c.code c.data := by
  have same : e.slot = i := by simpa using List.find?_some (p := fun x : InFlight => decide (x.slot = i)) h
  subst same
  have area := slot_in_area e.slot
  rw [f.complete_of_flying _ c e h]
  refine ⟨?_, ?_⟩
  · show readBytes (f.writeResult e.slot e.kind e.notify e.tag c).mem (slotAt e.slot) (4 + 4) = _
    rw [readBytes_add, List.append_assoc]
    refine congrArg₂ (· ++ ·) ?_ ?_
    · exact readBytes_writeBytes_self _ (slotAt e.slot) [3, e.kind, boolByte e.notify, resultFlags c.clamped c.transferFailed]
        (by simp only [List.length_cons, List.length_nil]; omega)
    · refine (readBytes_writeBytes_disjoint _ _ _ _ _ (.inr (by simp))).trans ?_
      exact readBytes_writeBytes_self _ (slotAt e.slot + 4) (leBytes 2 e.tag.toNat ++ leBytes 2 (resultCode c.code)) (by simp; omega)
  · refine (readBytes_writeBytes_disjoint _ _ _ _ _ (.inr (by simp [postingOf]))).trans ?_
    refine (readBytes_writeBytes_disjoint _ _ _ _ _ (.inr (by simp [postingOf]))).trans ?_
    have back := readBytes_writeBytes_self f.mem (slotAt e.slot + 48) (padTo 12 c.data) (by simp; omega)
    rwa [length_padTo] at back

/-- The host's side once the request in flight that came last has completed, over changes that leave the in-flight list. -/
theorem Front.entry_complete {f g : Front} {e : InFlight} (free : f.flying e.slot = false) (list : g.inFlight = f.inFlight ++ [e]) (c : Completion) :
    g.complete e.slot c = { g with
      mem := (g.complete e.slot c).mem, inFlight := f.inFlight, summary := doneSummary g.summary (postingOf e) }
    ∧ keepsOutside [slotRange e.slot] g.mem (g.complete e.slot c).mem
    ∧ answeredFlags (g.complete e.slot c).mem (postingOf e) e.kind (resultFlags c.clamped c.transferFailed) c.code c.data := by
  have none_flies := Front.entryOf_none free
  have entry : g.entryOf e.slot = some e := by
    unfold Front.entryOf
    rw [list, List.find?_append, none_flies]
    simp
  have rest : (f.inFlight ++ [e]).filter (fun x => decide (x.slot ≠ e.slot)) = f.inFlight := by
    rw [List.filter_append, List.filter_eq_self.mpr fun x mem => by simpa using List.find?_eq_none.mp none_flies x mem]
    simp
  refine ⟨?_, (g.complete_frame e.slot c).2.1, g.complete_answers entry c⟩
  rw [g.complete_of_flying _ c _ entry, list, rest]
  rfl

/-- The host's side once the request that was taken has completed, over changes of its own that leave the in-flight list. -/
theorem Front.takes_complete {f : Front} {p : Posting} (free : f.flying p.slot = false) (r : Request) {g : Front}
    (list : g.inFlight = (f.takes p r).inFlight) (c : Completion) :
    g.complete p.slot c = { g with
      mem := (g.complete p.slot c).mem, inFlight := f.inFlight, summary := doneSummary g.summary p }
    ∧ keepsOutside [slotRange p.slot] g.mem (g.complete p.slot c).mem
    ∧ answeredFlags (g.complete p.slot c).mem p r.kind (resultFlags c.clamped c.transferFailed) c.code c.data :=
  Front.entry_complete (e := entryFor p r) free (list.trans (f.takes_inFlight p r)) c

/-! ## The event's frame without a pass -/

/-- The ranges lie outside the request slots. -/
def besideSlots (rs : List Range) : Prop := ∀ r ∈ rs, r.2 ≤ 0x0800 ∨ 0x1000 ≤ r.1

/-- A result stands while only bytes beside the slots are written. -/
theorem answeredFlags_kept {m n : Mem} {p : Posting} {kind flags : Byte} {code : ResultCode} {data : List Byte} {rs : List Range}
    (h : answeredFlags m p kind flags code data) (kept : keepsOutside rs m n) (beside : besideSlots rs) :
    answeredFlags n p kind flags code data := by
  obtain ⟨above, below⟩ := slotAt_le p.slot
  have apart (a k : Nat) (lo : slotAt p.slot ≤ a) (hi : a + k ≤ slotAt p.slot + 64) : readBytes n a k = readBytes m a k :=
    readBytes_of_keepsOutside kept a k fun r mem => by have := beside r mem; omega
  exact ⟨(apart _ 8 (Nat.le_refl _) (by omega)).trans h.1, (apart _ 12 (by omega) (by omega)).trans h.2⟩

/-- What follows an event's own changes `x` of the blocks `old`: the assignment, the pass, the pages (R24, R64, R158). -/
def Blocks.settled (x old : Blocks) : Blocks := ((x.withPower x.toPower.reassign).runDuePass).publishChanges old

theorem Blocks.runEvent_eq (s : Blocks) (core : Blocks → Blocks) : s.runEvent core id = (core s).settled s := rfl

/-- Without a trigger there is no pass. -/
theorem Blocks.settled_of_no_pass {x : Blocks} (none_due : x.due = noCauses) (old : Blocks) :
    x.settled old = (x.withPower x.toPower.reassign).publishChanges old := by
  unfold Blocks.settled
  rw [(x.withPower x.toPower.reassign).runDuePass_of_none none_due]

/-- An event without a trigger that leaves the motion state: the charger is assigned anew, and the energy page follows where what it
shows has changed. -/
theorem Blocks.settled_energy {x old : Blocks} (none_due : x.due = noCauses) (motion : motionCode old.mot.state = motionCode x.mot.state) :
    ∃ m, x.settled old = { x with
        assignment := x.toPower.assign, mem := m
        gens := { x.gens with
          energy := if energyChanged old (x.withPower x.toPower.reassign) then x.gens.energy + 2 else x.gens.energy } }
      ∧ keepsOutside [pageRange .energy] x.mem m ∧ (energyChanged old (x.withPower x.toPower.reassign) = false → m = x.mem) := by
  rw [Blocks.settled_of_no_pass none_due]
  unfold Blocks.publishChanges
  rw [if_pos (show motionCode old.mot.state = motionCode (x.withPower x.toPower.reassign).mot.state from motion)]
  dsimp only
  cases energyChanged old (x.withPower x.toPower.reassign)
  · exact ⟨x.mem, rfl, keepsOutside_refl _ _, fun _ => rfl⟩
  · exact ⟨_, rfl, (x.toFront.publish_frame .energy (energyPage (x.withPower x.toPower.reassign))).1, nofun⟩

/-- An event without a trigger that changes no bay, feed or motion field and leaves the charger settled is its own changes alone. -/
theorem Blocks.settled_of_same {x old : Blocks} (none_due : x.due = noCauses) (charger : ChargerSettled x.toPower)
    (motion : x.mot.state = old.mot.state) (energy : energyChanged old x = false) : x.settled old = x := by
  rw [Blocks.settled_of_no_pass none_due, x.toPower.reassign_of_settled charger]
  exact x.publishChanges_of_same old (by rw [motion]) energy

/-- Fields that an energy page shows, the same in both. -/
theorem energyChanged_of_same {x old : Blocks} (feed : x.feed = old.feed) (a : x.bayA.listed = old.bayA.listed)
    (b : x.bayB.listed = old.bayB.listed) (assignment : x.assignment = old.assignment) (charging : ∀ c, x.charging c = old.charging c) :
    energyChanged old x = false := by
  simp [energyChanged, feed, a, b, assignment, charging]

end Sys2Proof.Machine
end

section
/-! PROOF. The requests that bring no pass: those without effect, the settings, the monitors, the calendar (R49, R104, R138 to R141, R145, R161 to R164). -/

namespace Sys2Proof.Machine

open Sys2Proof.Safety

/-- The blocks as a request's owner finds them. -/
def State.takes (s : State) (p : Posting) (r : Request) : Blocks := s.toBlocks.withFront (s.toFront.takes p r)

theorem resultFlags_clamped (clamped : Bool) : resultFlags clamped false = boolByte clamped := by cases clamped <;> rfl

section
variable {c : Instr} {p : Posting} {r : Request} {s : State}

/-- A request that completes at its take and whose other changes `u` bring no pass, no page and no new assignment. -/
theorem exec_finishes (h : Taken s p) (row : requestOf c = some (p, r)) (sendable : c.wellFormed = true) {u : Blocks} {e : Completion}
    (performs : (s.takes p r).perform p.slot r = u.finish p.slot e) (list : u.inFlight = (s.takes p r).inFlight)
    (none_due : u.due = noCauses) (charger : ChargerSettled u.toPower) (motion : u.mot.state = s.mot.state)
    (energy : energyChanged s.toBlocks u = false) (plain : e.transferFailed = false) :
    ∃ m, exec c s = .next (s.withBlocks (u.withFront { u.toFront with mem := m, inFlight := s.inFlight, summary := doneSummary u.summary p }))
      ∧ keepsOutside [slotRange p.slot] u.mem m ∧ answered m p r.kind e.code e.clamped e.data := by
  obtain ⟨shape, kept, result⟩ := Front.takes_complete h.2.2 r (g := u.toFront) list e
  refine ⟨(u.toFront.complete p.slot e).mem, ?_, kept, ?_⟩
  · rw [exec_taken h row sendable, Blocks.runEvent_eq]
    have same : (u.finish p.slot e).settled (s.toBlocks.withFront (s.toFront.post p r)) = u.finish p.slot e :=
      Blocks.settled_of_same none_due charger motion energy
    rw [show (s.toBlocks.withFront (s.toFront.takes p r)).perform p.slot r = u.finish p.slot e from performs, same]
    unfold Blocks.finish
    rw [shape]
  · rw [plain, resultFlags_clamped] at result
    exact result

/-- A request that completes at its take and does nothing else. -/
theorem exec_answers (h : Taken s p) (charger : ChargerSettled s.toPower) (row : requestOf c = some (p, r)) (sendable : c.wellFormed = true)
    {e : Completion} (performs : (s.takes p r).perform p.slot r = (s.takes p r).finish p.slot e) (plain : e.transferFailed = false) :
    ∃ t, exec c s = .next t ∧ answered t.mem p r.kind e.code e.clamped e.data
      ∧ t = { s with mem := t.mem, lastSlot := p.slot, summary := doneSummary s.summary p, pins := derivePins t.toBlocks }
      ∧ keepsOutside [slotRange p.slot] s.mem t.mem := by
  obtain ⟨shape, kept, -⟩ := s.toFront.takes_mem p r
  obtain ⟨m, next, after, result⟩ := exec_finishes h row sendable performs rfl h.1.2 charger rfl (energyChanged_self _) plain
  refine ⟨_, next, result, ?_, keepsOutside_trans kept after⟩
  unfold State.takes State.withBlocks
  rw [shape]
  rfl

end

theorem bayOfCode_bayCode (b : Bay) : bayOfCode (bayCode b) = some b := by cases b <;> rfl

theorem bayOfCode_none {x : Byte} (h : 2 ≤ x.toNat) : bayOfCode x = none := by
  have ne (k : Byte) (small : k.toNat < 2) : x ≠ k := fun same => by rw [same] at h; omega
  unfold bayOfCode
  rw [if_neg (ne 0 (by decide)), if_neg (ne 1 (by decide))]

theorem targetOfCode_targetCode (g : Target) : targetOfCode (targetCode g) = some g := by cases g <;> rfl

theorem targetOfCode_none {x : Byte} (h : 3 ≤ x.toNat) : targetOfCode x = none := by
  have ne (k : Byte) (small : k.toNat < 3) : x ≠ k := fun same => by rw [same] at h; omega
  unfold targetOfCode
  rw [if_neg (ne 0 (by decide)), if_neg (ne 1 (by decide)), if_neg (ne 2 (by decide))]

theorem State.takes_bay (s : State) (p : Posting) (r : Request) (b : Bay) : (s.takes p r).bay b = s.bay b := by cases b <;> rfl

/-- Settles O44. -/
theorem requestsWithoutEffectAreAnswered : Obligations.RequestsWithoutEffectAreAnswered := by
  intro p s h charger only
  have answers {c : Instr} {r : Request} (e : Completion) (row : requestOf c = some (p, r)) (sendable : c.wellFormed = true)
      (performs : (s.takes p r).perform p.slot r = (s.takes p r).finish p.slot e) (plain : e.transferFailed = false)
      (sharp : e.clamped = false) : only c r.kind e.code e.data := by
    have done := exec_answers h charger row sendable performs plain
    rw [sharp] at done
    exact done
  refine ⟨fun k unknown => ?_, fun x out => ⟨?_, ?_⟩, fun b empty => ?_, fun b u opened => ?_, fun b r waits => ?_, fun b none_waits => ?_,
    fun x r d out => ⟨?_, ?_⟩, fun g absent => ?_, fun i k m e n a g f th pr out => ?_⟩
  · exact answers (c := .unknownRequest p k) (r := .unknown k) (.plain .unknownRequest) rfl (by simpa [Instr.wellFormed] using unknown) rfl rfl rfl
  · exact answers (.plain .badArgument) (r := .releaseBay x) rfl rfl
      (by show Blocks.doReleaseBay .. = _; unfold Blocks.doReleaseBay; rw [bayOfCode_none out]) rfl rfl
  · exact answers (.plain .badArgument) (r := .cancelRelease x) rfl rfl
      (by show Blocks.doCancelRelease .. = _; unfold Blocks.doCancelRelease; rw [bayOfCode_none out]) rfl rfl
  · exact answers (.plain .nothingToRelease) (r := .releaseBay (bayCode b)) rfl rfl
      (by show Blocks.doReleaseBay .. = _; unfold Blocks.doReleaseBay; rw [bayOfCode_bayCode]; dsimp only; rw [s.takes_bay, empty]) rfl rfl
  · exact answers (.adopted false [bayCode b, 0xFF]) (r := .releaseBay (bayCode b)) rfl rfl
      (by show Blocks.doReleaseBay .. = _; unfold Blocks.doReleaseBay; rw [bayOfCode_bayCode]; dsimp only; rw [s.takes_bay, opened]) rfl rfl
  · exact answers (.plain .busy) (r := .releaseBay (bayCode b)) rfl rfl
      (by show Blocks.doReleaseBay .. = _; unfold Blocks.doReleaseBay; rw [bayOfCode_bayCode]; dsimp only; rw [s.takes_bay, waits]) rfl rfl
  · refine answers (.plain .nothingToRelease) (r := .cancelRelease (bayCode b)) rfl rfl ?_ rfl rfl
    show Blocks.doCancelRelease .. = _; unfold Blocks.doCancelRelease
    rw [bayOfCode_bayCode]
    dsimp only
    split
    case h_1 r waits => exact absurd ((s.takes_bay p _ b ▸ waits)) (none_waits r)
    case h_2 => rfl
  · exact answers (.plain .badArgument) (r := .placeHold x r d) rfl rfl
      (by show Blocks.doPlaceHold .. = _; unfold Blocks.doPlaceHold; rw [targetOfCode_none out]) rfl rfl
  · exact answers (.plain .badArgument) (r := .liftHold x) rfl rfl
      (by show Blocks.doLiftHold .. = _; unfold Blocks.doLiftHold; rw [targetOfCode_none out]) rfl rfl
  · refine answers (.plain .noSuchHold) (r := .liftHold (targetCode g)) rfl rfl ?_ rfl rfl
    show Blocks.doLiftHold .. = _; unfold Blocks.doLiftHold
    rw [targetOfCode_targetCode]
    dsimp only
    rw [show positionOf .software g (s.takes p (.liftHold (targetCode g))).hld.entries = none from absent]
  · refine answers (.plain .badArgument) (r := .setMonitor i k m e n a g f th pr) rfl rfl ?_ rfl rfl
    show Blocks.doSetMonitor .. = _; unfold Blocks.doSetMonitor
    rw [show (s.takes p (.setMonitor i k m e n a g f th pr)).monitors[i.toNat]? = none from List.getElem?_eq_none out]

end Sys2Proof.Machine
end

section
/-! PROOF. The requests that adopt settings without a pass (R49, R104, R164). -/

namespace Sys2Proof.Machine

open Sys2Proof.Safety

section
variable {c : Instr} {p : Posting} {r : Request} {s : State}

/-- A request that completes at its take and whose other changes `u` bring no pass: the charger is assigned anew, and the energy page
follows where what it shows has changed. -/
theorem exec_finishes_assigned (h : Taken s p) (row : requestOf c = some (p, r)) (sendable : c.wellFormed = true) {u : Blocks} {e : Completion}
    (performs : (s.takes p r).perform p.slot r = u.finish p.slot e) (list : u.inFlight = (s.takes p r).inFlight)
    (none_due : u.due = noCauses) (motion : u.mot.state = s.mot.state) (plain : e.transferFailed = false) :
    ∃ m, exec c s = .next (s.withBlocks { u with
          mem := m, inFlight := s.inFlight, summary := doneSummary u.summary p, assignment := u.toPower.assign
          gens := { u.gens with
            energy := if energyChanged s.toBlocks (u.withPower u.toPower.reassign) then u.gens.energy + 2 else u.gens.energy } })
      ∧ keepsOutside [slotRange p.slot, pageRange .energy] u.mem m ∧ answered m p r.kind e.code e.clamped e.data := by
  obtain ⟨shape, kept, result⟩ := Front.takes_complete h.2.2 r (g := u.toFront) list e
  rw [plain, resultFlags_clamped] at result
  obtain ⟨m, settled, page, -⟩ := Blocks.settled_energy (x := u.finish p.slot e) (old := s.toBlocks.withFront (s.toFront.post p r)) none_due
    (congrArg motionCode motion.symm)
  refine ⟨m, ?_, ?_, answeredFlags_kept result page (by simp [besideSlots, pageRange, PageId.offset])⟩
  · rw [exec_taken h row sendable, Blocks.runEvent_eq,
      show (s.toBlocks.withFront (s.toFront.takes p r)).perform p.slot r = u.finish p.slot e from performs, settled]
    unfold Blocks.finish
    rw [shape]
    rfl
  · exact keepsOutside_trans (keepsOutside_mono kept (by simp)) (keepsOutside_mono page (by simp))

end

/-! ## Clamping -/

/-- A field is clamped exactly where it is out of its range (R164). -/
theorem clamped_iff {lo hi : Nat} (order : lo ≤ hi) (v : Nat) : decide (clampNat lo hi v ≠ v) = !inRange lo hi v := by
  unfold clampNat inRange
  rw [Bool.eq_iff_iff]
  simp only [decide_eq_true_eq, Bool.not_eq_true', Bool.and_eq_false_iff, decide_eq_false_iff_not]
  omega

theorem anyClamped_nil : anyClamped [] = false := rfl

theorem anyClamped_cons (c v : Nat) (rest : List (Nat × Nat)) : anyClamped ((c, v) :: rest) = (decide (c ≠ v) || anyClamped rest) := rfl

theorem preferenceOfCode_clamped (x : Byte) :
    preferenceOfCode (clampNat 0 2 x.toNat) = if x = 0 then .bayAFirst else if x = 1 then .bayBFirst else .higherCharge := by
  have code (k : Byte) (small : k.toNat < 2) : clampNat 0 2 x.toNat = k.toNat ↔ x = k := by
    unfold clampNat
    rw [← BitVec.toNat_inj]
    omega
  unfold preferenceOfCode
  exact if_congr (code 0 (by decide)) rfl (if_congr (code 1 (by decide)) rfl rfl)

theorem answered_of_clamped {m : Mem} {p : Posting} {kind : Byte} {code : ResultCode} {a b : Bool} {data : List Byte}
    (h : answered m p kind code a data) (same : a = b) : answered m p kind code b data := same ▸ h

/-- With no move pending nothing is examined again. -/
theorem Power.reexamine_still {p : Power} (none_pends : p.feed.pending = ⟨false, false⟩) (l : Loads) : p.reexamine l = p := by
  unfold Power.reexamine
  rw [none_pends]
  split
  · rfl
  · split <;> rfl

/-- Settles O46. -/
theorem powerSettingsAreAdoptedClamped : Obligations.PowerSettingsAreAdoptedClamped := by
  refine ⟨fun p pref lim sw m rl ow pa s h => ?_, fun p c v e l s h charger none_pends => ?_⟩
  · intro v inside
    let r : Request := .setEnergyPolicy pref lim sw m rl ow pa
    obtain ⟨-, kept, -⟩ := s.toFront.takes_mem p r
    obtain ⟨area, next, after, result⟩ :=
      exec_finishes_assigned (c := .setEnergyPolicy p pref lim sw m rl ow pa) h (r := r) rfl rfl rfl rfl h.1.2 rfl rfl
    refine ⟨_, next, rfl, ?_, Power.chargerSettled_reassign _, ?_, rfl, keepsOutside_trans (keepsOutside_mono kept (by simp)) after⟩
    · rw [← preferenceOfCode_clamped, ← Nat.zero_max (min 50 m.toNat), ← Nat.zero_max (min 150000 pa.toNat)]
      rfl
    · refine answered_of_clamped result ?_
      show anyClamped [(clampNat 0 2 pref.toNat, _), (clampNat 50 100 lim.toNat, _), (clampNat 5 120 sw.toNat, _), (clampNat 0 50 m.toNat, _),
        (clampNat 5 60 rl.toNat, _), (clampNat 3 30 ow.toNat, _), (clampNat 0 150000 pa.toNat, _)] = _
      simp only [anyClamped_cons, anyClamped_nil, clamped_iff (show 0 ≤ 2 by decide), clamped_iff (show 50 ≤ 100 by decide),
        clamped_iff (show 5 ≤ 120 by decide), clamped_iff (show 0 ≤ 50 by decide), clamped_iff (show 5 ≤ 60 by decide),
        clamped_iff (show 3 ≤ 30 by decide), clamped_iff (show 0 ≤ 150000 by decide), inside, Bool.not_and, Bool.or_assoc, Bool.or_false]
  · intro inside
    let r : Request := .setReservoir c v e l
    obtain ⟨-, kept, -⟩ := s.toFront.takes_mem p r
    let feed : FeedRec := { s.feed with
      resC := clampNat 1000 60000 c.toNat, vMin := clampNat 3000 9000 v.toNat, eShut := clampNat 0 500000 e.toNat
      pResLimit := clampNat 5000 60000 l.toNat }
    have still (loads : Loads) (q : Power) (pends : q.feed = feed) :
        (if feed = s.feed then q else q.reexamine loads) = q := by
      rw [Power.reexamine_still (by rw [pends]; exact none_pends), ite_self]
    obtain ⟨area, next, after, result⟩ :=
      exec_finishes_assigned (c := .setReservoir p c v e l) h (r := r) (u := (s.takes p r).withPower { (s.takes p r).toPower with feed := feed })
        rfl rfl (congrArg (fun q => ((s.takes p r).withPower q).finish p.slot _) (still _ _ rfl)) rfl h.1.2 rfl rfl
    refine ⟨_, next, ?_, ?_, ?_, keepsOutside_trans (keepsOutside_mono kept (by simp)) after⟩
    · rw [← Nat.zero_max (min 500000 e.toNat)]
      rfl
    · refine answered_of_clamped result ?_
      show anyClamped [(clampNat 1000 60000 c.toNat, _), (clampNat 3000 9000 v.toNat, _), (clampNat 0 500000 e.toNat, _),
        (clampNat 5000 60000 l.toNat, _)] = _
      simp only [anyClamped_cons, anyClamped_nil, clamped_iff (show 1000 ≤ 60000 by decide), clamped_iff (show 3000 ≤ 9000 by decide),
        clamped_iff (show 0 ≤ 500000 by decide), clamped_iff (show 5000 ≤ 60000 by decide), inside, Bool.not_and, Bool.or_assoc, Bool.or_false]
    · have assigned : ((s.takes p r).withPower { (s.takes p r).toPower with feed := feed }).toPower.assign = s.assignment := charger.symm
      rw [assigned]
      rfl

/-- Settles O49. -/
theorem motionSettingsAreAdoptedClamped : Obligations.MotionSettingsAreAdoptedClamped := by
  intro p ff nf ti bl bh ts lr sr pr tr s h charger inside
  let r : Request := .setMotion ff nf ti bl bh ts lr sr pr tr
  obtain ⟨-, kept, -⟩ := s.toFront.takes_mem p r
  obtain ⟨area, next, after, result⟩ := exec_finishes (c := .setMotion p ff nf ti bl bh ts lr sr pr tr) h (r := r) rfl rfl rfl rfl h.1.2
    charger rfl (energyChanged_of_same rfl rfl rfl rfl fun _ => rfl) rfl
  have flag (x : Byte) : decide (clampNat 0 1 x.toNat = 1) = decide (x ≠ 0) := by
    refine decide_eq_decide.mpr ?_
    rw [ne_eq, ← BitVec.toNat_inj, show (0 : Byte).toNat = 0 from rfl]
    unfold clampNat
    omega
  refine ⟨_, next, ?_, ?_, rfl, keepsOutside_trans kept after⟩
  · rw [← flag, ← flag, ← Nat.zero_max (min 10000 lr.toNat), ← Nat.zero_max (min 10000 sr.toNat)]
    rfl
  · refine answered_of_clamped result ?_
    show anyClamped [(clampNat 100 800 ff.toNat, _), (clampNat 16 160 nf.toNat, _), (clampNat 1500 15000 ti.toNat, _),
      (clampNat 600 1000 bl.toNat, _), (clampNat 1000 1400 bh.toNat, _), (clampNat 160 3200 ts.toNat, _), (clampNat 0 10000 lr.toNat, _),
      (clampNat 0 10000 sr.toNat, _), (clampNat 0 1 pr.toNat, _), (clampNat 0 1 tr.toNat, _)] = _
    simp only [anyClamped_cons, anyClamped_nil, clamped_iff (show 100 ≤ 800 by decide), clamped_iff (show 16 ≤ 160 by decide),
      clamped_iff (show 1500 ≤ 15000 by decide), clamped_iff (show 600 ≤ 1000 by decide), clamped_iff (show 1000 ≤ 1400 by decide),
      clamped_iff (show 160 ≤ 3200 by decide), clamped_iff (show 0 ≤ 10000 by decide), clamped_iff (show 0 ≤ 1 by decide), inside,
      Bool.not_and, Bool.or_assoc, Bool.or_false]

end Sys2Proof.Machine
end

section
/-! PROOF. The log: what becomes of an entry once it is written, records written and missed, the host's read index (R148 to R151). -/

namespace Sys2Proof.Machine

open Sys2Proof.Safety

/-! ## What later writes leave of the log -/

/-- How many entries are unread. -/
def LogRec.unread (l : LogRec) : Nat := (l.writeIndex - l.effRead).toNat

/-- The 64 bytes of the entry of sequence `q`. -/
def Front.entryAt (f : Front) (q : Word) : List Byte := readBytes f.mem (logEntryAt (q.toNat % 64)) 64

/-- From `f` to `g` the log only grows: the unread entries stand, a log without room stays as it is but for the missed count. -/
structure Front.LogGrows (f g : Front) : Prop where
  read   : g.log.effRead = f.log.effRead
  full   : f.log.full = true → g.log.writeIndex = f.log.writeIndex
  missed : f.log.missed ≠ 0 → g.log.missed ≠ 0
  grows  : f.log.unread ≤ 64 → f.log.unread ≤ g.log.unread ∧ g.log.unread ≤ 64
  stands : f.log.unread ≤ 64 → ∀ q : Word, (q - f.log.effRead).toNat < f.log.unread → g.entryAt q = f.entryAt q

namespace Front.LogGrows

theorem refl (f : Front) : f.LogGrows f := ⟨rfl, fun _ => rfl, id, fun h => ⟨Nat.le_refl _, h⟩, fun _ _ _ => rfl⟩

theorem trans {f g h : Front} (a : f.LogGrows g) (b : g.LogGrows h) : f.LogGrows h := by
  have still_full (full : f.log.full = true) : g.log.full = true := by
    rw [LogRec.full_iff] at *
    rw [a.full (LogRec.full_iff _ |>.mpr full), a.read]
    exact full
  refine ⟨b.read.trans a.read, fun full => (b.full (still_full full)).trans (a.full full), b.missed ∘ a.missed, fun few => ?_,
    fun few q unread => ?_⟩
  · obtain ⟨more, few'⟩ := a.grows few
    exact ⟨more.trans (b.grows few').1, (b.grows few').2⟩
  · obtain ⟨more, few'⟩ := a.grows few
    exact (b.stands few' q (a.read ▸ unread.trans_le more)).trans (a.stands few q unread)

/-- A change that leaves the log's record and writes beside its entries. -/
theorem of_beside {f g : Front} (log : g.log = f.log) {rs : List Range} (kept : keepsOutside rs f.mem g.mem)
    (beside : ∀ r ∈ rs, r.2 ≤ 0x1000 ∨ 0x2000 ≤ r.1) : f.LogGrows g := by
  refine ⟨by rw [log], fun _ => by rw [log], by rw [log]; exact id, fun few => by rw [log]; exact ⟨Nat.le_refl _, few⟩, fun _ q _ => ?_⟩
  obtain ⟨above, below⟩ := logEntryAt_le (q.toNat % 64) (Nat.mod_lt _ (by decide))
  exact readBytes_of_keepsOutside kept _ _ fun r mem => by have := beside r mem; omega

/-- A change of other fields alone. -/
theorem of_same {f g : Front} (log : g.log = f.log) (mem : g.mem = f.mem) : f.LogGrows g :=
  of_beside log (rs := []) (fun a _ => by rw [mem]) nofun

theorem ite {f g h : Front} {c : Prop} [Decidable c] (a : f.LogGrows g) (b : f.LogGrows h) : f.LogGrows (if c then g else h) := by
  split
  · exact a
  · exact b

theorem foldl {α : Type} {step : Front → α → Front} (h : ∀ (f : Front) (a : α), f.LogGrows (step f a)) (as : List α) (f : Front) :
    f.LogGrows (as.foldl step f) := by
  induction as generalizing f with
  | nil => exact refl f
  | cons a as ih => exact (h f a).trans (ih _)

end Front.LogGrows

/-! ## Records -/

/-- What a record that finds room writes (R149). -/
theorem Front.writeRecord_entry (f : Front) (r : LogRecord) :
    (f.writeRecord r).log = { f.log with writeIndex := f.log.writeIndex + 1 }
    ∧ (f.writeRecord r).entryAt f.log.writeIndex = r.bytes f.log.writeIndex f.tmb
    ∧ readBytes (f.writeRecord r).mem 0x08 4 = leBytes 4 (f.log.writeIndex + 1).toNat
    ∧ keepsOutside [indexRange, (logEntryAt (f.log.writeIndex.toNat % 64), logEntryAt (f.log.writeIndex.toNat % 64) + 64)] f.mem
        (f.writeRecord r).mem := by
  obtain ⟨above, below⟩ := logEntryAt_le (f.log.writeIndex.toNat % 64) (Nat.mod_lt _ (by decide))
  have mem : (f.writeRecord r).mem = writeBytes (writeBytes f.mem (logEntryAt (f.log.writeIndex.toNat % 64)) (r.bytes f.log.writeIndex f.tmb))
      0x08 (leBytes 4 (f.log.writeIndex + 1).toNat) := by
    unfold Front.writeRecord Front.raiseIfFull
    split <;> rfl
  refine ⟨?_, ?_, ?_, ?_⟩
  · unfold Front.writeRecord Front.raiseIfFull
    split <;> rfl
  · unfold Front.entryAt
    rw [mem, readBytes_writeBytes_disjoint _ _ _ _ _ (.inr (by rw [length_leBytes]; omega))]
    have back := readBytes_writeBytes_self f.mem (logEntryAt (f.log.writeIndex.toNat % 64)) (r.bytes f.log.writeIndex f.tmb)
      (by rw [length_logBytes]; exact below.trans (by decide))
    rwa [length_logBytes] at back
  · rw [mem]
    have back := readBytes_writeBytes_self (writeBytes f.mem (logEntryAt (f.log.writeIndex.toNat % 64)) (r.bytes f.log.writeIndex f.tmb)) 0x08
      (leBytes 4 (f.log.writeIndex + 1).toNat) (by rw [length_leBytes]; decide)
    rwa [length_leBytes] at back
  · rw [mem]
    refine keepsOutside_trans (keepsOutside_writeBytes _ _ _ _ (List.mem_cons_of_mem _ (List.mem_singleton.mpr rfl)) (Nat.le_refl _) ?_)
      (keepsOutside_writeBytes _ _ _ indexRange (List.mem_cons_self ..) ?_ ?_)
    · rw [length_logBytes]
    · exact Nat.le_refl _
    · rw [length_leBytes]; decide

/-- Sequences among the last 64 stand in entries of their own. -/
theorem entry_apart {w e q : Word} (few : (w - e).toNat < 64) (unread : (q - e).toNat < (w - e).toNat) :
    logEntryAt (q.toNat % 64) + 64 ≤ logEntryAt (w.toNat % 64) ∨ logEntryAt (w.toNat % 64) + 64 ≤ logEntryAt (q.toNat % 64) := by
  have apart : q.toNat % 64 ≠ w.toNat % 64 := by bv_omega
  unfold logEntryAt
  omega

theorem Front.writeRecord_logGrows (f : Front) (r : LogRecord) (room : f.log.full = false) : f.LogGrows (f.writeRecord r) := by
  obtain ⟨log, -, -, kept⟩ := f.writeRecord_entry r
  have few : (f.log.writeIndex - f.log.effRead).toNat < 64 := by
    refine Nat.lt_of_not_le fun many => ?_
    rw [f.log.full_iff.mpr many] at room
    cases room
  have next : (f.writeRecord r).log.unread = f.log.unread + 1 := by
    unfold LogRec.unread
    rw [log]
    exact unread_succ few
  refine ⟨by rw [log], fun full => Bool.noConfusion (room.symm.trans full), by rw [log]; exact id, fun _ => ?_, fun _ q unread => ?_⟩
  · rw [next]
    unfold LogRec.unread
    omega
  · obtain ⟨above, below⟩ := logEntryAt_le (q.toNat % 64) (Nat.mod_lt _ (by decide))
    refine readBytes_of_keepsOutside kept _ _ fun x mem => ?_
    rcases List.mem_pair.mp mem with rfl | rfl
    · exact .inr (by unfold indexRange; omega)
    · exact entry_apart few unread

theorem missedSucc_ne (n : Word) : missedSucc n ≠ 0 := by
  unfold missedSucc
  split
  case isTrue top => rw [top]; decide
  case isFalse below => bv_omega

/-- What a missed record writes (R150). -/
theorem Front.missRecord_entry (f : Front) :
    f.missRecord.log = { f.log with missed := missedSucc f.log.missed }
    ∧ readBytes f.missRecord.mem 0x10 4 = leBytes 4 (missedSucc f.log.missed).toNat
    ∧ keepsOutside [indexRange, missedRange] f.mem f.missRecord.mem := by
  refine ⟨rfl, ?_, ?_⟩
  · have back := readBytes_writeBytes_self (writeBytes f.mem 0x08 (leBytes 4 f.log.writeIndex.toNat)) 0x10
      (leBytes 4 (missedSucc f.log.missed).toNat) (by rw [length_leBytes]; decide)
    rwa [length_leBytes] at back
  · refine keepsOutside_trans (keepsOutside_writeBytes _ _ _ indexRange (List.mem_cons_self ..) (Nat.le_refl _) ?_)
      (keepsOutside_writeBytes _ _ _ missedRange (List.mem_cons_of_mem _ (List.mem_singleton.mpr rfl)) (Nat.le_refl _) ?_)
    · rw [length_leBytes]; decide
    · rw [length_leBytes]; decide

theorem Front.missRecord_logGrows (f : Front) : f.LogGrows f.missRecord := by
  obtain ⟨-, -, kept⟩ := f.missRecord_entry
  refine ⟨rfl, fun _ => rfl, fun _ => missedSucc_ne _, fun few => ⟨Nat.le_refl _, few⟩, fun _ q _ => ?_⟩
  obtain ⟨above, below⟩ := logEntryAt_le (q.toNat % 64) (Nat.mod_lt _ (by decide))
  refine readBytes_of_keepsOutside kept _ _ fun x mem => ?_
  rcases List.mem_pair.mp mem with rfl | rfl
  · exact .inr (by unfold indexRange; omega)
  · exact .inr (by unfold missedRange; omega)

theorem Front.append_logGrows (f : Front) (r : LogRecord) : f.LogGrows (f.append r).front := by
  unfold Front.append
  split
  case isTrue => exact f.missRecord_logGrows
  case isFalse room => exact f.writeRecord_logGrows r (Bool.eq_false_iff.mpr room)

theorem Front.raise_logGrows (f : Front) (b : SummaryFlag) : f.LogGrows (f.raise b) := .of_same rfl rfl

theorem Front.publish_logGrows (f : Front) (g : PageId) (body : List Byte) : f.LogGrows (f.publish g body) := by
  refine .of_beside rfl (f.publish_frame g body).1 fun r mem => ?_
  rw [List.mem_singleton.mp mem]
  have := pageOffset_le g
  exact .inl (by unfold pageRange; omega)

theorem Front.publishMonitors_logGrows (f : Front) : f.LogGrows f.publishMonitors := f.publish_logGrows .monitor _

theorem Front.complete_logGrows (f : Front) (i : Fin 32) (c : Completion) : f.LogGrows (f.complete i c) := by
  obtain ⟨shape, kept, -⟩ := f.complete_frame i c
  refine .of_beside (by rw [shape]) kept fun r mem => ?_
  rw [List.mem_singleton.mp mem]
  have := slotAt_le i
  exact .inl (by unfold slotRange; omega)

/-! ### CMU -/

theorem alertRecords_logGrows (ms : List Monitor) (as : List (Nat × Monitor)) (f : Front) : f.LogGrows (alertRecords ms as f).1 := by
  induction as generalizing f with
  | nil => exact .refl f
  | cons a as ih => exact ((f.raise_logGrows .monitorAlert).trans (Front.append_logGrows _ _)).trans (ih _)

theorem Front.takeOccurrence_logGrows (f : Front) (o : Occurrence) : f.LogGrows (f.takeOccurrence o).1 := by
  have frozen (ms : List Monitor) : f.LogGrows { (alertRecords f.monitors (alerting o 0 f.monitors) f).1 with monitors := ms } :=
    (alertRecords_logGrows _ _ f).trans (.of_same rfl rfl)
  exact .ite ((frozen _).trans (Front.publishMonitors_logGrows _)) (frozen _)

theorem drainEvents_logGrows (n : Nat) (os : List Occurrence) (f : Front) : f.LogGrows (drainEvents n os f) := by
  induction n generalizing os f with
  | zero => exact .refl f
  | succ n ih =>
    cases os with
    | nil => exact .refl f
    | cons o os => exact (f.takeOccurrence_logGrows o).trans (ih _ _)

theorem Front.sendEvent_logGrows (f : Front) (o : Occurrence) : f.LogGrows (f.sendEvent o) := drainEvents_logGrows _ _ f

theorem Front.makeRecord_logGrows (f : Front) (r : LogRecord) : f.LogGrows (f.makeRecord r) :=
  (f.append_logGrows r).trans (Front.sendEvent_logGrows _ _)

/-! ## A record that was made stays made -/

/-- A record made from the log of `f` stands in the log of `g`, among the unread entries, or is among the missed. -/
structure Front.Logs (f g : Front) (r : LogRecord) (time : Timebase) : Prop where
  missed : f.log.full = true → g.log.full = true ∧ g.log.writeIndex = f.log.writeIndex ∧ g.log.missed ≠ 0
  written : f.log.full = false → g.log.unread ≤ 64 ∧ (f.log.writeIndex - g.log.effRead).toNat < g.log.unread
    ∧ g.entryAt f.log.writeIndex = r.bytes f.log.writeIndex time

theorem Front.append_logs (f : Front) (r : LogRecord) : f.Logs (f.append r).front r f.tmb := by
  refine ⟨fun full => ?_, fun room => ?_⟩
  · rw [f.append_of_full r full]
    exact ⟨full, rfl, missedSucc_ne _⟩
  · rw [f.append_of_room r room]
    obtain ⟨log, entry, -, -⟩ := f.writeRecord_entry r
    have few : (f.log.writeIndex - f.log.effRead).toNat < 64 := by
      refine Nat.lt_of_not_le fun many => ?_
      rw [f.log.full_iff.mpr many] at room
      cases room
    have next : (f.log.writeIndex + 1 - f.log.effRead).toNat = (f.log.writeIndex - f.log.effRead).toNat + 1 := unread_succ few
    unfold LogRec.unread
    dsimp only
    rw [log]
    dsimp only
    rw [next]
    exact ⟨few, Nat.lt_succ_self _, entry⟩

namespace Front.Logs

theorem later {f g h : Front} {r : LogRecord} {time : Timebase} (a : f.Logs g r time) (b : g.LogGrows h) : f.Logs h r time := by
  refine ⟨fun full => ?_, fun room => ?_⟩
  · obtain ⟨full', index, missed⟩ := a.missed full
    refine ⟨?_, (b.full full').trans index, b.missed missed⟩
    rw [LogRec.full_iff] at full' ⊢
    rw [b.full (LogRec.full_iff _ |>.mpr full'), b.read]
    exact full'
  · obtain ⟨few, unread, entry⟩ := a.written room
    exact ⟨(b.grows few).2, b.read ▸ unread.trans_le (b.grows few).1, (b.stands few _ unread).trans entry⟩

/-- Only the log's indices of the state before matter. -/
theorem earlier {e f g : Front} {r : LogRecord} {time : Timebase} (same : f.log = e.log) (a : f.Logs g r time) : e.Logs g r time :=
  ⟨same ▸ a.missed, same ▸ a.written⟩

theorem logged {f g : Front} {r : LogRecord} {time : Timebase} (a : f.Logs g r time) : Logged f g r time := by
  unfold Logged
  split
  case isTrue full => exact (a.missed full).2
  case isFalse room =>
    obtain ⟨-, unread, entry⟩ := a.written (Bool.eq_false_iff.mpr room)
    refine ⟨entry, fun same => ?_⟩
    unfold LogRec.unread at unread
    rw [same] at unread
    exact Nat.lt_irrefl _ unread

end Front.Logs

theorem Front.makeRecord_logs (f : Front) (r : LogRecord) : f.Logs (f.makeRecord r) r f.tmb := (f.append_logs r).later (Front.sendEvent_logGrows _ _)

theorem Front.makeTied_logs (f : Front) (r : LogRecord) (o : Occurrence) : f.Logs (f.makeTied r o) r f.tmb :=
  (f.makeRecord_logs r).later (Front.sendEvent_logGrows _ _)

/-- LOG_FULL rises with the last free entry (R150). -/
theorem Front.writeRecord_summary (f : Front) (r : LogRecord) (room : f.log.unread < 64) :
    (f.writeRecord r).summary = f.summary ||| (if f.log.unread = 63 then 0x06 else 0x02) := by
  have next : (f.log.writeIndex + 1 - f.log.effRead).toNat = f.log.unread + 1 := unread_succ room
  unfold Front.writeRecord Front.raiseIfFull
  split
  case isTrue full =>
    have last : 64 ≤ f.log.unread + 1 := next ▸ (LogRec.full_iff _).mp full
    rw [if_pos (show f.log.unread = 63 by omega)]
    show f.summary ||| 0x02 ||| 0x04 = _
    rw [BitVec.or_assoc]
    rfl
  case isFalse open_ =>
    rw [if_neg fun last => open_ ((LogRec.full_iff _).mpr ?_)]
    · rfl
    · show 64 ≤ (f.log.writeIndex + 1 - f.log.effRead).toNat
      omega

/-- Settles O34. -/
theorem recordIsWrittenOrMissed : Obligations.RecordIsWrittenOrMissed := by
  intro f r accounted unread a
  have shape : a.front = { f with mem := a.front.mem, log := a.front.log, summary := a.front.summary } := by
    show (f.append r).front = { f with mem := (f.append r).front.mem, log := (f.append r).front.log, summary := (f.append r).front.summary }
    unfold Front.append Front.writeRecord Front.raiseIfFull
    split
    · rfl
    · split <;> rfl
  refine ⟨fun room => ?_, fun full => ?_, shape⟩
  · have open_ : f.log.full = false := Bool.eq_false_iff.mpr fun full => Nat.not_le.mpr room (f.log.full_iff.mp full)
    have app : a = ⟨f.writeRecord r, some f.log.writeIndex, ⟨.incident, 0, some r.code⟩⟩ := f.append_of_room r open_
    rw [app]
    obtain ⟨log, entry, index, kept⟩ := f.writeRecord_entry r
    exact ⟨rfl, rfl, entry, log, index, f.writeRecord_summary r room, kept⟩
  · have shut : f.log.full = true := f.log.full_iff.mpr (Nat.le_of_eq full.symm)
    have app : a = ⟨f.missRecord, none, plainEvent .logMissed⟩ := f.append_of_full r shut
    rw [app]
    obtain ⟨log, missed, kept⟩ := f.missRecord_entry
    exact ⟨rfl, rfl, rfl, log, missed, kept⟩

end Sys2Proof.Machine
end

section
/-! PROOF. The re-read of the host's index and the calendar (R145, R148, R151, R154). -/

namespace Sys2Proof.Machine

open Sys2Proof.Safety

/-- The fields that a record and CMU's answer to it may write. -/
theorem Front.RecordStep.fields {f g : Front} (a : f.RecordStep g) : 
    ∃ (mem : Mem) (summary : Word) (log : LogRec) (monitors : List Monitor) (gen : Word), g = { f with
    mem := mem, summary := summary, log := { log with effRead := f.log.effRead }, monitors := monitors
    gens := { f.gens with monitor := gen } } := ⟨_, _, _, _, _, a.shape⟩

/-! ## The host's read index -/

/-- The log with the host's read index taken over (R148). -/
def Front.reRead (f : Front) : Front :=
  { f with log := { f.log with effRead := effectiveRead f.log.writeIndex (BitVec.ofNat 32 (readField f.mem 0x0C 4)) } }

theorem Front.reReadIndex_eq (f : Front) : f.reReadIndex =
    if f.reRead.log.full then (if f.log.full then f.reRead else f.reRead.raise .logFull)
    else if f.log.missed = 0 then f.reRead else f.reRead.writeGap := rfl

/-- A GAP record stands in the log; the missed count starts again (R151). -/
theorem Front.writeGap_logs (f : Front) (room : f.log.full = false) : f.Logs f.writeGap (.gap f.log.missed) f.tmb := by
  let g := f.writeRecord (.gap f.log.missed)
  let z : Front := ({ g with log := { g.log with missed := 0 } }).putLogBlock
  have written := (f.append_logs (.gap f.log.missed)).written room
  rw [f.append_of_room _ room] at written
  obtain ⟨few, unread, entry⟩ := written
  have kept : keepsOutside [indexRange, missedRange] g.mem z.mem :=
    keepsOutside_trans
      (keepsOutside_writeBytes _ _ _ indexRange (List.mem_cons_self ..) (Nat.le_refl _) (by rw [length_leBytes]; decide))
      (keepsOutside_writeBytes _ _ _ missedRange (List.mem_cons_of_mem _ (List.mem_singleton.mpr rfl)) (Nat.le_refl _)
        (by rw [length_leBytes]; decide))
  have logs : f.Logs z (.gap f.log.missed) f.tmb := by
    refine ⟨fun full => Bool.noConfusion (room.symm.trans full), fun _ => ⟨few, unread, Eq.trans ?_ entry⟩⟩
    obtain ⟨above, below⟩ := logEntryAt_le (f.log.writeIndex.toNat % 64) (Nat.mod_lt _ (by decide))
    refine readBytes_of_keepsOutside kept _ _ fun x mem => ?_
    rcases List.mem_pair.mp mem with rfl | rfl
    · exact .inr (by unfold indexRange; omega)
    · exact .inr (by unfold missedRange; omega)
  exact logs.later (z.sendEvent_logGrows _)

/-- With every monitor at its power-on state a GAP record is the only one. -/
theorem Front.writeGap_calm (f : Front) (off : ∀ m ∈ f.monitors, m.config.enable = false) :
    f.writeGap.log = { f.log with writeIndex := f.log.writeIndex + 1, missed := 0 } := by
  unfold Front.writeGap
  have calm : ∀ m ∈ f.monitors, Monitor.takes m ⟨.incident, 0, some (LogRecord.gap f.log.missed).code⟩ = false := fun m mem => by
    simp [Monitor.takes, off m mem]
  have same : (({ (f.writeRecord (.gap f.log.missed)) with
      log := { (f.writeRecord (.gap f.log.missed)).log with missed := 0 } } : Front).putLogBlock).monitors = f.monitors := by
    show (f.writeRecord (.gap f.log.missed)).monitors = f.monitors
    unfold Front.writeRecord Front.raiseIfFull
    split <;> rfl
  dsimp only
  rw [Front.sendEvent_of_not_taken _ _ (by rw [same]; exact calm)]
  show { (f.writeRecord (.gap f.log.missed)).log with missed := 0 } = _
  rw [(f.writeRecord_entry _).1]

/-- What a re-read writes. -/
theorem Front.reReadIndex_step (f : Front) : f.reRead.RecordStep f.reReadIndex := by
  rw [f.reReadIndex_eq]
  split
  · split
    · exact .refl _
    · exact f.reRead.raise_step _
  · split
    · exact .refl _
    · exact f.reRead.writeGap_step

/-- Settles O35. -/
theorem logReReadFreesSpace : Obligations.LogReReadFreesSpace := by
  intro s ready read behind eff room
  have shut : s.toFront.reRead.log.full = true ↔ ¬ room := by
    rw [LogRec.full_iff]
    exact Nat.not_lt.symm
  have step := s.toFront.reReadIndex_step
  rw [exec_attentionLog, s.whilePowered_on _ ready.1]
  refine ⟨_, rfl, ?_, fun open_ missed => ?_, fun stays => ?_, fun full before => ?_, ?_, step.kept⟩
  · exact congrArg (fun g : Front => g.log.effRead) step.shape
  · have made : s.toFront.reReadIndex = s.toFront.reRead.writeGap := by
      rw [s.toFront.reReadIndex_eq, if_neg (mt shut.mp (not_not.mpr open_)), if_neg missed]
    have not_full : s.toFront.reRead.log.full = false := Bool.eq_false_iff.mpr (mt shut.mp (not_not.mpr open_))
    refine ⟨?_, fun fresh => ?_⟩
    · show Logged _ s.toFront.reReadIndex _ _
      rw [made]
      exact (s.toFront.reRead.writeGap_logs not_full).logged
    · show s.toFront.reReadIndex.log.missed = 0 ∧ s.toFront.reReadIndex.log.writeIndex = _
      rw [made, Front.writeGap_calm _ fun m mem => ?_]
      · exact ⟨rfl, rfl⟩
      · rw [show m = powerOnMonitor from List.eq_of_mem_replicate (show m ∈ List.replicate 8 powerOnMonitor from fresh ▸ mem)]
        rfl
  · show s.toFront.reReadIndex.log = _ ∧ s.toFront.reReadIndex.mem = _ ∧ s.toFront.reReadIndex.monitors = _
    rw [s.toFront.reReadIndex_eq]
    split
    case isTrue => split <;> exact ⟨rfl, rfl, rfl⟩
    case isFalse open_ =>
      rw [if_pos (stays.resolve_left fun full => open_ (shut.mpr full))]
      exact ⟨rfl, rfl, rfl⟩
  · show s.toFront.reReadIndex.summary = _
    rw [s.toFront.reReadIndex_eq, if_pos (shut.mpr full), if_neg (Bool.eq_false_iff.mp before)]
    rfl
  · obtain ⟨mem, summary, log, monitors, gen, same⟩ := step.fields
    show s.withBlocks (s.toBlocks.withFront s.toFront.reReadIndex) = { s with
      log := s.toFront.reReadIndex.log, mem := s.toFront.reReadIndex.mem, summary := s.toFront.reReadIndex.summary
      monitors := s.toFront.reReadIndex.monitors, gens := { s.gens with monitor := s.toFront.reReadIndex.gens.monitor }
      pins := derivePins (s.toBlocks.withFront s.toFront.reReadIndex) }
    rw [same]
    rfl

/-! ## SET_TIME -/

/-- The host's side once SET_TIME has set the calendar, republished its page and made its record (R145). -/
def Front.timeSet (f : Front) (v : Word) : Front :=
  ({ f with tmb := f.tmb.setTime v }).publishTime.makeRecord (.timeSet f.tmb.timeValid f.tmb.calendar v)

theorem Front.timeSet_step (f : Front) (v : Word) : ({ f with tmb := f.tmb.setTime v } : Front).publishTime.RecordStep (f.timeSet v) :=
  Front.makeRecord_step _ _

theorem Front.timeSet_logs (f : Front) (v : Word) :
    f.Logs (f.timeSet v) (.timeSet f.tmb.timeValid f.tmb.calendar v) (f.tmb.setTime v) :=
  Front.Logs.earlier (f := ({ f with tmb := f.tmb.setTime v } : Front).publishTime) rfl (Front.makeRecord_logs _ _)

/-- What setting the time writes, and the calendar on its page. -/
theorem Front.timeSet_mem (f : Front) (v : Word) :
    keepsOutside (pageRange .time :: recordRanges) f.mem (f.timeSet v).mem ∧ readBytes (f.timeSet v).mem 0x0710 4 = leBytes 4 v.toNat := by
  have step := f.timeSet_step v
  have page := (Front.publish_frame { f with tmb := f.tmb.setTime v } .time (timePage (f.tmb.setTime v))).1
  have calendar : readBytes ({ f with tmb := f.tmb.setTime v } : Front).publishTime.mem 0x0710 4 = leBytes 4 v.toNat :=
    (readBytes_writeBytes_within _ 0x0700 _ 16 4 (by simp) (by simp [Config.areaSize])).trans rfl
  refine ⟨keepsOutside_trans (keepsOutside_mono page (by simp)) (keepsOutside_mono step.kept fun _ => List.mem_cons_of_mem _),
    (readBytes_of_keepsOutside step.kept _ _ ?_).trans calendar⟩
  simp [recordRanges, indexRange, missedRange, logRange, pageRange, PageId.offset]

/-- Settles O52. -/
theorem setTimeMovesTheCalendar : Obligations.SetTimeMovesTheCalendar := by
  intro p v s h charger
  obtain ⟨-, kept, -⟩ := s.toFront.takes_mem p (.setTime v)
  have step := (s.takes p (.setTime v)).toFront.timeSet_step v
  have logs := Front.Logs.earlier (show (s.takes p (.setTime v)).toFront.log = s.toFront.log from rfl) ((s.takes p (.setTime v)).toFront.timeSet_logs v)
  obtain ⟨set, calendar⟩ := (s.takes p (.setTime v)).toFront.timeSet_mem v
  have performs : (s.takes p (.setTime v)).perform p.slot (.setTime v)
      = ((s.takes p (.setTime v)).withFront ((s.takes p (.setTime v)).toFront.timeSet v)).finish p.slot
        (.adopted false (leBytes 4 s.tmb.calendar.toNat ++ [boolByte s.tmb.timeValid])) := rfl
  generalize (s.takes p (.setTime v)).toFront.timeSet v = g at step logs set calendar performs
  obtain ⟨mem, summary, log, monitors, gen, rfl⟩ := step.fields
  obtain ⟨area, next, after, result⟩ := exec_finishes (c := .setTime p v) h rfl rfl performs rfl h.1.2 charger rfl
    (energyChanged_of_same rfl rfl rfl rfl fun _ => rfl) rfl
  refine ⟨_, next, rfl, ?_, result, ?_, rfl, ?_⟩
  · refine (logs.later ?_).logged
    refine Front.LogGrows.of_beside ?_ after fun x mem => ?_
    · rfl
    rw [List.mem_singleton.mp mem]
    exact .inl (slotAt_le p.slot).2
  · refine (readBytes_of_keepsOutside after _ _ fun x mem => ?_).trans calendar
    rw [List.mem_singleton.mp mem]
    exact .inl (by have := slotAt_le p.slot; unfold slotRange; omega)
  · exact keepsOutside_trans (keepsOutside_mono kept (by simp)) (keepsOutside_trans (keepsOutside_mono set fun _ => List.mem_cons_of_mem _)
      (keepsOutside_mono after (by simp)))

end Sys2Proof.Machine
end

section
/-! PROOF. The requests of the monitors (R138, R140, R141). -/

namespace Sys2Proof.Machine

open Sys2Proof.Safety

theorem length_changeNamed (mask : Byte) (g : Monitor → Monitor) (n : Nat) (ms : List Monitor) : (changeNamed mask g n ms).length = ms.length := by
  induction ms generalizing n with
  | nil => rfl
  | cons m ms ih => simp [changeNamed, ih]

theorem getElem?_changeNamed (mask : Byte) (g : Monitor → Monitor) (n : Nat) (ms : List Monitor) (i : Nat) :
    (changeNamed mask g n ms)[i]? = ms[i]?.map fun m => if mask.getLsbD (n + i) then g m else m := by
  induction ms generalizing n i with
  | nil => rfl
  | cons m ms ih =>
    cases i with
    | zero => rfl
    | succ i =>
      simp only [changeNamed, List.getElem?_cons_succ, ih]
      rw [show n + 1 + i = n + (i + 1) by omega]

/-- The monitors replaced, and their page where `page` says so. -/
def Blocks.monitored (x : Blocks) (ms : List Monitor) (page : Bool) : Blocks :=
  if page then (x.withMonitors ms).withFront (x.withMonitors ms).toFront.publishMonitors else x.withMonitors ms

theorem Blocks.monitored_eq (x : Blocks) (ms : List Monitor) (page : Bool) : ∃ mem, x.monitored ms page = { x with
      mem := mem, monitors := ms, gens := { x.gens with monitor := if page then x.gens.monitor + 2 else x.gens.monitor } }
    ∧ keepsOutside (if page then [pageRange .monitor] else []) x.mem mem := by
  cases page
  · exact ⟨x.mem, rfl, keepsOutside_refl _ _⟩
  · exact ⟨_, rfl, (Front.publish_frame { x.toFront with monitors := ms } .monitor (monitorPage ms)).1⟩

/-- A request of the monitors that completes OK. -/
theorem exec_monitored {c : Instr} {p : Posting} {r : Request} {s : State} (h : Taken s p) (charger : ChargerSettled s.toPower)
    (row : requestOf c = some (p, r)) (sendable : c.wellFormed = true) {ms : List Monitor} {page clamped : Bool} {data : List Byte}
    (performs : (s.takes p r).perform p.slot r = ((s.takes p r).monitored ms page).finish p.slot (.adopted clamped data)) :
    ∃ t, exec c s = .next t ∧ answered t.mem p r.kind .ok clamped data ∧ t.monitors = ms
      ∧ t = { s with
          monitors := t.monitors, mem := t.mem, lastSlot := p.slot, summary := doneSummary s.summary p
          gens := { s.gens with monitor := if page then s.gens.monitor + 2 else s.gens.monitor }, pins := derivePins t.toBlocks }
      ∧ keepsOutside (slotRange p.slot :: if page then [pageRange .monitor] else []) s.mem t.mem := by
  obtain ⟨-, kept, -⟩ := s.toFront.takes_mem p r
  obtain ⟨mem, same, written⟩ := (s.takes p r).monitored_eq ms page
  rw [same] at performs
  obtain ⟨area, next, after, result⟩ := exec_finishes h row sendable performs rfl h.1.2 charger rfl
    (energyChanged_of_same rfl rfl rfl rfl fun _ => rfl) rfl
  exact ⟨_, next, result, rfl, rfl, keepsOutside_trans (keepsOutside_mono kept (by simp))
    (keepsOutside_trans (keepsOutside_mono written fun _ => List.mem_cons_of_mem _) (keepsOutside_mono after (by simp)))⟩

theorem flag_nonzero (x : Byte) : decide (1 ≤ x.toNat) = decide (x ≠ 0) := by
  refine decide_eq_decide.mpr ?_
  rw [ne_eq, ← BitVec.toNat_inj, show (0 : Byte).toNat = 0 from rfl]
  omega

theorem inRange_zero (hi v : Nat) : decide (hi < v) = !inRange 0 hi v := by
  unfold inRange
  rw [Bool.eq_iff_iff]
  simp

theorem packBits_eq_zero (bs : List Bool) : packBits bs = 0 ↔ bs.any id = false := by
  induction bs with
  | nil => simp [packBits]
  | cons b bs ih => cases b <;> simp [packBits, ih]

theorem packBits_lt (bs : List Bool) : packBits bs < 2 ^ bs.length := by
  induction bs with
  | nil => decide
  | cons b bs ih =>
    simp only [packBits, List.length_cons, Nat.pow_succ]
    cases b <;> simp <;> omega

theorem monitorConfigOf_eq (k m e n a g : Byte) (th : Word) : monitorConfigOf k m e n a g th = ⟨eventOfCode (min 13 k.toNat), m,
    th.toNat, decide (e ≠ 0), decide (n ≠ 0), decide (a ≠ 0), groupOfCode (min 2 g.toNat)⟩ := by
  unfold monitorConfigOf clampNat
  simp only [flag_nonzero, Nat.zero_max]

/-- The group mask names the monitor's group, as the statement spells it. -/
theorem inGroups_eq (groups : Byte) (m : Monitor) : inGroups groups m =
    (decide (m.config.group = .g1) && groups.getLsbD 0 || decide (m.config.group = .g2) && groups.getLsbD 1) := by
  unfold inGroups
  cases m.config.group <;> simp

theorem thawedSet_nonzero {groups : Byte} {ms : List Monitor} (eight : ms.length = 8) :
    decide (thawedSet groups ms ≠ 0) = ms.any fun m => m.frozen && inGroups groups m := by
  have below := packBits_lt (ms.map fun m => m.frozen && inGroups groups m)
  rw [List.length_map, eight] at below
  have zero : thawedSet groups ms = 0 ↔ packBits (ms.map fun m => m.frozen && inGroups groups m) = 0 := by
    rw [← BitVec.toNat_inj, thawedSet, BitVec.toNat_ofNat, Nat.mod_eq_of_lt below]
    rfl
  rw [Bool.eq_iff_iff, decide_eq_true_eq, ne_eq, zero, packBits_eq_zero, List.any_map, Bool.not_eq_false]
  rfl

theorem Blocks.doSetMonitor_eq {x : Blocks} {m : Monitor} (slot : Fin 32) (i k msk e n a g f : Byte) (th pr : Word)
    (found : x.monitors[i.toNat]? = some m) {q : PendingConfig}
    (asked : q = ⟨monitorConfigOf k msk e n a g th, if f = 0 then none else some pr⟩) :
    x.doSetMonitor slot i k msk e n a g f th pr = (x.monitored (x.monitors.set i.toNat { m with pending := some q }) false).finish slot
      (.adopted (!(inRange 0 13 k.toNat && inRange 0 1 e.toNat && inRange 0 1 n.toNat && inRange 0 1 a.toNat && inRange 0 2 g.toNat
          && inRange 0 1 f.toNat)) [i, eventCode q.config.kind, boolByte m.pending.isSome]) := by
  have flag : (if 1 ≤ f.toNat then some pr else none) = if f = 0 then none else some pr := by
    have same := decide_eq_decide.mp (flag_nonzero f)
    by_cases zero : f = 0
    · rw [if_pos zero, if_neg fun one => same.mp one zero]
    · rw [if_neg zero, if_pos (same.mpr zero)]
  unfold Blocks.doSetMonitor Blocks.monitored
  rw [found]
  simp only [flag, inRange_zero, Bool.not_and, asked]
  rfl

/-- Settles O51. -/
theorem monitorRequestsActOnTheNamedMonitors : Obligations.MonitorRequestsActOnTheNamedMonitors := by
  intro p s h charger eight done
  refine ⟨fun i k m e n a g f th pr named => ?_, fun mask => ?_, fun groups => ?_⟩
  · intro q
    obtain ⟨old, found⟩ : ∃ old, s.monitors[i.toNat]? = some old := ⟨_, List.getElem?_eq_getElem (by rw [eight]; exact named)⟩
    have asked : q = ⟨monitorConfigOf k m e n a g th, if f = 0 then none else some pr⟩ := by rw [monitorConfigOf_eq]
    obtain ⟨t, next, answer, monitors, shape, kept⟩ := exec_monitored (c := .setMonitor p i k m e n a g f th pr)
      (r := .setMonitor i k m e n a g f th pr) h charger rfl rfl
      (Blocks.doSetMonitor_eq (x := s.takes p (.setMonitor i k m e n a g f th pr)) p.slot i k m e n a g f th pr found asked)
    refine ⟨t, next, ?_, ?_, fun j x at_ => ?_, shape, kept⟩
    · rw [found]
      exact answer
    · rw [monitors]
      exact List.length_set.trans eight
    · rw [monitors]
      show (s.monitors.set i.toNat { old with pending := some q })[j]? = _
      rw [List.getElem?_set]
      by_cases same : j = i.toNat
      · subst same
        rw [found] at at_
        rw [if_pos rfl, if_pos (by rw [eight]; exact named), Option.some.inj at_]
        exact congrArg some (if_pos rfl).symm
      · rw [if_neg (Ne.symm same), at_]
        exact congrArg some (if_neg same).symm
  · have performs : (s.takes p (.clearMonitors mask)).perform p.slot (.clearMonitors mask)
        = ((s.takes p (.clearMonitors mask)).monitored (changeNamed mask Monitor.clear 0 s.monitors) (decide (mask ≠ 0))).finish p.slot
          (.adopted false [mask]) := by
      show Blocks.doClearMonitors .. = _
      unfold Blocks.doClearMonitors Blocks.monitored
      by_cases zero : mask = 0
      · rw [if_neg (by simp [zero])]
        exact congrArg (Blocks.finish · p.slot _) (if_pos zero)
      · rw [if_pos (decide_eq_true zero)]
        exact congrArg (Blocks.finish · p.slot _) (if_neg zero)
    obtain ⟨t, next, answer, monitors, shape, kept⟩ := exec_monitored (c := .clearMonitors p mask) h charger rfl rfl performs
    refine ⟨t, next, answer, ?_, fun j x at_ => ?_, shape, kept⟩
    · rw [monitors, length_changeNamed, eight]
    · rw [monitors, getElem?_changeNamed, at_, Nat.zero_add]
      rfl
  · intro named set
    have same : (fun x => named x) = inGroups groups := funext fun x => (inGroups_eq groups x).symm
    have thawed : set = thawedSet groups s.monitors := by
      show BitVec.ofNat 8 (packBits (s.monitors.map fun x => x.frozen && (fun x => named x) x)) = _
      rw [same]
      rfl
    have page : (s.monitors.any fun x => x.frozen && (fun x => named x) x) = decide (thawedSet groups s.monitors ≠ 0) := by
      rw [same, thawedSet_nonzero eight]
    have performs : (s.takes p (.thawMonitors groups)).perform p.slot (.thawMonitors groups)
        = ((s.takes p (.thawMonitors groups)).monitored (s.monitors.map fun m => if inGroups groups m then { m with frozen := false } else m)
          (decide (thawedSet groups s.monitors ≠ 0))).finish p.slot (.adopted false [thawedSet groups s.monitors]) := by
      show Blocks.doThawMonitors .. = _
      unfold Blocks.doThawMonitors Blocks.monitored
      by_cases zero : thawedSet groups s.monitors = 0
      · rw [if_neg (by simp [zero])]
        exact congrArg (Blocks.finish · p.slot _) (if_pos zero)
      · rw [if_pos (decide_eq_true zero)]
        exact congrArg (Blocks.finish · p.slot _) (if_neg zero)
    obtain ⟨t, next, answer, monitors, shape, kept⟩ := exec_monitored (c := .thawMonitors p groups) h charger rfl rfl performs
    rw [← thawed] at answer
    rw [← page] at shape kept
    refine ⟨t, next, answer, ?_, fun j x at_ => ?_, shape, kept⟩
    · rw [monitors, List.length_map, eight]
    · rw [monitors, List.getElem?_map, at_]
      show some (if inGroups groups x then _ else _) = some (if (fun x => named x) x then _ else _)
      rw [same]

end Sys2Proof.Machine
end

section
/-! PROOF. LOAD_CURVE: the checks of the staged points, the pending curve (R84, R86). -/

namespace Sys2Proof.Machine

open Sys2Proof.Safety

/-! ## The checks -/

/-- The point before point `i`, where there is one. -/
def pointBefore (point : Nat → CurvePoint) (i : Nat) : Option CurvePoint := if i = 0 then none else some (point (i - 1))

/-- Point `i` keeps the order of its curve and the panel's range (R84). -/
def goodPoint (nMax : Nat) (point : Nat → CurvePoint) (i : Nat) : Prop :=
  (point i).nits ≤ nMax ∧ (0 < i → (point (i - 1)).lux < (point i).lux ∧ (point (i - 1)).nits ≤ (point i).nits)

theorem readPoints_eq (m : Mem) (off n : Nat) : readPoints m off n
    = (List.range n).map fun i => ⟨readField m (0x80 + 8 * (off + i)) 4, readField m (0x80 + 8 * (off + i) + 4) 2⟩ := by
  induction n generalizing off with
  | zero => rfl
  | succ n ih =>
    rw [List.range_succ_eq_map, List.map_cons, List.map_map, readPoints, ih]
    simp only [Function.comp_def, Nat.add_zero, show ∀ i, off + 1 + i = off + (i + 1) by omega]

theorem checkPoint_good {nMax : Nat} {point : Nat → CurvePoint} {i : Nat} (good : goodPoint nMax point i) :
    checkPoint nMax (pointBefore point i) (point i) = none := by
  obtain ⟨range, order⟩ := good
  unfold checkPoint pointBefore
  by_cases first : i = 0
  · rw [if_pos first]
    exact if_neg (by omega)
  · obtain ⟨lux, nits⟩ := order (by omega)
    rw [if_neg first]
    dsimp only
    rw [if_neg (by omega), if_neg (by omega), if_neg (by omega)]

/-- A point that fails is refused with the first check that it fails. -/
theorem checkPoint_fails {nMax : Nat} {point : Nat → CurvePoint} {i : Nat} (bad : ¬ goodPoint nMax point i) :
    ∃ e, checkPoint nMax (pointBefore point i) (point i) = some e
      ∧ curveErrorCode e = if 0 < i ∧ (point i).lux ≤ (point (i - 1)).lux then 0
          else if 0 < i ∧ (point i).nits < (point (i - 1)).nits then 1 else 2 := by
  unfold checkPoint pointBefore
  by_cases first : i = 0
  · have range : nMax < (point i).nits := by
      by_contra inside
      exact bad ⟨Nat.not_lt.mp inside, fun later => by omega⟩
    exact ⟨.nitsRange, by simp [first, first ▸ range], by simp [first, curveErrorCode]⟩
  · have later : 0 < i := by omega
    by_cases lux : (point i).lux ≤ (point (i - 1)).lux
    · exact ⟨.luxOrder, by simp [first, lux], by simp [later, lux, curveErrorCode]⟩
    · by_cases nits : (point i).nits < (point (i - 1)).nits
      · exact ⟨.nitsOrder, by simp [first, lux, nits], by simp [later, lux, nits, curveErrorCode]⟩
      · have range : nMax < (point i).nits := by
          by_contra inside
          exact bad ⟨Nat.not_lt.mp inside, fun _ => by omega⟩
        exact ⟨.nitsRange, by simp [first, lux, nits, range], by simp [lux, nits, curveErrorCode]⟩

theorem checkCurve_step (nMax : Nat) (point : Nat → CurvePoint) (i n : Nat) :
    checkCurve nMax i (pointBefore point i) ((List.range' i (n + 1)).map point) =
      match checkPoint nMax (pointBefore point i) (point i) with
      | some e => some (i, e)
      | none => checkCurve nMax (i + 1) (pointBefore point (i + 1)) ((List.range' (i + 1) n).map point) := by
  rw [List.range'_succ, List.map_cons]
  rfl

theorem checkCurve_passes {nMax : Nat} {point : Nat → CurvePoint} {i n : Nat} (good : ∀ j, i ≤ j → j < i + n → goodPoint nMax point j) :
    checkCurve nMax i (pointBefore point i) ((List.range' i n).map point) = none := by
  induction n generalizing i with
  | zero => rfl
  | succ n ih =>
    rw [checkCurve_step, checkPoint_good (good i (Nat.le_refl i) (by omega))]
    exact ih fun j _ _ => good j (by omega) (by omega)

/-- The first point that fails refuses the curve. -/
theorem checkCurve_refuses {nMax : Nat} {point : Nat → CurvePoint} {k : Nat} {e : CurveError}
    (bad : checkPoint nMax (pointBefore point k) (point k) = some e) {i n : Nat} (from_ : i ≤ k) (below : k < i + n)
    (good : ∀ j, i ≤ j → j < k → goodPoint nMax point j) :
    checkCurve nMax i (pointBefore point i) ((List.range' i n).map point) = some (k, e) := by
  induction n generalizing i with
  | zero => omega
  | succ n ih =>
    rw [checkCurve_step]
    rcases Nat.eq_or_lt_of_le from_ with same | before
    · rw [same, bad]
    · rw [checkPoint_good (good i (Nat.le_refl i) before)]
      exact ih before (by omega) fun j lo hi => good j (by omega) hi

/-! ## The request -/

/-- The curve that LOAD_CURVE reads from the staging area (R84, Table 10-7). -/
def stagedPoint (m : Mem) (off i : Nat) : CurvePoint := ⟨readField m (0x80 + 8 * (off + i)) 4, readField m (0x80 + 8 * (off + i) + 4) 2⟩

/-- A take leaves the staging area. -/
theorem readPoints_takes (s : State) (p : Posting) (r : Request) {off n : Nat} (inside : off + n ≤ 240) :
    readPoints (s.takes p r).mem off n = (List.range' 0 n).map (stagedPoint s.mem off) := by
  obtain ⟨-, kept, -⟩ := s.toFront.takes_mem p r
  obtain ⟨above, -⟩ := slotAt_le p.slot
  rw [readPoints_eq, List.range_eq_range']
  refine List.map_congr_left fun i mem => ?_
  have below : i < n := by simpa using mem
  have apart (a k : Nat) (within : a + k ≤ 0x800) : readField (s.takes p r).mem a k = readField s.mem a k :=
    congrArg ofLe (readBytes_of_keepsOutside kept a k fun _ one => by cases List.mem_singleton.mp one; exact .inl (by simp only [slotRange]; omega))
  unfold stagedPoint
  rw [apart _ _ (by omega), apart _ _ (by omega)]

section
variable {p : Posting} {o n : Byte} {s : State}

theorem loadCurve_clamped (o n : Byte) : anyClamped [(clampNat 0 32 o.toNat, o.toNat), (clampNat 2 16 n.toNat, n.toNat)]
    = decide (min 32 o.toNat ≠ o.toNat ∨ max 2 (min 16 n.toNat) ≠ n.toNat) := by
  simp [anyClamped_cons, anyClamped_nil, clampNat]

/-- What LOAD_CURVE judges. -/
theorem loadCurve_points (s : State) (p : Posting) (o n : Byte) :
    readPoints (s.takes p (.loadCurve o n)).mem (clampNat 0 32 o.toNat) (clampNat 2 16 n.toNat)
      = (List.range' 0 (max 2 (min 16 n.toNat))).map (stagedPoint s.mem (min 32 o.toNat)) := by
  rw [readPoints_takes s p _ (by unfold clampNat; omega)]
  unfold clampNat
  rw [Nat.zero_max]

theorem Blocks.supersede_of_none {x : Blocks} (none_pends : x.blc.pendingCurve = none) : x.supersede = x := by
  unfold Blocks.supersede
  rw [none_pends]

theorem Blocks.supersede_of_some {x : Blocks} {c : PendingCurve} (pends : x.blc.pendingCurve = some c) :
    x.supersede = x.finish c.slot ⟨.superseded, c.clamped, false, []⟩ := by
  unfold Blocks.supersede
  rw [pends]

/-- A curve that passes is kept pending, and its slot stays TAKEN. -/
theorem loadCurve_passes {x : Blocks} {points : List CurvePoint} (staged : readPoints x.mem (clampNat 0 32 o.toNat) (clampNat 2 16 n.toNat) = points)
    (passes : checkCurve x.blc.panel.nMax 0 none points = none) (slot : Fin 32) :
    x.perform slot (.loadCurve o n) = x.supersede.withLight { x.supersede.blc with
      pendingCurve := some ⟨points, slot, decide (min 32 o.toNat ≠ o.toNat ∨ max 2 (min 16 n.toNat) ≠ n.toNat)⟩ } := by
  show Blocks.doLoadCurve .. = _
  unfold Blocks.doLoadCurve
  dsimp only
  rw [staged, passes, loadCurve_clamped]

theorem loadCurve_refused {x : Blocks} {points : List CurvePoint} (staged : readPoints x.mem (clampNat 0 32 o.toNat) (clampNat 2 16 n.toNat) = points)
    {i : Nat} {e : CurveError} (refused : checkCurve x.blc.panel.nMax 0 none points = some (i, e)) (slot : Fin 32) :
    x.perform slot (.loadCurve o n) = x.finish slot ⟨.badArgument,
      decide (min 32 o.toNat ≠ o.toNat ∨ max 2 (min 16 n.toNat) ≠ n.toNat), false, [BitVec.ofNat 8 i, curveErrorCode e]⟩ := by
  show Blocks.doLoadCurve .. = _
  unfold Blocks.doLoadCurve
  dsimp only
  rw [staged, refused, loadCurve_clamped]

/-- A request that stays TAKEN and brings no pass, no page and no new assignment. -/
theorem exec_keeps {c : Instr} {r : Request} (h : Taken s p) (row : requestOf c = some (p, r)) (sendable : c.wellFormed = true) {u : Blocks}
    (performs : (s.takes p r).perform p.slot r = u) (none_due : u.due = noCauses) (charger : ChargerSettled u.toPower)
    (motion : u.mot.state = s.mot.state) (energy : energyChanged s.toBlocks u = false) : exec c s = .next (s.withBlocks u) := by
  have same : u.settled (s.toBlocks.withFront (s.toFront.post p r)) = u := Blocks.settled_of_same none_due charger motion energy
  rw [exec_taken h row sendable, Blocks.runEvent_eq,
    show (s.toBlocks.withFront (s.toFront.takes p r)).perform p.slot r = u from performs, same]

end

/-- Settles O47. -/
theorem loadedCurveIsCheckedAndPends : Obligations.LoadedCurveIsCheckedAndPends := by
  intro p o n s h charger off len clamped point good mine next
  let r : Request := .loadCurve o n
  obtain ⟨shape, taken, two⟩ := s.toFront.takes_mem p r
  have staged := loadCurve_points s p o n
  have passes (all : ∀ i, i < len → good i) :
      checkCurve (s.takes p r).blc.panel.nMax 0 none ((List.range' 0 len).map (stagedPoint s.mem off)) = none :=
    checkCurve_passes (point := stagedPoint s.mem off) (i := 0) fun j _ below => all j (by omega)
  have pends : (⟨(List.range' 0 len).map (stagedPoint s.mem off), p.slot, clamped⟩ : PendingCurve) = next := by
    rw [← List.range_eq_range']
    rfl
  refine ⟨fun i below before bad => ?_, fun all none_pends => ?_, fun c e all superseded entry => ?_⟩
  · obtain ⟨error, fails, code⟩ := checkPoint_fails (point := stagedPoint s.mem off) bad
    have refused := checkCurve_refuses fails (i := 0) (n := len) (Nat.zero_le i) (by omega) fun j _ to_ => before j to_
    have performs := loadCurve_refused (x := s.takes p r) staged refused p.slot
    rw [code] at performs
    exact exec_answers (c := .loadCurve p o n) h charger rfl rfl performs rfl
  · have performs := loadCurve_passes (x := s.takes p r) staged (passes all) p.slot
    rw [Blocks.supersede_of_none (x := s.takes p r) none_pends] at performs
    refine ⟨_, exec_keeps (c := .loadCurve p o n) h rfl rfl performs h.1.2 charger rfl (energyChanged_of_same rfl rfl rfl rfl fun _ => rfl), two, ?_, taken⟩
    unfold State.takes State.withBlocks
    rw [shape, ← pends]
    rfl
  · have performs := loadCurve_passes (x := s.takes p r) staged (passes all) p.slot
    have same : e.slot = c.slot := by simpa using List.find?_some (p := fun x : InFlight => decide (x.slot = c.slot)) entry
    have apart : p.slot ≠ c.slot := fun one => by
      have free : s.toFront.flying c.slot = false := one ▸ h.2.2
      have found : s.toFront.entryOf c.slot = some e := entry
      unfold Front.flying at free
      rw [found] at free
      cases free
    have flies : (s.toFront.takes p r).entryOf c.slot = some e := by
      unfold Front.entryOf
      rw [s.toFront.takes_inFlight, List.find?_append, show s.inFlight.find? _ = some e from entry]
      rfl
    have rest : (s.toFront.takes p r).inFlight.filter (fun x => decide (x.slot ≠ c.slot)) = listWithout s (some e) ++ [mine] := by
      rw [s.toFront.takes_inFlight, List.filter_append, ← same]
      refine congrArg (s.inFlight.filter (fun x => decide (x.slot ≠ e.slot)) ++ ·) (List.filter_cons_of_pos (decide_eq_true ?_))
      rw [same]
      exact apart
    have result := Front.complete_answers flies ⟨.superseded, c.clamped, false, []⟩
    rw [resultFlags_clamped] at result
    obtain ⟨-, kept, -⟩ := (s.toFront.takes p r).complete_frame c.slot ⟨.superseded, c.clamped, false, []⟩
    have completed : (s.toFront.takes p r).complete c.slot ⟨.superseded, c.clamped, false, []⟩ = { s.toFront.takes p r with
        mem := ((s.toFront.takes p r).complete c.slot ⟨.superseded, c.clamped, false, []⟩).mem
        inFlight := listWithout s (some e) ++ [mine], summary := summaryAfter s.summary (some e) } := by
      rw [(s.toFront.takes p r).complete_of_flying c.slot _ e flies, ← rest]
      rw [shape]
      rfl
    rw [Blocks.supersede_of_some (x := s.takes p r) superseded] at performs
    refine ⟨_, exec_keeps (c := .loadCurve p o n) h rfl rfl performs h.1.2 charger rfl (energyChanged_of_same rfl rfl rfl rfl fun _ => rfl), ?_,
      result, ?_, keepsOutside_trans (keepsOutside_mono taken (by simp)) (keepsOutside_mono kept (by simp))⟩
    · refine (kept _ fun one mem => ?_).trans two
      cases List.mem_singleton.mp mem
      have away : p.slot.val ≠ c.slot.val := fun e => apart (Fin.ext e)
      simp only [Range.holds, slotRange, slotAt]
      omega
    · unfold State.takes Blocks.finish State.withBlocks
      rw [← pends]
      rw [show ((s.toBlocks.withFront (s.toFront.takes p r)).toFront.complete c.slot ⟨.superseded, c.clamped, false, []⟩) = _ from completed]
      rw [shape]
      rfl

end Sys2Proof.Machine
end

section
/-! PROOF. An event and the budget pass that it brings: what stands after it (R63, R64, R75 to R77, R91). -/

namespace Sys2Proof.Machine

open Sys2Proof.Safety

/-! ## Flags stay raised -/

/-- Between `f` and `g` flags of SUMMARY are only raised. -/
def Front.Raises (f g : Front) : Prop := ∃ w, g.summary = f.summary ||| w

namespace Front.Raises

theorem refl (f : Front) : f.Raises f := ⟨0, BitVec.or_zero.symm⟩

theorem of_same {f g : Front} (same : g.summary = f.summary) : f.Raises g := ⟨0, same.trans BitVec.or_zero.symm⟩

theorem trans {f g h : Front} (a : f.Raises g) (b : g.Raises h) : f.Raises h := by
  obtain ⟨v, raised⟩ := a
  obtain ⟨w, again⟩ := b
  exact ⟨v ||| w, by rw [again, raised, BitVec.or_assoc]⟩

theorem ite {f g h : Front} {c : Prop} [Decidable c] (a : f.Raises g) (b : f.Raises h) : f.Raises (if c then g else h) := by
  split
  · exact a
  · exact b

/-- A flag that is up stays up. -/
theorem up {f g : Front} (a : f.Raises g) {k : Word} (up : f.summary &&& k ≠ 0) : g.summary &&& k ≠ 0 := by
  obtain ⟨w, raised⟩ := a
  refine fun down => up ?_
  have part : f.summary &&& k = f.summary &&& ((f.summary ||| w) &&& k) := by
    ext i
    simp only [BitVec.getElem_and, BitVec.getElem_or]
    cases f.summary[i] <;> rfl
  rw [part, ← raised, down]
  exact BitVec.and_zero

end Front.Raises

theorem Front.raise_raises (f : Front) (b : SummaryFlag) : f.Raises (f.raise b) := ⟨flagBit b, rfl⟩

theorem Front.writeRecord_raises (f : Front) (r : LogRecord) : f.Raises (f.writeRecord r) := by
  refine .trans (Front.raise_raises _ .incident) ?_
  exact .ite (Front.raise_raises _ .logFull) (.refl _)

theorem Front.append_raises (f : Front) (r : LogRecord) : f.Raises (f.append r).front := by
  unfold Front.append
  split
  · exact .of_same rfl
  · exact f.writeRecord_raises r

theorem alertRecords_raises (ms : List Monitor) (as : List (Nat × Monitor)) (f : Front) : f.Raises (alertRecords ms as f).1 := by
  induction as generalizing f with
  | nil => exact .refl f
  | cons a as ih => exact ((f.raise_raises .monitorAlert).trans (Front.append_raises _ _)).trans (ih _)

theorem Front.takeOccurrence_raises (f : Front) (o : Occurrence) : f.Raises (f.takeOccurrence o).1 := by
  have alerts := alertRecords_raises f.monitors (alerting o 0 f.monitors) f
  exact .ite (alerts.trans (.of_same rfl)) (alerts.trans (.of_same rfl))

theorem drainEvents_raises (n : Nat) (os : List Occurrence) (f : Front) : f.Raises (drainEvents n os f) := by
  induction n generalizing os f with
  | zero => exact .refl f
  | succ n ih =>
    cases os with
    | nil => exact .refl f
    | cons o os => exact (f.takeOccurrence_raises o).trans (ih _ _)

/-! ## What records and events can do -/

/-- From `f` to `g` records have been made and events sent, and nothing else was done to the host's side. -/
structure Front.Notes (f g : Front) : Prop where
  step   : f.RecordStep g
  logs   : f.LogGrows g
  raised : f.Raises g

namespace Front.Notes

theorem refl (f : Front) : f.Notes f := ⟨.refl f, .refl f, .refl f⟩

theorem trans {f g h : Front} (a : f.Notes g) (b : g.Notes h) : f.Notes h := ⟨a.step.trans b.step, a.logs.trans b.logs, a.raised.trans b.raised⟩

theorem foldl {α : Type} {next : Front → α → Front} (each : ∀ (f : Front) (a : α), f.Notes (next f a)) (as : List α) (f : Front) :
    f.Notes (as.foldl next f) := by
  induction as generalizing f with
  | nil => exact refl f
  | cons a as ih => exact (each f a).trans (ih _)

end Front.Notes

theorem Front.sendEvent_notes (f : Front) (o : Occurrence) : f.Notes (f.sendEvent o) :=
  ⟨f.sendEvent_step o, f.sendEvent_logGrows o, drainEvents_raises _ _ f⟩

theorem Front.makeRecord_notes (f : Front) (r : LogRecord) : f.Notes (f.makeRecord r) :=
  ⟨f.makeRecord_step r, f.makeRecord_logGrows r, (f.append_raises r).trans (drainEvents_raises _ _ _)⟩

theorem Front.makeTied_notes (f : Front) (r : LogRecord) (o : Occurrence) : f.Notes (f.makeTied r o) :=
  (f.makeRecord_notes r).trans (Front.sendEvent_notes _ _)

theorem Front.publishMonitors_notes (f : Front) : f.Notes f.publishMonitors :=
  ⟨f.publishMonitors_step, f.publishMonitors_logGrows, .of_same rfl⟩

/-! ## With no monitor enabled -/

/-- No monitor is enabled. -/
def Front.unwatched (f : Front) : Prop := ∀ m ∈ f.monitors, m.config.enable = false

/-- No monitor waits for its configuration (R138). -/
def Front.configured (f : Front) : Prop := ∀ m ∈ f.monitors, m.pending = none

theorem Front.sendEvent_unwatched {f : Front} (h : f.unwatched) (o : Occurrence) : f.sendEvent o = f :=
  f.sendEvent_of_not_taken o fun m mem => by unfold Monitor.takes; rw [h m mem, Bool.and_false]; rfl

theorem Front.makeRecord_unwatched {f : Front} (h : f.unwatched) (r : LogRecord) : f.makeRecord r = (f.append r).front := by
  refine Front.sendEvent_unwatched ?_ _
  unfold Front.append Front.writeRecord Front.raiseIfFull
  split
  · exact h
  · split <;> exact h

theorem Front.adoptMonitors_configured {f : Front} (h : f.configured) : f.adoptMonitors = f := by
  unfold Front.adoptMonitors
  rw [show f.monitors.map Monitor.adopt = f.monitors from (List.map_congr_left fun m mem => by
    unfold Monitor.adopt; rw [h m mem]; rfl).trans (List.map_id _)]

/-! ## The pass -/

/-- What a pass can write outside the pages of the hold table and the time. -/
def eventRanges : List Range := pageRange .light :: pageRange .energy :: pageRange .motion :: recordRanges

/-- What an event that brings a pass leaves: `x` are its own changes, `t` the blocks at its end. -/
structure Blocks.Passed (x t : Blocks) : Prop where
  shape : t = { x with
    assignment := x.toPower.assign, due := noCauses, feed := t.feed, fhu := t.fhu, bud := x.computePass x.due
    blc := { x.blc with
      pendingDuty := (x.computePass x.due).dCmd, ceiling := (x.computePass x.due).ceiling
      liveDuty := if x.due.emergency then min x.blc.liveDuty (x.computePass x.due).ceiling else x.blc.liveDuty }
    mem := t.mem, summary := t.summary, log := { t.log with effRead := x.log.effRead }, monitors := t.monitors
    gens := { t.gens with time := x.gens.time, mirror := x.gens.mirror } }
  seeks  : x.toPower.Seeks { x.toPower with feed := t.feed, fhu := t.fhu }
  still  : x.feed.pending = ⟨false, false⟩ → t.feed = x.feed ∧ t.fhu = x.fhu
  kept   : keepsOutside eventRanges x.mem t.mem
  logs   : x.toFront.LogGrows t.toFront
  raised : x.toFront.Raises t.toFront
  apart  : x.feed.kind.bay = none → t.feed = x.feed ∧ t.fhu = x.fhu

/-- The pages and the assignment at the end of an event, `post` what follows its pass. -/
def Blocks.concluded (x old : Blocks) (post : Front → Front) : Blocks :=
  let s2 := (x.withPower x.toPower.reassign).runDuePass
  (s2.withFront (post s2.toFront)).publishChanges old

theorem Blocks.sendPassEvents_eq (x : Blocks) : ∃ g, x.sendPassEvents = x.withFront g ∧ x.toFront.Notes g :=
  ⟨_, rfl, (Front.Notes.foldl Front.sendEvent_notes _ _).trans (Front.publishMonitors_notes _)⟩

/-- BLC takes the pass's results (R77, R91, R95). -/
theorem Blocks.takeResults_eq (x : Blocks) (b : BudgetRec) : x.takeResults b = { x with
    bud := b
    blc := { x.blc with
      pendingDuty := b.dCmd, ceiling := b.ceiling
      liveDuty := if b.causes.emergency then min x.blc.liveDuty b.ceiling else x.blc.liveDuty } } := by
  unfold Blocks.takeResults
  dsimp only
  split <;> rfl

/-- The blocks once the pass's results have been taken, the monitors adopted at its boundary (R75, R138). -/
def Blocks.staged (x : Blocks) : Blocks :=
  { x with
    assignment := x.toPower.assign, due := noCauses, monitors := x.monitors.map Monitor.adopt, bud := x.computePass x.due
    blc := { x.blc with
      pendingDuty := (x.computePass x.due).dCmd, ceiling := (x.computePass x.due).ceiling
      liveDuty := if x.due.emergency then min x.blc.liveDuty (x.computePass x.due).ceiling else x.blc.liveDuty } }

theorem Blocks.concluded_of_due {x : Blocks} (due : x.due.any = true) (old : Blocks) (post : Front → Front) :
    x.concluded old post = (((x.staged.withPower (x.staged.toPower.reexamine x.staged.loads)).publishLight.sendPassEvents).withFront
      (post (x.staged.withPower (x.staged.toPower.reexamine x.staged.loads)).publishLight.sendPassEvents.toFront)).publishChanges old := by
  unfold Blocks.concluded Blocks.runDuePass
  rw [if_pos (show (x.withPower x.toPower.reassign).due.any = true from due)]
  unfold Blocks.pass
  dsimp only
  rw [Blocks.takeResults_eq]
  rfl

theorem Blocks.publishChanges_fields (s old : Blocks) : ∃ mem energy motion,
    s.publishChanges old = { s with mem := mem, gens := { s.gens with energy := energy, motion := motion } }
    ∧ keepsOutside [pageRange .motion, pageRange .energy] s.mem mem := by
  obtain ⟨shape, kept, -⟩ := s.publishChanges_frame old
  exact ⟨_, _, _, shape, kept⟩

/-- The light page, the events and the event's pages over blocks `y`: beside them nothing changes. -/
theorem Blocks.published_passed (y old : Blocks) {f : Front} (notes : y.publishLight.toFront.Notes f) :
    ∃ (mem : Mem) (summary : Word) (log : LogRec) (monitors : List Monitor) (e l m n : Word),
      (y.publishLight.withFront f).publishChanges old = { y with
        mem := mem, summary := summary, log := { log with effRead := y.log.effRead }, monitors := monitors
        gens := ⟨e, l, m, n, y.gens.mirror, y.gens.time⟩ }
      ∧ keepsOutside eventRanges y.mem mem
      ∧ y.toFront.LogGrows ((y.publishLight.withFront f).publishChanges old).toFront
      ∧ y.toFront.Raises ((y.publishLight.withFront f).publishChanges old).toFront := by
  obtain ⟨light, -, -⟩ := y.toFront.publish_frame .light (lightPage y)
  obtain ⟨step, logs, raised⟩ := notes
  obtain ⟨mem, energy, motion, same, pages⟩ := (y.publishLight.withFront f).publishChanges_fields old
  have area : keepsOutside eventRanges y.mem mem :=
    keepsOutside_trans (keepsOutside_mono (ss := eventRanges) light (by simp [eventRanges]))
      (keepsOutside_trans (keepsOutside_mono (ss := eventRanges) step.kept fun _ mem =>
        List.mem_cons_of_mem _ (List.mem_cons_of_mem _ (List.mem_cons_of_mem _ mem))) (keepsOutside_mono pages (by simp [eventRanges])))
  rw [same]
  have grows := ((y.toFront.publish_logGrows .light (lightPage y)).trans logs).trans (h := { f with
    mem := mem, gens := { f.gens with energy := energy, motion := motion } }) (.of_beside rfl pages (by simp [pageRange, PageId.offset]))
  have raises := Front.Raises.trans (f := y.toFront) (.of_same rfl) (raised.trans (h := { f with
    mem := mem, gens := { f.gens with energy := energy, motion := motion } }) (.of_same rfl))
  obtain ⟨mem', summary, log, monitors, gen, rfl⟩ := step.fields
  exact ⟨_, _, _, _, _, _, _, _, rfl, area, grows, raises⟩

/-- Nothing pends that FHU could examine where the feed is no bay (R34). -/
theorem Power.reexamine_apart {p : Power} (apart : p.feed.kind.bay = none) (l : Loads) : p.reexamine l = p := by
  unfold Power.reexamine
  rw [apart]

theorem Blocks.concluded_passed {x : Blocks} (due : x.due.any = true) (old : Blocks) {post : Front → Front} (notes : ∀ f : Front, f.Notes (post f)) :
    x.Passed (x.concluded old post) := by
  rw [x.concluded_of_due due old post]
  have seeks := x.staged.toPower.reexamine_seeks x.staged.loads
  have still (calm : x.staged.feed.pending = ⟨false, false⟩ ∨ x.staged.feed.kind.bay = none) : x.staged.toPower.reexamine x.staged.loads = x.staged.toPower :=
    calm.elim (fun none_pends => Power.reexamine_still none_pends _) (fun apart => Power.reexamine_apart apart _)
  generalize x.staged.toPower.reexamine x.staged.loads = p at seeks still
  obtain ⟨rest, feed, started⟩ := seeks
  obtain ⟨fd, fh, rfl⟩ : ∃ fd fh, p = { x.staged.toPower with feed := fd, fhu := fh } := ⟨_, _, rest⟩
  generalize own : x.staged.withPower { x.staged.toPower with feed := fd, fhu := fh } = y
  obtain ⟨g, sent, events⟩ := y.publishLight.sendPassEvents_eq
  rw [sent]
  obtain ⟨mem, summary, log, monitors, e, l, m, n, same, kept, logs, raised⟩ := y.published_passed old (events.trans (notes g))
  show x.Passed (((y.publishLight.withFront g).withFront (post g)).publishChanges old)
  rw [show ((y.publishLight.withFront g).withFront (post g)).publishChanges old = _ from same]
  rw [same] at logs raised
  subst own
  have stays (calm : x.feed.pending = ⟨false, false⟩ ∨ x.feed.kind.bay = none) : fd = x.feed ∧ fh = x.fhu :=
    ⟨congrArg (fun q : Power => q.feed) (still calm), congrArg (fun q : Power => q.fhu) (still calm)⟩
  exact ⟨rfl, ⟨rfl, feed, started⟩, fun none_pends => stays (.inl none_pends), kept, .trans (g := x.staged.toFront) (.of_same rfl rfl) logs,
    .trans (g := x.staged.toFront) (.of_same rfl) raised, fun apart => stays (.inr apart)⟩

theorem Blocks.settled_passed {x : Blocks} (due : x.due.any = true) (old : Blocks) : x.Passed (x.settled old) :=
  x.concluded_passed due old (post := id) .refl

theorem sendEvents_unwatched {f : Front} (unwatched : f.unwatched) (os : List Occurrence) : os.foldl Front.sendEvent f = f := by
  induction os with
  | nil => rfl
  | cons o os ih => rw [List.foldl_cons, Front.sendEvent_unwatched unwatched, ih]

theorem Blocks.sendPassEvents_silent {x : Blocks} (unwatched : x.toFront.unwatched) : x.sendPassEvents.log = x.log := by
  unfold Blocks.sendPassEvents
  rw [sendEvents_unwatched unwatched]
  rfl

/-- With no monitor enabled the pass makes no record. -/
theorem Blocks.settled_silent {x : Blocks} (unwatched : x.toFront.unwatched) (configured : x.toFront.configured) (old : Blocks) :
    (x.settled old).log = x.log := by
  by_cases due : x.due.any = true
  · show (x.concluded old id).log = x.log
    rw [x.concluded_of_due due old id]
    obtain ⟨rest, -, -⟩ := x.staged.toPower.reexamine_seeks x.staged.loads
    generalize x.staged.toPower.reexamine x.staged.loads = p at rest
    obtain ⟨fd, fh, rfl⟩ : ∃ fd fh, p = { x.staged.toPower with feed := fd, fhu := fh } := ⟨_, _, rest⟩
    generalize own : x.staged.withPower { x.staged.toPower with feed := fd, fhu := fh } = y
    have same : y.toFront = x.toFront := by
      subst own
      exact Front.adoptMonitors_configured configured
    have silent : y.publishLight.sendPassEvents.log = x.log := by
      rw [Blocks.sendPassEvents_silent (x := y.publishLight) (show y.toFront.unwatched by rw [same]; exact unwatched)]
      show y.log = x.log
      exact congrArg Front.log same
    generalize y.publishLight.sendPassEvents = z at silent
    obtain ⟨mem, energy, motion, shape, -⟩ := (z.withFront z.toFront).publishChanges_fields old
    show ((z.withFront z.toFront).publishChanges old).log = x.log
    rw [shape]
    exact silent
  · obtain ⟨mem, energy, motion, same, -⟩ := (x.withPower x.toPower.reassign).publishChanges_fields old
    show ((x.withPower x.toPower.reassign).runDuePass.publishChanges old).log = _
    unfold Blocks.runDuePass
    rw [if_neg (show ¬ (x.withPower x.toPower.reassign).due.any = true from due), same]
    rfl

end Sys2Proof.Machine
end

section
/-! PROOF. An event of one bay: its record and its link, the host's side, the charger and the energy page (R2, R14, R24, R158, R162). -/

namespace Sys2Proof.Machine

open Sys2Proof.Safety

/-! ## The end of a release on the host's side -/

/-- The in-flight entry that the end of a release completes (R14). -/
def Front.owes (f : Front) (r : Release) : Option InFlight :=
  match r.origin with
  | .button => none
  | .software slot => if r.slotOpen then f.entryOf slot else none

theorem owedBy_eq (s : State) (r : Release) : owedBy s r = s.toFront.owes r := rfl

theorem Front.owes_congr {f g : Front} (list : g.inFlight = f.inFlight) (r : Release) : g.owes r = f.owes r := by
  unfold Front.owes Front.entryOf
  rw [list]

/-- The in-flight list without that entry (R162). -/
def Front.without (f : Front) : Option InFlight → List InFlight
  | none => f.inFlight
  | some e => f.inFlight.filter fun x => decide (x.slot ≠ e.slot)

theorem listWithout_eq (s : State) (o : Option InFlight) : listWithout s o = s.toFront.without o := by cases o <;> rfl

theorem Front.without_congr {f g : Front} (list : g.inFlight = f.inFlight) (o : Option InFlight) : g.without o = f.without o := by
  unfold Front.without
  rw [list]

/-- The entry completes, where there is one. -/
def Front.completeOwed (f : Front) (o : Option InFlight) (c : Completion) : Front :=
  match o with
  | none => f
  | some e => f.complete e.slot c

theorem Front.owes_found {f : Front} {r : Release} {e : InFlight} (owed : f.owes r = some e) : f.entryOf e.slot = some e := by
  have found {i : Fin 32} (entry : f.entryOf i = some e) : f.entryOf e.slot = some e := by
    have same : e.slot = i := by simpa using List.find?_some (p := fun x : InFlight => decide (x.slot = i)) entry
    rw [same]
    exact entry
  unfold Front.owes at owed
  split at owed
  · cases owed
  · split at owed
    · exact found owed
    · cases owed

theorem Power.completeRelease_eq (p : Power) (b : Bay) (r : Release) (code : ResultCode) (failed : Bool) :
    p.completeRelease b r code failed
      = { p with toFront := p.toFront.completeOwed (p.toFront.owes r) ⟨code, false, failed, releaseData b r p.tmb.uptime⟩ } := by
  unfold Power.completeRelease Front.owes
  cases r.origin with
  | button => rfl
  | software slot =>
    dsimp only
    cases r.slotOpen
    · rfl
    · rw [if_pos rfl, if_pos rfl]
      cases found : p.toFront.entryOf slot with
      | none => rw [p.toFront.complete_of_not_flying _ _ found]; rfl
      | some e =>
        have same : e.slot = slot := by simpa using List.find?_some (p := fun x : InFlight => decide (x.slot = slot)) found
        rw [← same]
        rfl

/-- The release of entry `o` has ended between `f` and `g`: the entry is off the in-flight list and its slot is DONE with this result. -/
structure Front.Ended (o : Option InFlight) (flags : Byte) (code : ResultCode) (data : List Byte) (f g : Front) : Prop where
  list : g.inFlight = f.without o
  done : ∀ e, o = some e → (e.notify = true → g.summary &&& 0x01 ≠ 0) ∧ answeredFlags g.mem (postingOf e) e.kind flags code data

theorem reqDone_up (w : Word) : (w ||| 0x01) &&& 0x01 ≠ 0 := by
  intro h
  have bit : ((w ||| 0x01) &&& 0x01).getLsbD 0 = true := by
    rw [BitVec.getLsbD_and, BitVec.getLsbD_or, show (0x01 : Word).getLsbD 0 = true from by decide]
    simp
  rw [h] at bit
  exact absurd bit (by decide)

theorem Front.completeOwed_ended {f : Front} {r : Release} {o : Option InFlight} (owed : f.owes r = o) (c : Completion) :
    Front.Ended o (resultFlags c.clamped c.transferFailed) c.code c.data f (f.completeOwed o c) := by
  cases o with
  | none => exact ⟨rfl, nofun⟩
  | some e =>
    have found := Front.owes_found owed
    refine ⟨congrArg Front.inFlight (f.complete_of_flying _ c e found), fun _ same => ?_⟩
    cases same
    refine ⟨fun notify => ?_, f.complete_answers found c⟩
    show (f.complete e.slot c).summary &&& 0x01 ≠ 0
    rw [f.complete_of_flying _ c e found]
    dsimp only
    rw [if_pos notify]
    exact reqDone_up _

/-- The result stands while flags only rise and bytes beside the slots are written. -/
theorem Front.Ended.later {o : Option InFlight} {flags : Byte} {code : ResultCode} {data : List Byte} {f g h : Front}
    (a : Front.Ended o flags code data f g) (list : h.inFlight = g.inFlight) (raised : g.Raises h) {rs : List Range}
    (kept : keepsOutside rs g.mem h.mem) (beside : besideSlots rs) : Front.Ended o flags code data f h :=
  ⟨list.trans a.list, fun e owed => ⟨fun notify => raised.up ((a.done e owed).1 notify), answeredFlags_kept (a.done e owed).2 kept beside⟩⟩

theorem Front.Ended.earlier {o : Option InFlight} {flags : Byte} {code : ResultCode} {data : List Byte} {e f g : Front}
    (a : Front.Ended o flags code data f g) (list : f.inFlight = e.inFlight) : Front.Ended o flags code data e g :=
  ⟨a.list.trans (Front.without_congr list o), a.done⟩

theorem Front.completeOwed_fields (f : Front) {r : Release} {o : Option InFlight} (owed : f.owes r = o) (c : Completion) : ∃ mem,
    f.completeOwed o c = { f with mem := mem, summary := summaryAfter f.summary o, inFlight := f.without o }
    ∧ keepsOutside (endRanges o) f.mem mem := by
  cases o with
  | none => exact ⟨_, rfl, keepsOutside_refl _ _⟩
  | some e =>
    have found := Front.owes_found owed
    obtain ⟨-, kept, -⟩ := f.complete_frame e.slot c
    refine ⟨_, f.complete_of_flying _ c e found, ?_⟩
    rw [f.complete_of_flying _ c e found] at kept
    exact kept

/-! ## The event -/

/-- Bay `b`'s record, its link and the host's side replaced. -/
def Power.putBay (p : Power) (b : Bay) (r : BayRec) (l : Link) (f : Front) : Power := { (p.setBay b r).setLink b l with toFront := f }

/-- What an event of bay `b` leaves that changes its record and its link and leaves the host's side as `f`. -/
structure State.BayGoes (s : State) (b : Bay) (r : BayRec) (l : Link) (f : Front) (t : State) : Prop where
  bay : t.bay b = r
  link : t.link b = l
  other : t.bay (otherBay b) = s.bay (otherBay b) ∧ t.link (otherBay b) = s.link (otherBay b)
  front : t.toFront = { f with mem := t.mem, gens := { f.gens with energy := f.gens.energy + 2 } }
  rest : t = { s with
    toFront := t.toFront, bayA := t.bayA, bayB := t.bayB, linkA := t.linkA, linkB := t.linkB, assignment := t.assignment
    pins := derivePins t.toBlocks }
  charger : ChargerSettled t.toPower
  kept : keepsOutside energyRanges f.mem t.mem

/-- The state after an event of the bays, FHU or HLD whose own changes give `q`. -/
def State.after (s : State) (q : Power) : State := s.withBlocks ((s.toBlocks.withPower q).settled s.toBlocks)

theorem energyChanged_of_bay {s : Blocks} {b : Bay} {r : BayRec} (changed : r.listed ≠ (s.bay b).listed) {x : Blocks} (put : x.bay b = r) :
    energyChanged s x = true := by
  unfold energyChanged
  cases b
  · have ne : s.bayA.listed ≠ x.bayA.listed := fun same => changed (put ▸ same.symm)
    simp [ne]
  · have ne : s.bayB.listed ≠ x.bayB.listed := fun same => changed (put ▸ same.symm)
    simp [ne]

theorem State.after_bayGoes {s : State} (none_due : s.due = noCauses) {b : Bay} {r : BayRec} (changed : r.listed ≠ (s.bay b).listed)
    (l : Link) (f : Front) : s.BayGoes b r l f (s.after (s.toPower.putBay b r l f)) := by
  have due : (s.toBlocks.withPower (s.toPower.putBay b r l f)).due = noCauses := by cases b <;> exact none_due
  obtain ⟨mem, settled, kept, -⟩ := Blocks.settled_energy (old := s.toBlocks) due rfl
  have energy : energyChanged s.toBlocks ((s.toBlocks.withPower (s.toPower.putBay b r l f)).withPower
      (s.toBlocks.withPower (s.toPower.putBay b r l f)).toPower.reassign) = true :=
    energyChanged_of_bay changed (by cases b <;> rfl)
  rw [energy, if_pos rfl] at settled
  have charger := (s.toBlocks.withPower (s.toPower.putBay b r l f)).toPower.chargerSettled_reassign
  unfold State.after
  rw [settled]
  cases b
  · exact ⟨rfl, rfl, ⟨rfl, rfl⟩, rfl, rfl, charger, kept⟩
  · exact ⟨rfl, rfl, ⟨rfl, rfl⟩, rfl, rfl, charger, kept⟩

namespace State.BayGoes

variable {s t : State} {b : Bay} {r : BayRec} {l : Link} {f : Front}

theorem bayEvent (h : s.BayGoes b r l s.toFront t) : BayEvent b s t := by
  refine ⟨h.rest.trans ?_, h.other.1, h.other.2, h.charger, h.kept⟩
  rw [h.front]

theorem grows (h : s.BayGoes b r l f t) : f.LogGrows t.toFront := by
  refine .of_beside ?_ h.kept (by simp [energyRanges, pageRange, PageId.offset])
  rw [h.front]

theorem raised (h : s.BayGoes b r l f t) : f.Raises t.toFront := .of_same (by rw [h.front])

theorem recordEvent (h : s.BayGoes b r l f t) (notes : s.toFront.Notes f) : BayRecordEvent b s t := by
  have area := keepsOutside_trans (keepsOutside_mono (ss := pageRange .energy :: recordRanges ++ []) notes.step.kept
    (by rw [List.append_nil]; exact fun _ => List.mem_cons_of_mem _))
    (keepsOutside_mono h.kept (by simp [energyRanges]))
  refine ⟨h.rest.trans ?_, h.other.1, h.other.2, h.charger, area⟩
  obtain ⟨mem, summary, log, monitors, gen, rfl⟩ := notes.step.fields
  rw [h.front]

theorem logged (h : s.BayGoes b r l f t) {x : LogRecord} {time : Timebase} (logs : s.toFront.Logs f x time) :
    Logged s.toFront t.toFront x time := (logs.later h.grows).logged

/-- No record: the log stands. -/
theorem unlogged (h : s.BayGoes b r l f t) (log : f.log = s.log) : t.log = s.log := by
  show t.toFront.log = s.log
  rw [h.front]
  exact log

/-- The event ends a release, and `g` is the host's side before it does. -/
theorem releaseEnds {g : Front} {x : Release} {failed : Bool} {code : ResultCode}
    (h : s.BayGoes b r l (g.completeOwed (owedBy s x) ⟨code, false, failed, releaseData b x s.tmb.uptime⟩) t)
    (notes : s.toFront.Notes g) : ReleaseEnds b x code failed s t := by
  have list : g.inFlight = s.inFlight := by rw [notes.step.shape]
  have owed : g.owes x = owedBy s x := Front.owes_congr list x
  have ended := ((Front.completeOwed_ended owed ⟨code, false, failed, releaseData b x s.tmb.uptime⟩).later (h := t.toFront) (by rw [h.front]) h.raised
    h.kept (by simp [besideSlots, energyRanges, pageRange, PageId.offset])).earlier list
  have flags : resultFlags false failed = if failed then 2 else 0 := by cases failed <;> rfl
  refine ⟨?_, fun e owes => ?_⟩
  · rw [listWithout_eq]
    exact ended.list
  · rw [← flags]
    exact ended.done e owes

theorem releaseRecordEvent {g : Front} {x : Release} {c : Completion} (h : s.BayGoes b r l (g.completeOwed (owedBy s x) c) t)
    (notes : s.toFront.Notes g) : ReleaseRecordEvent b x s t := by
  have list : g.inFlight = s.inFlight := by rw [notes.step.shape]
  obtain ⟨mem', complete, done⟩ := g.completeOwed_fields (Front.owes_congr list x) c
  rw [← owedBy_eq] at complete done
  have kept := h.kept
  rw [complete] at kept
  have area := keepsOutside_trans (keepsOutside_mono (ss := pageRange .energy :: recordRanges ++ endRanges (owedBy s x)) notes.step.kept (by simp +contextual))
    (keepsOutside_trans (keepsOutside_mono (ss := pageRange .energy :: recordRanges ++ endRanges (owedBy s x)) done (by simp +contextual))
      (keepsOutside_mono kept (by simp [energyRanges])))
  refine ⟨h.rest.trans ?_, h.other.1, h.other.2, h.charger, area⟩
  rw [h.front, complete]
  obtain ⟨mem, summary, log, monitors, gen, rfl⟩ := notes.step.fields
  rfl

/-- The release ends without a record. -/
theorem releaseEvent {x : Release} {c : Completion} (h : s.BayGoes b r l (s.toFront.completeOwed (owedBy s x) c) t) : ReleaseEvent b x s t := by
  obtain ⟨mem', complete, done⟩ := s.toFront.completeOwed_fields (Front.owes_congr rfl x) c
  rw [← owedBy_eq] at complete done
  have kept := h.kept
  rw [complete] at kept
  refine ⟨h.rest.trans ?_, h.other.1, h.other.2, h.charger,
    keepsOutside_trans (keepsOutside_mono done (by simp +contextual)) (keepsOutside_mono kept (by simp +contextual))⟩
  rw [h.front, complete, listWithout_eq]

end State.BayGoes

end Sys2Proof.Machine
end

section
/-! PROOF. The operations of one bay, by what they make of its record, its link and the host's side (R2, R3, R9, R13, R14, R19). -/

namespace Sys2Proof.Machine

open Sys2Proof.Safety

/-! ## The operations over a bay's record, link and host's side -/

section
variable (p : Power) (b : Bay) (r : BayRec) (l : Link) (f : Front)

theorem Power.putBay_self : p.putBay b (p.bay b) (p.link b) p.toFront = p := by cases b <;> rfl

@[simp] theorem Power.putBay_bay : (p.putBay b r l f).bay b = r := by cases b <;> rfl
@[simp] theorem Power.putBay_link : (p.putBay b r l f).link b = l := by cases b <;> rfl
@[simp] theorem Power.putBay_bay_other : (p.putBay b r l f).bay (otherBay b) = p.bay (otherBay b) := by cases b <;> rfl
@[simp] theorem Power.putBay_toFront : (p.putBay b r l f).toFront = f := by cases b <;> rfl
@[simp] theorem Power.putBay_feed : (p.putBay b r l f).feed = p.feed := by cases b <;> rfl
@[simp] theorem Power.putBay_fhu : (p.putBay b r l f).fhu = p.fhu := by cases b <;> rfl
@[simp] theorem Power.putBay_hld : (p.putBay b r l f).hld = p.hld := by cases b <;> rfl
@[simp] theorem Power.putBay_bayPolicy : (p.putBay b r l f).bayPolicy = p.bayPolicy := by cases b <;> rfl
@[simp] theorem Power.putBay_due : (p.putBay b r l f).due = p.due := by cases b <;> rfl

@[simp] theorem Power.putBay_setBay (r' : BayRec) : (p.putBay b r l f).setBay b r' = p.putBay b r' l f := by cases b <;> rfl
@[simp] theorem Power.putBay_setLink (l' : Link) : (p.putBay b r l f).setLink b l' = p.putBay b r l' f := by cases b <;> rfl

theorem Power.setBay_eq : p.setBay b r = p.putBay b r (p.link b) p.toFront := by cases b <;> rfl
theorem Power.setLink_eq : p.setLink b l = p.putBay b (p.bay b) l p.toFront := by cases b <;> rfl

end

/-- The link of a bay that enters a state: idle where the state is neither polled nor identifying (R9). -/
def Link.under (l : Link) (st : BayState) : Link :=
  match st with
  | .seated _ => l
  | _ => if st.polls then l else { l with activity := .idle, pollAt := none }

theorem Link.under_of_polls {st : BayState} (polls : st.polls = true) (l : Link) : l.under st = l := by
  unfold Link.under
  rw [if_pos polls]
  split <;> rfl

theorem Link.under_idle {st : BayState} (still : st.polls = false) (leaves : ∀ d, st ≠ .seated d) (l : Link) :
    l.under st = { l with activity := .idle, pollAt := none } := by
  unfold Link.under
  split
  · exact absurd rfl (leaves _)
  · rw [still]; rfl

section
variable (p : Power) (b : Bay) (r : BayRec) (l : Link) (f : Front)

@[simp] theorem Power.putBay_setState (st : BayState) : (p.putBay b r l f).setState b st = p.putBay b { r with state := st } (l.under st) f := by
  unfold Power.setState Link.under
  rw [Power.putBay_setBay, Power.putBay_bay, Power.putBay_link]
  dsimp only
  cases st
  case seated => rfl
  all_goals
    dsimp only
    split
    · rfl
    · exact Power.putBay_setLink ..

theorem Power.setState_eq (st : BayState) :
    p.setState b st = p.putBay b { p.bay b with state := st } ((p.link b).under st) p.toFront := by
  have put := (p.putBay_setState b (p.bay b) (p.link b) p.toFront st)
  rwa [p.putBay_self b] at put

@[simp] theorem Power.putBay_setBlink (e : Option Nat) : (p.putBay b r l f).setBlink b e = p.putBay b { r with blinkEnd := e } l f := by
  cases b <;> rfl

@[simp] theorem Power.putBay_makeRecord (x : LogRecord) : (p.putBay b r l f).makeRecord x = p.putBay b r l (f.makeRecord x) := by
  cases b <;> rfl

@[simp] theorem Power.putBay_makeTied (x : LogRecord) (o : Occurrence) :
    (p.putBay b r l f).makeTied x o = p.putBay b r l (f.makeTied x o) := by cases b <;> rfl

@[simp] theorem Power.putBay_packFault (x : FaultReason) :
    (p.putBay b r l f).packFault b x = p.putBay b r l (f.makeRecord (.packFault b x ((r.identity.map fun i => i.serial).getD 0))) := by
  cases b <;> rfl

@[simp] theorem Power.putBay_completeRelease (x : Release) (code : ResultCode) (failed : Bool) :
    (p.putBay b r l f).completeRelease b x code failed
      = p.putBay b r l (f.completeOwed (f.owes x) ⟨code, false, failed, releaseData b x f.tmb.uptime⟩) := by
  rw [Power.completeRelease_eq]
  cases b <;> rfl

@[simp] theorem Power.putBay_enterSeated : (p.putBay b r l f).enterSeated b = p.putBay b
    { r with state := .seated (f.tmb.uptime + 2000), identity := none, packState := none, failedPolls := 0 }
    { l with activity := .identRead 0 false f.tmb.uptime, pollAt := none } f := by cases b <;> rfl

end

/-! ## What the energy page shows of a bay -/

/-- The state as Table 1-2 lists it. -/
def BayState.shown : BayState → BayState
  | .releaseWait x => .releaseWait { x with slotOpen := false }
  | st => st

theorem BayRec.listed_eq (r : BayRec) : r.listed = { r with state := r.state.shown } := by
  obtain ⟨st, i, k, n, e, p, o⟩ := r
  cases st <;> rfl

theorem BayRec.listed_ne_of_state {r q : BayRec} (h : r.state.shown ≠ q.state.shown) : r.listed ≠ q.listed := by
  rw [r.listed_eq, q.listed_eq]
  exact fun same => h (congrArg BayRec.state same)

/-- Every other field of Table 1-2 shows as it is. -/
theorem BayRec.listed_ne {α : Type} (field : BayRec → α) (kept : ∀ (r : BayRec) (st : BayState), field { r with state := st } = field r)
    {r q : BayRec} (h : field r ≠ field q) : r.listed ≠ q.listed := by
  rw [r.listed_eq, q.listed_eq]
  exact fun same => h ((kept r _).symm.trans ((congrArg field same).trans (kept q _)))

/-! ## Running such an event -/

/-- An event of the bays on a running part. -/
theorem State.powerEvent_after {s : State} (on : s.powered = true) (op : Power → Loads → Power) :
    (s.whilePowered fun x => x.powerEvent op) = .next (s.after (op s.toPower s.loads)) := s.whilePowered_on _ on

theorem State.after_put {s : State} (h : Ready s) {q : Power} {b : Bay} {r : BayRec} {l : Link} {f : Front}
    (put : q = s.toPower.putBay b r l f) (changed : r.listed ≠ (s.bay b).listed) : s.BayGoes b r l f (s.after q) := by
  rw [put]
  exact s.after_bayGoes h.2 changed l f

/-! ## Presence -/

theorem Power.seat_of_empty {p : Power} {b : Bay} (empty : (p.bay b).state = .empty) : p.seat b = p.putBay b
    { p.bay b with state := .seated (p.tmb.uptime + 2000), identity := none, packState := none, failedPolls := 0, presence := true }
    { p.link b with activity := .identRead 0 false p.tmb.uptime, pollAt := none } p.toFront := by
  unfold Power.seat
  rw [empty]
  dsimp only
  rw [p.setBay_eq, Power.putBay_enterSeated]

theorem Power.openExpires_due {p : Power} {b : Bay} {d : Nat} (opened : (p.bay b).state = .opened d) (due : d ≤ p.tmb.uptime) :
    p.openExpires b = p.enterSeated b := by
  unfold Power.openExpires
  rw [opened]
  exact if_pos due

theorem Power.enterSeated_eq (p : Power) (b : Bay) : p.enterSeated b = p.putBay b
    { p.bay b with state := .seated (p.tmb.uptime + 2000), identity := none, packState := none, failedPolls := 0 }
    { p.link b with activity := .identRead 0 false p.tmb.uptime, pollAt := none } p.toFront := by cases b <;> rfl

/-- Settles O6. -/
theorem seatedBaysAreIdentifiedAnew : Obligations.SeatedBaysAreIdentifiedAnew := by
  refine ⟨fun b s h empty late => ?_, fun b d s h opened due => ?_⟩
  · have goes := s.after_put h (Power.seat_of_empty empty) (BayRec.listed_ne_of_state (by rw [show (s.bay b).state = .empty from empty]; nofun))
    refine ⟨_, ?_, goes.bay, goes.link, goes.bayEvent⟩
    rw [exec_presenceClosed, s.whilePowered_on _ h.1, Blocks.whenDue_due _ earliestPresence _ late]
    rfl
  · have goes := s.after_put h (s.toPower.enterSeated_eq b) (BayRec.listed_ne_of_state (by rw [opened]; nofun))
    refine ⟨_, ?_, goes.bay, goes.link, ?_, goes.bayEvent⟩
    · rw [exec_openWindow, State.powerEvent_after h.1, Power.openExpires_due opened due]
    · unfold Power.latchLock
      rw [goes.bay]
      rfl

/-! ### Presence opening on a bay that is not the feed -/

theorem Power.leftStandby_elsewhere {p : Power} {b : Bay} (elsewhere : ∀ w, p.feed.switchover = some w → w.target ≠ feedOf b) (l : Loads) :
    p.leftStandby l b = p := by
  unfold Power.leftStandby
  split
  · exact if_neg (elsewhere _ ‹_›)
  · rfl

/-- The record of an EMPTY bay (R3, Table 1-4). -/
def BayRec.emptied (r : BayRec) : BayRec := ⟨.empty, none, none, 0, none, false, r.latchOpen⟩

theorem Power.unseat_waiting {p : Power} {b : Bay} {r : Release} (waits : (p.bay b).state = .releaseWait r) (not_feed : p.feed.kind ≠ feedOf b)
    (l : Loads) : p.unseat l b = p.putBay b (p.bay b).emptied idleLink
      (p.toFront.completeOwed (p.toFront.owes r) ⟨.nothingToRelease, false, false, releaseData b r p.tmb.uptime⟩) := by
  unfold Power.unseat
  rw [waits, p.setBay_eq, Power.putBay_setLink]
  dsimp only
  refine (if_neg (by rw [Power.putBay_completeRelease, Power.putBay_feed]; exact not_feed)).trans ?_
  exact Power.putBay_completeRelease ..

theorem Power.unseat_apart {p : Power} {b : Bay} (none_waits : ∀ r, (p.bay b).state ≠ .releaseWait r) (not_feed : p.feed.kind ≠ feedOf b)
    (elsewhere : ∀ w, p.feed.switchover = some w → w.target ≠ feedOf b) (l : Loads) :
    p.unseat l b = p.putBay b (p.bay b).emptied idleLink p.toFront := by
  unfold Power.unseat
  rw [p.setBay_eq, Power.putBay_setLink]
  dsimp only
  split
  · exact absurd ‹_› (none_waits _)
  · rw [Power.putBay_feed, if_neg not_feed, Power.leftStandby_elsewhere (by rw [Power.putBay_feed]; exact elsewhere), ite_self]
    rfl

theorem exec_presenceOpened_apart {b : Bay} {s : State} (h : Ready s) (seated : (s.bay b).state ≠ .empty) (not_feed : s.feed.kind ≠ feedOf b) :
    exec (.presenceOpened b) s = .next (s.after (s.toPower.unseat s.loads b)) := by
  rw [exec_presenceOpened, s.whilePowered_on _ h.1, if_neg seated, if_neg not_feed]
  rfl

/-- Settles O7. -/
theorem presenceOpeningEmptiesTheBay : Obligations.PresenceOpeningEmptiesTheBay := by
  refine ⟨fun b s h not_feed seated none_waits elsewhere => ?_, fun b r s h not_feed waits => ?_, fun b s h charger driven empty => ⟨fun gone => ?_,
    fun there => ?_⟩⟩
  · have goes := s.after_put h (Power.unseat_apart (p := s.toPower) none_waits not_feed elsewhere s.loads) (BayRec.listed_ne_of_state ?_)
    · exact ⟨_, exec_presenceOpened_apart h seated not_feed, goes.bay, goes.link, goes.bayEvent⟩
    · show BayState.shown .empty ≠ _
      cases st : (s.bay b).state <;> simp_all [BayState.shown]
  · have goes := s.after_put h (Power.unseat_waiting (p := s.toPower) waits not_feed s.loads)
      (BayRec.listed_ne_of_state (by rw [waits]; nofun))
    exact ⟨_, exec_presenceOpened_apart h (by rw [waits]; nofun) not_feed, goes.bay, goes.link, goes.releaseEnds (.refl _), goes.releaseEvent⟩
  · rw [exec_presenceOpened]
    refine s.whilePowered_still h.1 driven ((if_pos empty).trans (Blocks.powerEvent_still h.2 charger ?_))
    show s.toPower.setBay b { s.bay b with presence := false } = s.toPower
    rw [← gone]
    exact (s.toPower.setBay_eq b _).trans (s.toPower.putBay_self b)
  · have goes := s.after_put h (s.toPower.setBay_eq b { s.bay b with presence := false })
      (BayRec.listed_ne BayRec.presence (fun _ _ => rfl) (by rw [there]; nofun))
    refine ⟨_, ?_, goes.bay, goes.link, goes.bayEvent⟩
    rw [exec_presenceOpened, s.whilePowered_on _ h.1, if_pos empty]
    rfl

end Sys2Proof.Machine
end

section
/-! PROOF. Releases of a bay that is not the feed: their start, their end by the latch, by a deadline and by a press (R14 to R21). -/

namespace Sys2Proof.Machine

open Sys2Proof.Safety

/-! ## What records leave of the host's side -/

theorem Front.Notes.tmb {f g : Front} (h : f.Notes g) : g.tmb = f.tmb := by rw [h.step.shape]

theorem Front.Notes.inFlight {f g : Front} (h : f.Notes g) : g.inFlight = f.inFlight := by rw [h.step.shape]

theorem Front.Notes.owes {f g : Front} (h : f.Notes g) (r : Release) : g.owes r = f.owes r := Front.owes_congr h.inFlight r

theorem Front.completeOwed_logGrows (f : Front) (o : Option InFlight) (c : Completion) : f.LogGrows (f.completeOwed o c) := by
  cases o with
  | none => exact .refl f
  | some e => exact f.complete_logGrows e.slot c

/-! ## The latch opens (R19) -/

/-- The SWAP record of a release with a takeover source. -/
def Front.noteSwap (f : Front) (b : Bay) (x : Release) : Front :=
  match x.takeover with
  | none => f
  | some k => f.makeTied (.swap b k (f.tmb.uptime - x.requestAt) x.origin) ⟨.swap, swapBit k, none⟩

theorem Front.noteSwap_notes (f : Front) (b : Bay) (x : Release) : f.Notes (f.noteSwap b x) := by
  unfold Front.noteSwap
  split
  · exact .refl f
  · exact f.makeTied_notes _ _

section
variable (p : Power) (b : Bay) (r : BayRec) (l : Link) (f : Front)

/-- What the end of a release hands its slot. -/
def releaseResult (b : Bay) (x : Release) (now : Nat) (code : ResultCode) (failed : Bool) : Completion :=
  ⟨code, false, failed, releaseData b x now⟩

theorem Power.putBay_confirmOpen (x : Release) : (p.putBay b r l f).confirmOpen b x = p.putBay b
    { r with state := .opened (f.tmb.uptime + p.bayPolicy.openWindow * 1000) } { l with activity := .idle, pollAt := none }
    ((f.noteSwap b x).completeOwed (f.owes x) (releaseResult b x f.tmb.uptime .ok false)) := by
  have idle (d : Nat) : l.under (.opened d) = { l with activity := .idle, pollAt := none } := Link.under_idle rfl (by simp) l
  have tmb : (p.putBay b r l f).tmb = f.tmb := by cases b <;> rfl
  unfold Power.confirmOpen
  rw [tmb, Power.putBay_bayPolicy, Power.putBay_setState, idle]
  have notes := f.noteSwap_notes b x
  unfold Front.noteSwap at notes ⊢
  cases swap : x.takeover with
  | none =>
    dsimp only
    rw [Power.putBay_completeRelease]
    rfl
  | some k =>
    rw [swap] at notes
    dsimp only at notes ⊢
    rw [Power.putBay_makeTied, Power.putBay_completeRelease, Front.Notes.owes notes, Front.Notes.tmb notes]
    rfl

end

theorem Power.senseLatch_confirms {p : Power} {b : Bay} {r : Release} {u : Nat} (waits : (p.bay b).state = .releaseWait r)
    (unlatching : r.sub = .unlatching u) : p.senseLatch b true = p.putBay b
      { p.bay b with latchOpen := true, state := .opened (p.tmb.uptime + p.bayPolicy.openWindow * 1000) }
      { p.link b with activity := .idle, pollAt := none }
      ((p.toFront.noteSwap b r).completeOwed (p.toFront.owes r) (releaseResult b r p.tmb.uptime .ok false)) := by
  unfold Power.senseLatch
  rw [waits]
  dsimp only
  rw [unlatching]
  dsimp only
  rw [if_pos rfl, p.setBay_eq, Power.putBay_confirmOpen]

theorem Power.senseLatch_alone {p : Power} {b : Bay} (none_unlatches : ∀ r u, (p.bay b).state = .releaseWait r → r.sub ≠ .unlatching u) (v : Bool) :
    p.senseLatch b v = p.putBay b { p.bay b with latchOpen := v } (p.link b) p.toFront := by
  unfold Power.senseLatch
  rw [p.setBay_eq]
  split
  · split
    · exact absurd ‹_› (none_unlatches _ _ ‹_›)
    · rfl
  · rfl

/-- Settles O9. -/
theorem latchOpeningOpensTheBay : Obligations.LatchOpeningOpensTheBay := by
  refine ⟨fun b r u s h waits unlatching => ?_, fun b v s h other none_unlatches => ?_⟩
  · have goes := s.after_put h (Power.senseLatch_confirms (p := s.toPower) waits unlatching)
      (BayRec.listed_ne_of_state (by rw [waits]; nofun))
    have notes := s.toFront.noteSwap_notes b r
    refine ⟨_, (exec_latchSenseChange b true s).trans (State.powerEvent_after h.1 _), goes.bay, fun k swap => ?_, goes.releaseEnds notes, fun none_taken => ?_,
      goes.releaseRecordEvent notes⟩
    · refine goes.logged (.later ?_ (Front.completeOwed_logGrows _ _ _))
      unfold Front.noteSwap
      rw [swap]
      exact s.toFront.makeTied_logs _ _
    · have silent : s.toFront.noteSwap b r = s.toFront := by unfold Front.noteSwap; rw [none_taken]
      rw [silent] at goes
      exact goes.releaseEvent
  · have goes := s.after_put h (Power.senseLatch_alone (p := s.toPower) none_unlatches v)
      (BayRec.listed_ne BayRec.latchOpen (fun _ _ => rfl) (fun same => other same.symm))
    exact ⟨_, (exec_latchSenseChange b v s).trans (State.powerEvent_after h.1 _), goes.bay, goes.link, goes.bayEvent⟩

/-! ## The return to the former state (R13, R16, R18, R20) -/

/-- A bay record once its release has returned to its former state. -/
def BayRec.returned (r : BayRec) (x : Release) (now : Nat) : BayRec :=
  match x.former with
  | .seated => { r with state := .seated (now + 2000), identity := none, packState := none, failedPolls := 0 }
  | .standby => { r with state := .standby }
  | .feeding => { r with state := .feeding x.standing }
  | .fault y => { r with state := .fault y }

/-- Its link then (R9). -/
def Link.returned (l : Link) (x : Release) (now : Nat) : Link :=
  match x.former with
  | .seated => { l with activity := .identRead 0 false now, pollAt := none }
  | .standby => l
  | .feeding => l
  | .fault y => if y = .thermal then l else { l with activity := .idle, pollAt := none }

theorem formerBay_eq (s : State) (b : Bay) (x : Release) : formerBay s b x = (s.bay b).returned x s.tmb.uptime := by
  unfold formerBay BayRec.returned
  cases x.former <;> rfl

theorem formerLink_eq (s : State) (b : Bay) (x : Release) : formerLink s b x = (s.link b).returned x s.tmb.uptime := by
  unfold formerLink Link.returned
  cases x.former <;> rfl

theorem Link.under_fault (l : Link) (y : FaultReason) :
    l.under (.fault y) = if y = .thermal then l else { l with activity := .idle, pollAt := none } := by
  unfold Link.under BayState.polls
  cases y <;> rfl

theorem Power.takeFormer_eq (p : Power) (b : Bay) (x : Release) :
    p.takeFormer b x = p.putBay b ((p.bay b).returned x p.tmb.uptime) ((p.link b).returned x p.tmb.uptime) p.toFront := by
  unfold Power.takeFormer BayRec.returned Link.returned
  cases x.former with
  | seated => exact p.enterSeated_eq b
  | standby => exact (p.setState_eq b _).trans (by rw [Link.under_of_polls rfl])
  | feeding => exact (p.setState_eq b _).trans (by rw [Link.under_of_polls rfl])
  | fault y => exact (p.setState_eq b _).trans (by rw [Link.under_fault])

theorem BayRec.returned_standby (r : BayRec) (x : Release) (now : Nat) :
    (r.returned x now).state.isStandby = true ↔ x.former = .standby := by
  unfold BayRec.returned
  cases x.former <;> simp [BayState.isStandby]

theorem BayRec.returned_changes {r : BayRec} {y : Release} (waits : r.state = .releaseWait y) (x : Release) (now : Nat) :
    (r.returned x now).state.shown ≠ r.state.shown := by
  rw [waits]
  unfold BayRec.returned
  cases x.former <;> nofun

/-- A bay enters STANDBY where FHU has nothing to do. -/
theorem Power.enteredStandby_quiet {p : Power} {b : Bay}
    (quiet : (p.bay b).state.isStandby = true → p.feed.kind ≠ .reservoir ∧ p.feed.pending = ⟨false, false⟩) (l : Loads) :
    p.enteredStandby l b = p := by
  unfold Power.enteredStandby
  split
  case isTrue standby =>
    obtain ⟨source, none_pends⟩ := quiet standby
    rw [if_neg source, Power.reexamine_still none_pends]
  case isFalse => rfl

/-! ## Refusals -/

/-- The records of a refusal (R16, R18, R19). -/
def Front.noteRefusal (f : Front) (b : Bay) (serial : BitVec 64) (x : Release) (reason : RefusalReason) (failed : Bool) : Front :=
  let g := f.makeTied (.releaseRefused b reason failed x.origin) ⟨.releaseRefused, refusalBit reason, none⟩
  if reason = .latchStuck then g.makeRecord (.packFault b .latch serial) else g

theorem Front.noteRefusal_notes (f : Front) (b : Bay) (serial : BitVec 64) (x : Release) (reason : RefusalReason) (failed : Bool) :
    f.Notes (f.noteRefusal b serial x reason failed) := by
  unfold Front.noteRefusal
  dsimp only
  split
  · exact (f.makeTied_notes _ _).trans (Front.makeRecord_notes _ _)
  · exact f.makeTied_notes _ _

theorem Front.noteRefusal_logs (f : Front) (b : Bay) (serial : BitVec 64) (x : Release) (reason : RefusalReason) (failed : Bool) :
    f.Logs (f.noteRefusal b serial x reason failed) (.releaseRefused b reason failed x.origin) f.tmb := by
  unfold Front.noteRefusal
  dsimp only
  split
  · exact (f.makeTied_logs _ _).later (Front.makeRecord_logGrows _ _)
  · exact f.makeTied_logs _ _

/-- The serial of a bay's identity, or zeros (R10). -/
def BayRec.serial (r : BayRec) : BitVec 64 := (r.identity.map fun i => i.serial).getD 0

theorem Power.putBay_refuse (p : Power) (b : Bay) (r : BayRec) (l : Link) (f : Front) (x : Release) (reason : RefusalReason) (failed : Bool) :
    (p.putBay b r l f).refuse b x reason failed = p.putBay b { r with blinkEnd := some (f.tmb.uptime + 2000) } l
      ((f.noteRefusal b r.serial x reason failed).completeOwed (f.owes x) (releaseResult b x f.tmb.uptime (refusalResult reason) failed)) := by
  have tmb : (p.putBay b r l f).tmb = f.tmb := by cases b <;> rfl
  have notes := f.noteRefusal_notes b r.serial x reason failed
  have records : (if reason = .latchStuck then ((p.putBay b r l f).makeTied (.releaseRefused b reason failed x.origin)
        ⟨.releaseRefused, refusalBit reason, none⟩).packFault b .latch
      else (p.putBay b r l f).makeTied (.releaseRefused b reason failed x.origin) ⟨.releaseRefused, refusalBit reason, none⟩)
      = p.putBay b r l (f.noteRefusal b r.serial x reason failed) := by
    unfold Front.noteRefusal
    rw [Power.putBay_makeTied, Power.putBay_packFault]
    dsimp only
    split <;> rfl
  unfold Power.refuse
  dsimp only
  rw [records, tmb, Power.putBay_setBlink, Power.putBay_completeRelease, notes.owes, notes.tmb]
  rfl

/-- FHU has nothing to do where this release returns to STANDBY. -/
def Power.calmReturn (p : Power) (x : Release) : Prop := x.former = .standby → p.feed.kind ≠ .reservoir ∧ p.feed.pending = ⟨false, false⟩

theorem Power.endRefused_quiet {p : Power} {x : Release} (calm : p.calmReturn x) (l : Loads) (b : Bay) (reason : RefusalReason) (failed : Bool) :
    p.endRefused l b x reason failed = p.putBay b
      { (p.bay b).returned x p.tmb.uptime with blinkEnd := some (p.tmb.uptime + 2000) } ((p.link b).returned x p.tmb.uptime)
      ((p.toFront.noteRefusal b ((p.bay b).returned x p.tmb.uptime).serial x reason failed).completeOwed (p.toFront.owes x)
        (releaseResult b x p.tmb.uptime (refusalResult reason) failed)) := by
  unfold Power.endRefused
  rw [p.takeFormer_eq, Power.putBay_refuse]
  refine Power.enteredStandby_quiet ?_ l
  rw [Power.putBay_bay, Power.putBay_feed]
  exact fun standby => calm ((BayRec.returned_standby _ x _).mp standby)

theorem Power.endStuck_eq (p : Power) (b : Bay) (x : Release) : p.endStuck b x = p.putBay b
    { p.bay b with state := .fault .latch, blinkEnd := some (p.tmb.uptime + 2000) } ((p.link b).under (.fault .latch))
    ((p.toFront.noteRefusal b (p.bay b).serial x .latchStuck false).completeOwed (p.toFront.owes x)
      (releaseResult b x p.tmb.uptime .latchStuck false)) := by
  unfold Power.endStuck
  rw [p.setState_eq, Power.putBay_refuse]
  rfl

theorem Power.endCancelled_quiet {p : Power} {x : Release} (calm : p.calmReturn x) (l : Loads) (b : Bay) :
    p.endCancelled l b x = p.putBay b ((p.bay b).returned x p.tmb.uptime) ((p.link b).returned x p.tmb.uptime)
      (p.toFront.completeOwed (p.toFront.owes x) (releaseResult b x p.tmb.uptime .cancelled false)) := by
  unfold Power.endCancelled
  rw [p.takeFormer_eq, Power.putBay_completeRelease]
  refine Power.enteredStandby_quiet ?_ l
  rw [Power.putBay_bay, Power.putBay_feed]
  exact fun standby => calm ((BayRec.returned_standby _ x _).mp standby)

/-! ## The deadlines of a bay -/

theorem Power.waitLimit_due {p : Power} {b : Bay} {r : Release} (waits : (p.bay b).state = .releaseWait r) (held : r.sub = .held)
    (due : r.limitAt ≤ p.tmb.uptime) (l : Loads) : p.waitLimit l b = p.endRefused l b r .holdTimeout false := by
  unfold Power.waitLimit
  rw [waits]
  exact if_pos ⟨held, due⟩

theorem Power.unlatchExpires_stuck {p : Power} {b : Bay} {r : Release} {u : Nat} (waits : (p.bay b).state = .releaseWait r)
    (unlatching : r.sub = .unlatching u) (due : u ≤ p.tmb.uptime) (closed : (p.bay b).latchOpen = false) :
    p.unlatchExpires b = p.endStuck b r := by
  unfold Power.unlatchExpires
  rw [waits]
  dsimp only
  rw [unlatching]
  dsimp only
  rw [if_pos due, if_neg (by rw [closed]; decide)]

theorem Power.toFault_apart {p : Power} {b : Bay} (apart : (p.bay b).state.isStandby = true → ∀ w, p.feed.switchover = some w → w.target ≠ feedOf b)
    (l : Loads) (x : FaultReason) : p.toFault l b x = p.putBay b { p.bay b with state := .fault x } ((p.link b).under (.fault x))
      (p.toFront.makeRecord (.packFault b x (p.bay b).serial)) := by
  unfold Power.toFault
  rw [p.setState_eq, Power.putBay_packFault]
  dsimp only
  split
  case isTrue standby =>
    refine (Power.leftStandby_elsewhere ?_ l).trans rfl
    rw [Power.putBay_feed]
    exact apart standby
  case isFalse => rfl

theorem Power.identDeadline_due {p : Power} {b : Bay} {d : Nat} (seated : (p.bay b).state = .seated d) (due : d ≤ p.tmb.uptime) (l : Loads) :
    p.identDeadline l b = p.toFault l b .ident := by
  unfold Power.identDeadline
  rw [seated]
  exact if_pos due

theorem Power.blinkEnds_due {p : Power} {b : Bay} {d : Nat} (blinks : (p.bay b).blinkEnd = some d) (due : d ≤ p.tmb.uptime) :
    p.blinkEnds b = p.putBay b { p.bay b with blinkEnd := none } (p.link b) p.toFront := by
  unfold Power.blinkEnds
  rw [blinks]
  dsimp only
  rw [if_pos due]
  exact p.setBay_eq b _

/-- Settles O10. -/
theorem bayDeadlinesAct : Obligations.BayDeadlinesAct := by
  refine ⟨⟨fun b r s h waits held due quiet => ?_, fun b r u s h waits unlatching due closed => ?_⟩, fun b d s h seated due => ?_,
    fun b d s h blinks due => ?_⟩
  · have refuses := (Power.waitLimit_due (p := s.toPower) waits held due s.loads).trans (Power.endRefused_quiet quiet s.loads b .holdTimeout false)
    have goes := s.after_put h refuses (BayRec.listed_ne_of_state (BayRec.returned_changes waits r s.tmb.uptime))
    have notes := s.toFront.noteRefusal_notes b ((s.bay b).returned r s.tmb.uptime).serial r .holdTimeout false
    have logs := s.toFront.noteRefusal_logs b ((s.bay b).returned r s.tmb.uptime).serial r .holdTimeout false
    exact ⟨_, (exec_releaseWaitLimit b s).trans (State.powerEvent_after h.1 _), goes.bay.trans (by rw [formerBay_eq]),
      goes.link.trans (formerLink_eq s b r).symm, goes.logged (logs.later (Front.completeOwed_logGrows _ _ _)), goes.releaseEnds notes,
      goes.releaseRecordEvent notes⟩
  · have stuck := (Power.unlatchExpires_stuck (p := s.toPower) waits unlatching due closed).trans (s.toPower.endStuck_eq b r)
    have goes := s.after_put h stuck (BayRec.listed_ne_of_state (by rw [waits]; nofun))
    have notes := s.toFront.noteRefusal_notes b (s.bay b).serial r .latchStuck false
    have logs := s.toFront.noteRefusal_logs b (s.bay b).serial r .latchStuck false
    exact ⟨_, (exec_unlatchWait b s).trans (State.powerEvent_after h.1 _), goes.bay, goes.logged (logs.later (Front.completeOwed_logGrows _ _ _)),
      goes.releaseEnds notes, goes.releaseRecordEvent notes⟩
  · have fails := (Power.identDeadline_due (p := s.toPower) seated due s.loads).trans
      (Power.toFault_apart (by rw [seated]; nofun) s.loads .ident)
    have goes := s.after_put h fails (BayRec.listed_ne_of_state (by rw [seated]; nofun))
    exact ⟨_, (exec_identificationDeadline b s).trans (State.powerEvent_after h.1 _), goes.bay, goes.logged (s.toFront.makeRecord_logs _),
      goes.recordEvent (s.toFront.makeRecord_notes _)⟩
  · have goes := s.after_put h (Power.blinkEnds_due (p := s.toPower) blinks due)
      (BayRec.listed_ne BayRec.blinkEnd (fun _ _ => rfl) (by rw [blinks]; nofun))
    exact ⟨_, (exec_refusalBlinkEnd b s).trans (State.powerEvent_after h.1 _), goes.bay, goes.link, goes.bayEvent⟩

end Sys2Proof.Machine
end

section
/-! PROOF. The start of a release on a bay that is not the feed, or under a hold (R14 to R16, R19). -/

namespace Sys2Proof.Machine

open Sys2Proof.Safety

/-- The bay record in RELEASE_WAIT at the start of a release (R15). -/
def Power.waitingBay (p : Power) (b : Bay) (f : FormerState) (x : Release) : BayRec :=
  { p.bay b with
    state := .releaseWait x, blinkEnd := none
    identity := if f = .seated then none else (p.bay b).identity
    packState := if f = .seated then none else (p.bay b).packState }

theorem startedBay_eq (s : State) (b : Bay) (f : FormerState) (o : Origin) : startedBay s b f o
    = s.toPower.waitingBay b f { s.toPower.newRelease b f o with sub := if s.hld.demand b then .held else .unlatching (s.tmb.uptime + 500) } := rfl

/-- No switchover is in flight to bay `b`. -/
def Power.noTarget (p : Power) (b : Bay) : Prop := ∀ w, p.feed.switchover = some w → w.target ≠ feedOf b

theorem Power.clearForRelease_put (p : Power) (b : Bay) (f : FormerState) : p.clearForRelease b f = p.putBay b
    { p.bay b with
      blinkEnd := none
      identity := if f = .seated then none else (p.bay b).identity
      packState := if f = .seated then none else (p.bay b).packState } (p.link b) p.toFront := by
  unfold Power.clearForRelease Power.setBlink
  rw [p.setBay_eq]
  dsimp only
  split
  · rw [Power.putBay_bay, Power.putBay_setBay]
  · rfl

theorem Power.beginRelease_put {p : Power} {b : Bay} (apart : p.noTarget b) (l : Loads) (f : FormerState) (o : Origin) :
    p.beginRelease l b f o = p.putBay b (p.waitingBay b f (p.newRelease b f o))
      ((p.link b).under (.releaseWait (p.newRelease b f o))) p.toFront := by
  unfold Power.beginRelease
  rw [p.clearForRelease_put, Power.putBay_setState]
  dsimp only
  rw [Power.leftStandby_elsewhere (by rw [Power.putBay_feed]; exact apart), ite_self]
  rfl

/-- A release that starts under a hold is HELD (R15, R16). -/
theorem Power.startRelease_held {p : Power} {b : Bay} (apart : p.noTarget b) (held : p.hld.demand b = true) (l : Loads) (f : FormerState) (o : Origin) :
    p.startRelease l b f o = p.putBay b (p.waitingBay b f (p.newRelease b f o))
      ((p.link b).under (.releaseWait (p.newRelease b f o))) p.toFront := by
  rw [Power.startRelease_eq, Power.beginRelease_put apart, Power.putBay_hld, if_pos held]

section
variable (p : Power) (b : Bay) (r : BayRec) (k : Link) (f : Front) (x : Release)

/-- Entry to UNLATCHING with the latch closed (R19). -/
theorem Power.putBay_enterUnlatching_closed (closed : r.latchOpen = false) : (p.putBay b r k f).enterUnlatching b x = p.putBay b
    { r with state := .releaseWait { x with sub := .unlatching (f.tmb.uptime + 500) } }
    (k.under (.releaseWait { x with sub := .unlatching (f.tmb.uptime + 500) })) f := by
  have tmb : (p.putBay b r k f).tmb = f.tmb := by cases b <;> rfl
  unfold Power.enterUnlatching
  dsimp only
  rw [Power.putBay_bay, tmb, Power.putBay_setState]
  exact if_neg (by rw [closed]; decide)

/-- With the latch open the bay is OPEN at once (R19; log entry 24). -/
theorem Power.putBay_enterUnlatching_open (isOpen : r.latchOpen = true) (none_taken : x.takeover = none) :
    (p.putBay b r k f).enterUnlatching b x = p.putBay b { r with state := .opened (f.tmb.uptime + p.bayPolicy.openWindow * 1000) }
      { k with activity := .idle, pollAt := none } (f.completeOwed (f.owes x) (releaseResult b x f.tmb.uptime .ok false)) := by
  have tmb : (p.putBay b r k f).tmb = f.tmb := by cases b <;> rfl
  have idle (st : BayState) : ({ k.under st with activity := .idle, pollAt := none } : Link) = { k with activity := .idle, pollAt := none } := by
    unfold Link.under
    cases st <;> dsimp only <;> split <;> rfl
  have silent : f.noteSwap b { x with sub := .unlatching (f.tmb.uptime + 500) } = f := by
    unfold Front.noteSwap
    dsimp only
    rw [none_taken]
  unfold Power.enterUnlatching
  dsimp only
  rw [Power.putBay_bay, tmb, Power.putBay_setState]
  refine (if_pos isOpen).trans ?_
  rw [Power.putBay_confirmOpen, idle, silent]
  rfl

end

/-- Without a hold a bay that is not the feed enters UNLATCHING (R15, R16). -/
theorem Power.startRelease_enters {p : Power} {b : Bay} (apart : p.noTarget b) (free : p.hld.demand b = false) (not_feed : p.feed.kind ≠ feedOf b)
    (l : Loads) (f : FormerState) (o : Origin) : p.startRelease l b f o = (p.putBay b (p.waitingBay b f (p.newRelease b f o))
      ((p.link b).under (.releaseWait (p.newRelease b f o))) p.toFront).enterUnlatching b (p.newRelease b f o) := by
  rw [Power.startRelease_eq, Power.beginRelease_put apart, Power.putBay_hld, if_neg (by rw [free]; decide)]
  unfold Power.moveOn
  rw [Power.putBay_feed, if_neg not_feed]

theorem Power.startRelease_unlatches {p : Power} {b : Bay} (apart : p.noTarget b) (free : p.hld.demand b = false) (not_feed : p.feed.kind ≠ feedOf b)
    (closed : (p.bay b).latchOpen = false) (l : Loads) (f : FormerState) (o : Origin) : ∃ k, p.startRelease l b f o = p.putBay b
      (p.waitingBay b f { p.newRelease b f o with sub := .unlatching (p.tmb.uptime + 500) }) k p.toFront :=
  ⟨_, (Power.startRelease_enters apart free not_feed l f o).trans (Power.putBay_enterUnlatching_closed _ _ _ _ _ _ closed)⟩

/-- With the latch open it is OPEN, and the release has ended (R19; log entry 24). -/
theorem Power.startRelease_opens {p : Power} {b : Bay} (apart : p.noTarget b) (free : p.hld.demand b = false) (not_feed : p.feed.kind ≠ feedOf b)
    (isOpen : (p.bay b).latchOpen = true) (l : Loads) (f : FormerState) (o : Origin) : ∃ k, p.startRelease l b f o = p.putBay b
      { p.waitingBay b f (p.newRelease b f o) with state := .opened (p.tmb.uptime + p.bayPolicy.openWindow * 1000) } k
      (p.toFront.completeOwed (p.toFront.owes (p.newRelease b f o)) (releaseResult b (p.newRelease b f o) p.tmb.uptime .ok false)) :=
  ⟨_, (Power.startRelease_enters apart free not_feed l f o).trans (Power.putBay_enterUnlatching_open _ _ _ _ _ _ isOpen rfl)⟩

/-- A release that starts on a bay that is not the feed, or under a hold, with the latch closed: HELD or UNLATCHING. -/
theorem Power.startRelease_waits {p : Power} {b : Bay} (apart : p.noTarget b)
    (away : p.hld.demand b = true ∨ p.feed.kind ≠ feedOf b ∧ (p.bay b).latchOpen = false) (l : Loads) (f : FormerState) (o : Origin) :
    ∃ k, p.startRelease l b f o = p.putBay b (p.waitingBay b f { p.newRelease b f o with
      sub := if p.hld.demand b then .held else .unlatching (p.tmb.uptime + 500) }) k p.toFront := by
  cases held : p.hld.demand b
  · obtain ⟨not_feed, closed⟩ := away.resolve_left (by rw [held]; decide)
    exact Power.startRelease_unlatches apart held not_feed closed l f o
  · obtain starts := Power.startRelease_held apart held l f o
    exact ⟨_, starts⟩

/-! ## The press -/

theorem BayState.not_waiting_of_former {st : BayState} {f : FormerState} (h : st.former = some f) (r : Release) : st ≠ .releaseWait r := by
  rintro rfl
  cases h

theorem Power.pressButton_starts {p : Power} {b : Bay} {f : FormerState} (h : (p.bay b).state.former = some f) (l : Loads) :
    p.pressButton l b = p.startRelease l b f .button := by
  unfold Power.pressButton
  split
  · exact absurd ‹_› (BayState.not_waiting_of_former h _)
  · rw [h]

theorem Power.pressButton_cancels {p : Power} {b : Bay} {r : Release} (waits : (p.bay b).state = .releaseWait r) (l : Loads) :
    p.pressButton l b = p.cancelRelease l b r := by
  unfold Power.pressButton
  rw [waits]

theorem Power.cancelRelease_transfer {p : Power} {b : Bay} {r : Release} {c : Bool} (transfer : r.sub = .transfer c) (l : Loads) :
    p.cancelRelease l b r = p.putBay b { p.bay b with state := .releaseWait { r with sub := .transfer true } } (p.link b) p.toFront := by
  unfold Power.cancelRelease
  rw [transfer]
  exact p.setBay_eq b _

theorem Power.cancelRelease_ends {b : Bay} {r : Release} (apart : ∀ c, r.sub ≠ .transfer c) (p : Power) (l : Loads) :
    p.cancelRelease l b r = p.endCancelled l b r := by
  unfold Power.cancelRelease
  split
  · exact absurd ‹_› (apart _)
  · rfl
  · rfl

end Sys2Proof.Machine
end

section
/-! PROOF. Events that a budget pass follows: what they leave of the state before (R27, R63, R64). -/

namespace Sys2Proof.Machine

open Sys2Proof.Safety

/-! ## The host's side -/

/-- Between `f` and `g` no event touched the registers, the last slot, the restart count, the timebase or the host's read index. -/
structure Front.Kin (f g : Front) : Prop where
  enable   : g.summaryEnable = f.summaryEnable
  exchange : g.exchangeEnable = f.exchangeEnable
  slot     : g.lastSlot = f.lastSlot
  restarts : g.restartCount = f.restartCount
  tmb      : g.tmb = f.tmb
  time     : g.gens.time = f.gens.time
  read     : g.log.effRead = f.log.effRead

namespace Front.Kin

theorem refl (f : Front) : f.Kin f := ⟨rfl, rfl, rfl, rfl, rfl, rfl, rfl⟩

theorem trans {f g h : Front} (a : f.Kin g) (b : g.Kin h) : f.Kin h :=
  ⟨b.enable.trans a.enable, b.exchange.trans a.exchange, b.slot.trans a.slot, b.restarts.trans a.restarts, b.tmb.trans a.tmb, b.time.trans a.time,
    b.read.trans a.read⟩

theorem fields {f g : Front} (h : f.Kin g) : g = { f with
    mem := g.mem, summary := g.summary, inFlight := g.inFlight, gens := { g.gens with time := f.gens.time }
    log := { g.log with effRead := f.log.effRead }, monitors := g.monitors, trc := g.trc } := by
  rw [← h.enable, ← h.exchange, ← h.slot, ← h.restarts, ← h.tmb, ← h.time, ← h.read]

end Front.Kin

theorem Front.Notes.kin {f g : Front} (h : f.Notes g) : f.Kin g := by
  obtain ⟨mem, summary, log, monitors, gen, rfl⟩ := h.step.fields
  exact ⟨rfl, rfl, rfl, rfl, rfl, rfl, rfl⟩

theorem Front.complete_kin (f : Front) (i : Fin 32) (c : Completion) : f.Kin (f.complete i c) := by
  rw [(f.complete_frame i c).1]
  exact ⟨rfl, rfl, rfl, rfl, rfl, rfl, rfl⟩

theorem Front.completeOwed_kin (f : Front) (o : Option InFlight) (c : Completion) : f.Kin (f.completeOwed o c) := by
  cases o with
  | none => exact .refl f
  | some e => exact f.complete_kin e.slot c

theorem Front.publish_kin (f : Front) {g : PageId} (beside : g ≠ .time) (body : List Byte) : f.Kin (f.publish g body) := by
  cases g with
  | time => exact absurd rfl beside
  | energy | light | motion | monitor | mirror => exact ⟨rfl, rfl, rfl, rfl, rfl, rfl, rfl⟩

/-! ## The state after the pass -/

namespace Blocks.Passed

variable {x z : Blocks} (h : x.Passed z)

include h

theorem bay (b : Bay) : z.bay b = x.bay b := by
  rw [h.shape]
  cases b <;> rfl

theorem link (b : Bay) : z.link b = x.link b := by
  rw [h.shape]
  cases b <;> rfl

theorem hld : z.hld = x.hld := by rw [h.shape]
theorem mot : z.mot = x.mot := by rw [h.shape]
theorem trc : z.trc = x.trc := by rw [h.shape]
theorem sfe : z.sfe = x.sfe := by rw [h.shape]
theorem timers : z.timers = x.timers := by rw [h.shape]
theorem inFlight : z.inFlight = x.inFlight := by rw [h.shape]
theorem bud : z.bud = x.computePass x.due := by rw [h.shape]
theorem causes : z.bud.causes = x.due := by rw [h.bud]; rfl
theorem feedUsed : z.bud.feedUsed = x.feed.kind := by rw [h.bud]; rfl

theorem blc : z.blc = { x.blc with
    pendingDuty := z.bud.dCmd, ceiling := z.bud.ceiling
    liveDuty := if x.due.emergency then min x.blc.liveDuty z.bud.ceiling else x.blc.liveDuty } := by
  rw [h.bud, h.shape]

theorem liveDuty_kept (calm : x.due.emergency = false) : z.blc.liveDuty = x.blc.liveDuty := by
  rw [h.blc, calm]
  rfl

theorem liveDuty_cut (emergency : x.due.emergency = true) : z.blc.liveDuty = min x.blc.liveDuty z.bud.ceiling := by
  rw [h.blc, emergency]
  rfl

/-- The event is a pass event of the state before it. -/
theorem passEvent {s : State} (ready : Ready s) (kin : s.toFront.Kin x.toFront) (policy : x.bayPolicy = s.bayPolicy) (on : x.powered = s.powered)
    (light : x.blc = s.blc) (count : x.bud.passCount = s.bud.passCount) : PassEvent { s with inFlight := z.inFlight } (s.withBlocks z) := by
  have passes : z.bud.passCount = s.bud.passCount + 1 ∧ z.bud.passUptime = s.tmb.uptime := by
    rw [h.bud, ← count, ← kin.tmb]
    exact ⟨rfl, rfl⟩
  refine ⟨?_, passes⟩
  have own := h.shape
  clear passes h
  obtain ⟨⟨f, bayA, bayB, linkA, linkB, bayPolicy, assignment, feed, fhu, hld, drops, due⟩, powered, sfe, bud, blc, mot, timers⟩ := x
  obtain ⟨mem, summary, inFlight, gens, log, monitors, trc, rfl⟩ : ∃ (mem : Mem) (summary : Word) (inFlight : List InFlight) (gens : Generations) (log : LogRec)
      (monitors : List Monitor) (trc : TraceRec), f = { s.toFront with
      mem := mem, summary := summary, inFlight := inFlight, gens := { gens with time := s.gens.time }
      log := { log with effRead := s.log.effRead }, monitors := monitors, trc := trc } := ⟨_, _, _, _, _, _, _, kin.fields⟩
  cases policy
  cases on
  cases light
  rw [← ready.2] at own
  rw [own]
  rfl

/-- What the pass writes, beside what the event has written. -/
theorem area {rs : List Range} {m : Mem} (kept : keepsOutside (passRanges ++ rs) m x.mem) : keepsOutside (passRanges ++ rs) m z.mem :=
  keepsOutside_trans kept (keepsOutside_mono h.kept (by simp +contextual [eventRanges, passRanges]))

end Blocks.Passed

end Sys2Proof.Machine
end

section
/-! PROOF. The move of the feed, record by record (R2, R27, R33, R34, R44, R45). -/

namespace Sys2Proof.Machine

open Sys2Proof.Safety

/-! ## The move -/

/-- A bay's record once the feed has gone to `t` (R2). -/
def Power.fedRec (p : Power) (t : FeedKind) (c : MoveCause) (b : Bay) : BayRec :=
  if t = feedOf b then { p.bay b with state := .feeding noFaults }
  else if p.feed.kind = feedOf b then { p.bay b with state := stateAfterFeed c t (p.bay b).state }
  else p.bay b

/-- Its link then (R9). -/
def Power.fedLink (p : Power) (t : FeedKind) (c : MoveCause) (b : Bay) : Link :=
  if p.feed.kind = feedOf b then (p.link b).under (stateAfterFeed c t (p.bay b).state) else p.link b

/-- FHU's feed record then (R33, R34, R39). -/
def FeedRec.fed (f : FeedRec) (t : FeedKind) : FeedRec :=
  { f with kind := t, switchover := none, pending := ⟨false, false⟩, causes := { f.causes with faulted := false, lowCharge := false } }

/-- FHU's state then (R28, R35). -/
def Power.fedFhu (p : Power) (t : FeedKind) : FhuState :=
  { p.fhu with switches := switchesFor t, dueInFlight := ⟨false, false⟩, collapseFrom := p.tmb.uptime }

theorem Power.leaveFeed_put (p : Power) (c : MoveCause) (t : FeedKind) : p.leaveFeed c t = { p with
    bayA := if p.feed.kind = .bayA then { p.bayA with state := stateAfterFeed c t p.bayA.state } else p.bayA
    bayB := if p.feed.kind = .bayB then { p.bayB with state := stateAfterFeed c t p.bayB.state } else p.bayB
    linkA := p.fedLink t c .A, linkB := p.fedLink t c .B } := by
  unfold Power.leaveFeed Power.fedLink
  cases p.feed.kind with
  | dc => rfl
  | reservoir => rfl
  | bayA => exact p.setState_eq .A _
  | bayB => exact p.setState_eq .B _

/-- The move up to the holdover that begins or ends. -/
theorem Power.fedBy_put (p : Power) (t : FeedKind) (c : MoveCause) : p.fedBy t c = { p with
    bayA := p.fedRec t c .A, bayB := p.fedRec t c .B, linkA := p.fedLink t c .A, linkB := p.fedLink t c .B
    feed := p.feed.fed t, fhu := p.fedFhu t, due := { p.due with feed := true } } := by
  unfold Power.fedBy Power.joinFeed
  rw [p.leaveFeed_put]
  cases t with
  | dc => rfl
  | reservoir => rfl
  | bayA =>
    refine (Power.setState_eq _ .A _).trans ?_
    rw [Link.under_of_polls rfl]
    unfold Power.fedRec Power.fedLink
    cases p.feed.kind <;> rfl
  | bayB =>
    refine (Power.setState_eq _ .B _).trans ?_
    rw [Link.under_of_polls rfl]
    unfold Power.fedRec Power.fedLink
    cases p.feed.kind <;> rfl

theorem Power.moveFeed_between {p : Power} {t : FeedKind} (to_source : t ≠ .reservoir) (from_source : p.feed.kind ≠ .reservoir) (c : MoveCause)
    (v : Bool) : p.moveFeed t c v = p.fedBy t c := by
  rw [p.moveFeed_eq, if_neg to_source, if_neg from_source]

/-- A move into the reservoir begins a holdover (R44). -/
theorem Power.moveFeed_into {p : Power} (from_source : p.feed.kind ≠ .reservoir) (c : MoveCause) (v : Bool) :
    p.moveFeed .reservoir c v = { p.fedBy .reservoir c with
      toFront := p.toFront.raise .lean
      feed := { p.feed.fed .reservoir with holdover := some ⟨v, p.tmb.uptime, false⟩, lean := true } } := by
  rw [p.moveFeed_eq, if_pos rfl, if_neg from_source, p.fedBy_put]
  rfl

theorem Power.moveFeed_from {p : Power} {t : FeedKind} (to_source : t ≠ .reservoir) (from_reservoir : p.feed.kind = .reservoir) (c : MoveCause)
    (v : Bool) : p.moveFeed t c v = (p.fedBy t c).endHoldover (if t = .dc then .dc else .pack) := by
  rw [p.moveFeed_eq, if_neg to_source, if_pos from_reservoir]

theorem Power.endHoldover_none {p : Power} (none_runs : p.feed.holdover = none) (c : HoldoverEndCause) : p.endHoldover c = p := by
  unfold Power.endHoldover
  rw [none_runs]

/-- A holdover that is not exhausted ends with its record (R45). -/
theorem Power.endHoldover_running {p : Power} {h : Holdover} (runs : p.feed.holdover = some h) (lasts : h.exhausted = false) (c : HoldoverEndCause) :
    p.endHoldover c = { p with
      toFront := p.toFront.makeRecord (.holdoverEnd c ((p.tmb.uptime - h.start) / 1000) h.planned p.hld.outcome)
      feed := { p.feed with holdover := none, lean := false, causes := { p.feed.causes with exhausted := false } } } := by
  unfold Power.endHoldover
  rw [runs]
  dsimp only
  rw [if_neg (by rw [lasts]; decide)]
  rfl

theorem Power.endHoldover_exhausted {p : Power} {h : Holdover} (runs : p.feed.holdover = some h) (exhausted : h.exhausted = true)
    (c : HoldoverEndCause) : p.endHoldover c = p.writeDeferredEnd.clearHoldover.liftEnergy := by
  unfold Power.endHoldover
  rw [runs]
  exact if_pos exhausted

/-! ## The state after the event of a move -/

/-- What an event of the bays, FHU or HLD leaves that brings a pass, `q` its own changes. -/
structure State.Goes (s : State) (q : Power) (t : State) : Prop where
  pass  : (s.toBlocks.withPower q).Passed t.toBlocks
  event : PassEvent { s with inFlight := t.inFlight } t

theorem State.goes_of_passed {s : State} (ready : Ready s) {q : Power} (kin : s.toFront.Kin q.toFront) (policy : q.bayPolicy = s.bayPolicy) {z : Blocks}
    (pass : (s.toBlocks.withPower q).Passed z) : s.Goes q (s.withBlocks z) :=
  ⟨pass, pass.passEvent ready kin policy rfl rfl rfl⟩

theorem State.after_goes {s : State} (ready : Ready s) {q : Power} (kin : s.toFront.Kin q.toFront) (policy : q.bayPolicy = s.bayPolicy)
    (due : q.due.any = true) : s.Goes q (s.after q) :=
  State.goes_of_passed ready kin policy (Blocks.settled_passed (x := s.toBlocks.withPower q) due s.toBlocks)

namespace State.Goes

variable {s t : State} {q : Power} (h : s.Goes q t)

include h

theorem bay (b : Bay) : t.bay b = q.bay b := (h.pass.bay b).trans (by cases b <;> rfl)
theorem bayA : t.bayA = q.bayA := h.bay .A
theorem bayB : t.bayB = q.bayB := h.bay .B
theorem link (b : Bay) : t.link b = q.link b := (h.pass.link b).trans (by cases b <;> rfl)
theorem hld : t.hld = q.hld := h.pass.hld
theorem mot : t.mot = s.mot := h.pass.mot
theorem trc : t.trc = q.trc := h.pass.trc
theorem sfe : t.sfe = s.sfe := h.pass.sfe
theorem timers : t.timers = s.timers := h.pass.timers
theorem inFlight : t.inFlight = q.inFlight := h.pass.inFlight
theorem causes : t.bud.causes = q.due := h.pass.causes
theorem feedUsed : t.bud.feedUsed = q.feed.kind := h.pass.feedUsed
theorem liveDuty_kept (calm : q.due.emergency = false) : t.blc.liveDuty = s.blc.liveDuty := h.pass.liveDuty_kept calm
theorem liveDuty_cut (emergency : q.due.emergency = true) : t.blc.liveDuty = min s.blc.liveDuty t.bud.ceiling := h.pass.liveDuty_cut emergency
theorem feed (still : q.feed.pending = ⟨false, false⟩) : t.feed = q.feed := (h.pass.still still).1
theorem fhu (still : q.feed.pending = ⟨false, false⟩) : t.fhu = q.fhu := (h.pass.still still).2

theorem passEvent (list : q.inFlight = s.inFlight) : PassEvent s t := by
  have event := h.event
  rw [h.inFlight, list] at event
  exact event

theorem logged {x : LogRecord} {time : Timebase} (logs : s.toFront.Logs q.toFront x time) : Logged s.toFront t.toFront x time :=
  (logs.later h.pass.logs).logged

theorem kept {rs : List Range} (own : keepsOutside (passRanges ++ rs) s.mem q.mem) : keepsOutside (passRanges ++ rs) s.mem t.mem := h.pass.area own

theorem kept_plain (own : keepsOutside passRanges s.mem q.mem) : keepsOutside passRanges s.mem t.mem := by
  have area := h.kept (rs := []) (by rw [List.append_nil]; exact own)
  rwa [List.append_nil] at area

end State.Goes

theorem recordRanges_pass {r : Range} (h : r ∈ recordRanges) : r ∈ passRanges := by
  unfold passRanges
  simp only [List.mem_cons]
  exact .inr (.inr (.inr (.inr h)))

theorem Front.Notes.keptPass {f g : Front} (h : f.Notes g) : keepsOutside passRanges f.mem g.mem :=
  keepsOutside_mono h.step.kept fun _ => recordRanges_pass

end Sys2Proof.Machine
end

section
/-! PROOF. The hold table's outputs: the quiesce line, the wait, the mirror page, the deferred record (R46, R57, R59, R60). -/

namespace Sys2Proof.Machine

open Sys2Proof.Safety

/-! ## What HLD writes of the host's side -/

/-- Between `f` and `g` records have been made, and the mirror page and the monitor page published. -/
structure Front.Tells (f g : Front) : Prop where
  kin    : f.Kin g
  logs   : f.LogGrows g
  raised : f.Raises g
  kept   : keepsOutside (pageRange .mirror :: recordRanges) f.mem g.mem
  list   : g.inFlight = f.inFlight
  trc    : g.trc = f.trc

namespace Front.Tells

theorem refl (f : Front) : f.Tells f := ⟨.refl f, .refl f, .refl f, keepsOutside_refl _ _, rfl, rfl⟩

theorem trans {f g h : Front} (a : f.Tells g) (b : g.Tells h) : f.Tells h :=
  ⟨a.kin.trans b.kin, a.logs.trans b.logs, a.raised.trans b.raised, keepsOutside_trans a.kept b.kept, b.list.trans a.list, b.trc.trans a.trc⟩

theorem keptPass {f g : Front} (h : f.Tells g) : keepsOutside passRanges f.mem g.mem := by
  refine keepsOutside_mono h.kept fun r mem => ?_
  rcases List.mem_cons.mp mem with rfl | record
  · simp [passRanges]
  · exact recordRanges_pass record

end Front.Tells

theorem Front.Notes.tells {f g : Front} (h : f.Notes g) : f.Tells g :=
  ⟨h.kin, h.logs, h.raised, keepsOutside_mono h.step.kept fun _ => List.mem_cons_of_mem _, h.inFlight, by rw [h.step.shape]⟩

theorem Front.publishMirror_tells (f : Front) (h : HoldTable) : f.Tells (f.publish .mirror (mirrorPage h)) :=
  ⟨f.publish_kin (by decide) _, f.publish_logGrows _ _, .of_same rfl, keepsOutside_mono (f.publish_frame .mirror _).1 (by simp), rfl, rfl⟩

/-! ## The deferred record (R46) -/

/-- The HOLDOVER_END record that waited for the outcome. -/
def Front.noteEnd (f : Front) (o : Option DeferredEnd) (outcome : AckOutcome) : Front :=
  match o with
  | none => f
  | some d => f.makeRecord (.holdoverEnd .exhausted d.duration d.planned outcome)

theorem Front.noteEnd_notes (f : Front) (o : Option DeferredEnd) (outcome : AckOutcome) : f.Notes (f.noteEnd o outcome) := by
  cases o with
  | none => exact .refl f
  | some d => exact f.makeRecord_notes _

theorem Power.writeDeferredEnd_eq (p : Power) : p.writeDeferredEnd = { p with
    fhu := { p.fhu with deferredEnd := none }, toFront := p.toFront.noteEnd p.fhu.deferredEnd p.hld.outcome } := by
  unfold Power.writeDeferredEnd Front.noteEnd
  cases pends : p.fhu.deferredEnd with
  | none =>
    dsimp only
    rw [← pends]
  | some d => rfl

/-! ## The end of the wait (R60) -/

theorem Power.writeDrops_none {p : Power} (no_drops : p.drops = []) : p.writeDrops = p := by
  unfold Power.writeDrops
  rw [no_drops]
  dsimp only [List.foldl]
  rw [← no_drops]

/-- With no DROP record deferred the end of a wait stores the outcome, republishes the page and writes the deferred HOLDOVER_END record. -/
theorem Power.endWait_eq {p : Power} (no_drops : p.drops = []) (o : AckOutcome) : p.endWait o = { p with
    hld := { p.hld with wait := none, outcome := o }, fhu := { p.fhu with deferredEnd := none }
    toFront := (p.toFront.publish .mirror (mirrorPage { p.hld with wait := none, outcome := o })).noteEnd p.fhu.deferredEnd o } := by
  unfold Power.endWait
  rw [Power.writeDrops_none (show ({ p with hld := { p.hld with wait := none, outcome := o } } : Power).publishMirror.drops = [] from no_drops),
    Power.writeDeferredEnd_eq]
  rfl

/-! ## The table becomes another (R57, R59, R60) -/

/-- The hold table with its wait once its entries have become `es` at `now`. -/
def HoldTable.become (h : HoldTable) (es : List (Option HoldEntry)) (now : Nat) : HoldTable :=
  let next : HoldTable := { h with entries := es }
  if !h.quiesce && next.quiesce then
    (if h.ackLine then { next with wait := none, outcome := .acked } else next.startWait now)
  else if h.quiesce && !next.quiesce && h.wait.isSome then { next with wait := none, outcome := .notAcked }
  else next

/-- A wait ends as the entries become `es`. -/
def HoldTable.waitEnds (h : HoldTable) (es : List (Option HoldEntry)) : Bool :=
  let next : HoldTable := { h with entries := es }
  !h.quiesce && next.quiesce && h.ackLine || h.quiesce && !next.quiesce && h.wait.isSome

/-- The set of entries and their reserves has changed: the HOLD trigger (R57, R63). -/
def tableChanged (es fs : List (Option HoldEntry)) : Bool := decide (tableShape fs ≠ tableShape es)

/-- The table's record and its page, before a wait that this change ends. -/
def Power.putEntries (p : Power) (h : HoldTable) : Power :=
  { p with
    hld := h, due := { p.due with hold := p.due.hold || tableChanged p.hld.entries h.entries }
    toFront := p.toFront.publish .mirror (mirrorPage h) }

theorem Power.putEntries_quiet (p : Power) (h : HoldTable) : ∃ f, p.putEntries h = { p with
      hld := h, due := { p.due with hold := p.due.hold || tableChanged p.hld.entries h.entries }, toFront := f }
    ∧ p.toFront.Tells f ∧ f.log = p.log ∧ f.monitors = p.monitors :=
  ⟨_, rfl, p.toFront.publishMirror_tells h, rfl, rfl⟩

theorem Power.putEntries_ends {p : Power} (no_drops : p.drops = []) (h : HoldTable) (o : AckOutcome) : ∃ f, (p.putEntries h).endWait o = { p with
      hld := { h with wait := none, outcome := o }, due := { p.due with hold := p.due.hold || tableChanged p.hld.entries h.entries }
      fhu := { p.fhu with deferredEnd := none }, toFront := f }
    ∧ p.toFront.Tells f ∧ (p.fhu.deferredEnd = none → f.log = p.log ∧ f.monitors = p.monitors) := by
  refine ⟨_, Power.endWait_eq (p := p.putEntries h) no_drops o, ?_, fun none_pends => ?_⟩
  · exact ((p.toFront.publishMirror_tells h).trans (Front.publishMirror_tells _ _)).trans (Front.noteEnd_notes _ _ _).tells
  · show (Front.noteEnd _ p.fhu.deferredEnd o).log = _ ∧ (Front.noteEnd _ p.fhu.deferredEnd o).monitors = _
    rw [none_pends]
    exact ⟨rfl, rfl⟩

theorem Power.putTable_eq {p : Power} (no_drops : p.drops = []) (es : List (Option HoldEntry)) : ∃ f, p.putTable es = { p with
      hld := p.hld.become es p.tmb.uptime, due := { p.due with hold := p.due.hold || tableChanged p.hld.entries es }
      fhu := if p.hld.waitEnds es then { p.fhu with deferredEnd := none } else p.fhu, toFront := f }
    ∧ p.toFront.Tells f
    ∧ (p.hld.waitEnds es = false ∨ p.fhu.deferredEnd = none → f.log = p.log ∧ f.monitors = p.monitors) := by
  obtain ⟨next, is⟩ : ∃ next : HoldTable, next = { p.hld with entries := es } := ⟨_, rfl⟩
  have form : p.putTable es = if !p.hld.quiesce && next.quiesce && p.hld.ackLine then (p.putEntries (next.startWait p.tmb.uptime)).endWait .acked
      else if p.hld.quiesce && !next.quiesce && p.hld.wait.isSome then (p.putEntries next).endWait .notAcked
      else p.putEntries (if !p.hld.quiesce && next.quiesce then next.startWait p.tmb.uptime else next) := by
    subst is
    unfold Power.putTable
    dsimp only
    cases p.hld.quiesce <;> cases ({ p.hld with entries := es } : HoldTable).quiesce <;> rfl
  have ends : p.hld.waitEnds es = (!p.hld.quiesce && next.quiesce && p.hld.ackLine || p.hld.quiesce && !next.quiesce && p.hld.wait.isSome) := by
    rw [is]; rfl
  have becomes : p.hld.become es p.tmb.uptime = if !p.hld.quiesce && next.quiesce then
      (if p.hld.ackLine then { next with wait := none, outcome := .acked } else next.startWait p.tmb.uptime)
    else if p.hld.quiesce && !next.quiesce && p.hld.wait.isSome then { next with wait := none, outcome := .notAcked } else next := by
    rw [is]; rfl
  rw [form, ends, becomes, show es = next.entries by rw [is]]
  have quiet (h : HoldTable) := p.putEntries_quiet h
  have ended (h : HoldTable) (o : AckOutcome) := Power.putEntries_ends no_drops h o
  clear is form ends becomes
  cases p.hld.quiesce <;> cases next.quiesce
  case false.true =>
    cases p.hld.ackLine
    · obtain ⟨f, put, tells, same⟩ := quiet (next.startWait p.tmb.uptime)
      exact ⟨f, put, tells, fun _ => same⟩
    · obtain ⟨f, put, tells, same⟩ := ended (next.startWait p.tmb.uptime) .acked
      exact ⟨f, put, tells, fun silent => same (silent.resolve_left (by simp))⟩
  case true.false =>
    cases p.hld.wait.isSome
    · obtain ⟨f, put, tells, same⟩ := quiet next
      exact ⟨f, put, tells, fun _ => same⟩
    · obtain ⟨f, put, tells, same⟩ := ended next .notAcked
      exact ⟨f, put, tells, fun silent => same (silent.resolve_left (by simp))⟩
  all_goals
    obtain ⟨f, put, tells, same⟩ := quiet next
    exact ⟨f, put, tells, fun _ => same⟩

/-! ## The ENERGY hold is lifted (R47, R56) -/

theorem removeEnergy_eq (es : List (Option HoldEntry)) :
    removeEntries (fun e => decide (e.holder = .energy)) es = es.map fun o => o.filter fun e => decide (e.holder ≠ .energy) := by
  refine List.map_congr_left fun o _ => ?_
  cases o with
  | none => rfl
  | some e => by_cases energy : e.holder = .energy <;> simp [energy, Option.filter]

/-- An ENERGY entry stands (R56). -/
def HoldTable.energyHeld (h : HoldTable) : Bool := h.entries.any fun o => o.any fun e => decide (e.holder = .energy)

theorem removeEntries_same {gone : HoldEntry → Bool} {es : List (Option HoldEntry)} (none_goes : (es.any fun o => o.any gone) = false) :
    removeEntries gone es = es := by
  unfold removeEntries
  refine (List.map_congr_left fun o mem => ?_).trans (List.map_id es)
  have stays : o.any gone = false := by
    rw [List.any_eq_false] at none_goes
    exact Bool.eq_false_iff.mpr (none_goes o mem)
  cases o with
  | none => rfl
  | some e => exact if_neg (by rw [show gone e = false from stays]; decide)

theorem tableShape_removed {gone : HoldEntry → Bool} {es : List (Option HoldEntry)} (one_goes : (es.any fun o => o.any gone) = true) :
    tableShape (removeEntries gone es) ≠ tableShape es := by
  obtain ⟨o, mem, goes⟩ := List.any_eq_true.mp one_goes
  obtain ⟨n, inside, rfl⟩ := List.getElem_of_mem mem
  intro same
  have entry := congrArg (fun l => l[n]?) same
  cases found : es[n] with
  | none => rw [found] at goes; cases goes
  | some e =>
    rw [found] at goes
    have goes : gone e = true := goes
    simp only [tableShape, List.getElem?_map, getElem?_removeEntries, List.getElem?_eq_getElem inside, found, Option.map_some] at entry
    rw [show (some e).filter (fun e => !gone e) = none by simp [Option.filter, goes]] at entry
    cases entry

end Sys2Proof.Machine
end

section
/-! PROOF. Placements, conversions of the sensors and their losses (R42, R51, R81, R171, R173). -/

namespace Sys2Proof.Machine

open Sys2Proof.Safety

/-! ## The first position that a test holds of -/

/-- The first element of which `p` holds stands at `n`. -/
theorem findIdx?_first {α : Type} {p : α → Bool} {as : List α} {n : Nat} {a : α} (there : as[n]? = some a) (holds : p a = true)
    (before : ∀ m b, m < n → as[m]? = some b → p b = false) : as.findIdx? p = some n := by
  obtain ⟨inside, rfl⟩ := List.getElem?_eq_some_iff.mp there
  refine List.findIdx?_eq_some_iff_getElem.mpr ⟨inside, holds, fun m earlier => ?_⟩
  rw [before m as[m] earlier (List.getElem?_eq_getElem _)]
  decide

theorem positionOf_first {h : Holder} {t : Target} {es : List (Option HoldEntry)} {n : Nat} {o : HoldEntry} (there : es[n]? = some (some o))
    (pair : o.holder = h ∧ o.target = t)
    (before : ∀ m p, m < n → es[m]? = some (some p) → ¬ (p.holder = h ∧ p.target = t)) : positionOf h t es = some n := by
  refine findIdx?_first there (by simp [isPair, pair.1, pair.2]) fun m b earlier found => ?_
  cases b with
  | none => rfl
  | some p =>
    have other := before m p earlier found
    simpa [isPair] using other

theorem positionOf_absent {h : Holder} {t : Target} {es : List (Option HoldEntry)}
    (absent : ∀ o, some o ∈ es → ¬ (o.holder = h ∧ o.target = t)) : positionOf h t es = none := by
  refine List.findIdx?_eq_none_iff.mpr fun b mem => ?_
  cases b with
  | none => rfl
  | some p =>
    have other := absent p mem
    simpa [isPair] using other

theorem freePosition_first {es : List (Option HoldEntry)} {n : Nat} (there : es[n]? = some none) (before : ∀ m, m < n → es[m]? ≠ some none) :
    freePosition es = some n := by
  refine findIdx?_first there rfl fun m b earlier found => ?_
  cases b with
  | none => exact absurd found (before m earlier)
  | some p => rfl

theorem placeEntry_refreshed {e o : HoldEntry} {es : List (Option HoldEntry)} {n : Nat} (stands : positionOf e.holder e.target es = some n)
    (there : es[n]? = some (some o)) : placeEntry e es = es.set n (some { e with placedAt := o.placedAt }) := by
  unfold placeEntry decidePlacement
  rw [stands]
  unfold placedAtOf
  dsimp only
  rw [there]

theorem placeEntry_refused {e : HoldEntry} {es : List (Option HoldEntry)} (fresh : positionOf e.holder e.target es = none)
    (full : e.holder = .software ∧ 12 ≤ softwareCount es) : placeEntry e es = es := by
  unfold placeEntry decidePlacement
  rw [fresh]
  dsimp only
  rw [if_pos (show e.holder = .software ∧ Config.softwareLimit ≤ softwareCount es from full)]

theorem placeEntry_new {e : HoldEntry} {es : List (Option HoldEntry)} {n : Nat} (fresh : positionOf e.holder e.target es = none)
    (room : e.holder = .software → softwareCount es < 12) (free : freePosition es = some n) : placeEntry e es = es.set n (some e) := by
  have fits : ¬ (e.holder = .software ∧ Config.softwareLimit ≤ softwareCount es) := fun ⟨software, full⟩ =>
    absurd (room software) (Nat.not_lt.mpr full)
  unfold placeEntry decidePlacement
  rw [fresh]
  dsimp only
  rw [if_neg fits, free]

/-- Settles O23. -/
theorem placementFollowsTheTable : Obligations.PlacementFollowsTheTable := by
  refine fun e es => ⟨fun n o there holder target before => ?_, fun absent => ⟨fun software full => ?_, fun n room free before => ?_⟩⟩
  · exact placeEntry_refreshed (positionOf_first there ⟨holder, target⟩ before) there
  · exact placeEntry_refused (positionOf_absent absent) ⟨software, full⟩
  · exact placeEntry_new (positionOf_absent absent) room (freePosition_first free before)

/-! ## Conversions of the power sense -/

/-- FHU's record and state once a sample has been taken (R42, R49). -/
def State.measuredPower (s : State) (x : PowerReading) : Power :=
  { s.toPower with
    feed := { s.feed with eAvail := energyOf s x, remaining := remainingOf s x }
    fhu := { s.fhu with eShutInForce := s.feed.eShut } }

theorem State.recompute_eq (s : State) (x : PowerReading) : s.toPower.recompute x = s.measuredPower x := rfl

/-- The blocks at a due conversion with a good sample, before FHU judges it (R171). -/
def State.sampled (s : State) (x : PowerReading) : Blocks :=
  { s.toBlocks with sfe := sampledPower s x, timers := convertedTimers s }

theorem exec_powerSenseSample_good {s : State} (on : s.powered = true) (due : s.timers.powerSense ≤ s.tmb.uptime) (x : PowerReading) :
    exec (.powerSenseSample (some x)) s = .next (s.withBlocks
      (((s.sampled x).withPower (s.toPower.goodSample (s.sampled x).loads x)).settled (s.toBlocks.withTimers (convertedTimers s)))) := by
  rw [exec_powerSenseSample, s.whilePowered_on _ on, Blocks.whenDue_due _ _ _ due]
  rfl

theorem Power.judgeExhaustion_none {p : Power} (none_runs : p.feed.holdover = none) : p.judgeExhaustion = p := by
  unfold Power.judgeExhaustion
  rw [none_runs]

theorem Power.judgeSwitchover_none {p : Power} (none_flies : p.feed.switchover = none) (l : Loads) (r : PowerReading) :
    p.judgeSwitchover l r = p := by
  unfold Power.judgeSwitchover
  rw [none_flies]

/-- A sample that FHU only measures with. -/
theorem State.measured {s : State} (h : Ready s) (charger : ChargerSettled s.toPower) (due : s.timers.powerSense ≤ s.tmb.uptime) {x : PowerReading}
    (calm : s.toPower.goodSample (s.sampled x).loads x = s.toPower.recompute x) : ∃ t, exec (.powerSenseSample (some x)) s = .next t
      ∧ t = { s with
          sfe := sampledPower s x, timers := convertedTimers s, fhu := { s.fhu with eShutInForce := s.feed.eShut }
          feed := { s.feed with eAvail := energyOf s x, remaining := remainingOf s x }
          mem := t.mem, gens := { s.gens with energy := t.gens.energy }, pins := derivePins t.toBlocks }
      ∧ keepsOutside energyRanges s.mem t.mem := by
  rw [exec_powerSenseSample_good h.1 due, calm, s.recompute_eq x]
  obtain ⟨mem, settled, kept, -⟩ := Blocks.settled_energy (old := s.toBlocks.withTimers (convertedTimers s))
    (x := (s.sampled x).withPower (s.measuredPower x)) h.2 rfl
  rw [settled, show ((s.sampled x).withPower (s.measuredPower x)).toPower.assign = s.assignment from charger.symm]
  exact ⟨_, rfl, rfl, kept⟩

/-- Settles O18. -/
theorem powerSampleMeasuresTheReservoir : Obligations.PowerSampleMeasuresTheReservoir := by
  refine ⟨fun x s h charger no_holdover none_flies due => s.measured h charger due ?_, fun s on driven due => ?_⟩
  · unfold Power.goodSample
    rw [Power.judgeExhaustion_none (p := s.toPower.recompute x) no_holdover, Power.judgeSwitchover_none (p := s.toPower.recompute x) none_flies]
  · rw [exec_powerSenseSample, s.whilePowered_on _ on, Blocks.whenDue_due _ _ _ due]
    refine congrArg Host.Outcome.next ?_
    show s.withBlocks _ = _
    unfold PinsDriven at driven
    rw [on, if_pos rfl] at driven
    show ({ s with timers := convertedTimers s, pins := derivePins s.toBlocks } : State) = _
    rw [← driven]

/-! ## Losses -/

/-- One SENSOR_FAULT record beside what else the event changed. -/
theorem Blocks.sensorFault_eq (y : Blocks) (x : Sensor) : ∃ (mem : Mem) (summary : Word) (log : LogRec) (monitors : List Monitor) (gen : Word),
    y.sensorFault x = { y with
      mem := mem, summary := summary, log := { log with effRead := y.log.effRead }, monitors := monitors, gens := { y.gens with monitor := gen } }
    ∧ Logged y.toFront (y.sensorFault x).toFront (.sensorFault x) y.tmb ∧ keepsOutside recordRanges y.mem mem := by
  have notes := y.toFront.makeRecord_notes (.sensorFault x)
  have logged := (y.toFront.makeRecord_logs (.sensorFault x)).logged
  obtain ⟨mem, summary, log, monitors, gen, same⟩ := notes.step.fields
  have kept := notes.step.kept
  unfold Blocks.sensorFault
  rw [same] at logged kept ⊢
  exact ⟨mem, summary, log, monitors, gen, rfl, logged, kept⟩

theorem Blocks.losePower_again {y : Blocks} (lost : y.sfe.powerHealth = .lost) : y.losePower = y := if_pos lost
theorem Blocks.loseTherm_again {y : Blocks} (lost : y.sfe.thermHealth = .lost) : y.loseTherm = y := if_pos lost
theorem Blocks.loseAmbient_again {y : Blocks} (stale : y.blc.ambient = .stale) : y.loseAmbient = y := if_pos stale

theorem goodTherm_iff (v : Int) : goodTherm v = true ↔ -400 ≤ v ∧ v ≤ 1500 := by simp [goodTherm]

/-- A state whose part runs, with other blocks beside its host's side and its bays. -/
theorem State.withBlocks_beside {s : State} (on : s.powered = true) (driven : PinsDriven s) (sfe : SfeRec) (timers : Timers) :
    s.withBlocks { s.toBlocks with sfe := sfe, timers := timers } = { s with sfe := sfe, timers := timers } := by
  unfold PinsDriven at driven
  rw [on, if_pos rfl] at driven
  show ({ s with sfe := sfe, timers := timers, pins := derivePins s.toBlocks } : State) = _
  rw [← driven]

/-- A conversion of the thermistor that is neither open nor short (R173). -/
theorem Blocks.readTherm_good {v : Int} (low : -400 ≤ v) (high : v ≤ 1500) (y : Blocks) : y.readTherm v = { y with
    sfe := { y.sfe with panelTemp := v, thermHealth := .valid, thermGoodAt := y.tmb.uptime } } :=
  if_pos ((goodTherm_iff v).mpr ⟨low, high⟩)

/-- One that is open or short. -/
theorem Blocks.readTherm_bad {v : Int} (outside : v < -400 ∨ 1500 < v) (y : Blocks) : y.readTherm v = y.loseTherm :=
  if_neg fun good => by
    have within := (goodTherm_iff v).mp good
    omega

/-- The blocks with SFE's record, the light record and the timers replaced. -/
def State.sensing (s : State) (sfe : SfeRec) (blc : LightRec) (timers : Timers) : Blocks :=
  { s.toBlocks with sfe := sfe, blc := blc, timers := timers }

theorem State.sensorLost (s : State) (x : Sensor) (sfe : SfeRec) (blc : LightRec) (timers : Timers) :
    Logged s.toFront ((s.sensing sfe blc timers).sensorFault x).toFront (.sensorFault x) s.tmb
      ∧ keepsOutside recordRanges s.mem ((s.sensing sfe blc timers).sensorFault x).mem
      ∧ ∃ t, s.withBlocks ((s.sensing sfe blc timers).sensorFault x) = t ∧ t.toBlocks = (s.sensing sfe blc timers).sensorFault x
        ∧ t.sfe = sfe ∧ t.blc = blc
        ∧ t = { s with
          sfe := sfe, blc := blc, timers := timers, mem := t.mem, summary := t.summary
          log := { t.log with effRead := s.log.effRead }, monitors := t.monitors
          gens := { s.gens with monitor := t.gens.monitor }, pins := derivePins t.toBlocks } := by
  obtain ⟨mem, summary, log, monitors, gen, same, logged, kept⟩ := (s.sensing sfe blc timers).sensorFault_eq x
  rw [same] at logged ⊢
  exact ⟨logged, kept, _, rfl, rfl, rfl, rfl, rfl⟩

/-- Settles O20. -/
theorem sensorReadingsAndLossesAreJudged : Obligations.SensorReadingsAndLossesAreJudged := by
  refine ⟨fun s on driven => ⟨fun due => ?_, fun due => ?_, fun due => ?_⟩, fun v s on driven due => ⟨fun low high => ?_, fun outside lost => ?_,
    fun outside known => ?_⟩⟩
  · split
    · rw [exec_powerSenseLost]
      exact s.whilePowered_still on driven ((Blocks.whenDue_due _ _ _ due).trans (Blocks.losePower_again ‹_›))
    · rw [exec_powerSenseLost, s.whilePowered_on _ on, Blocks.whenDue_due _ _ _ due]
      obtain ⟨logged, kept, t, is, own, sfe, blc, shape⟩ := s.sensorLost .powerSense { s.sfe with powerHealth := .lost } s.blc s.timers
      rw [← own] at logged kept
      exact ⟨t, congrArg Host.Outcome.next ((congrArg s.withBlocks (if_neg ‹_›)).trans is), ⟨logged, kept, by rw [sfe, blc]; exact shape⟩, sfe, blc⟩
  · split
    · rw [exec_thermistorLost]
      exact s.whilePowered_still on driven ((Blocks.whenDue_due _ _ _ due).trans (Blocks.loseTherm_again ‹_›))
    · rw [exec_thermistorLost, s.whilePowered_on _ on, Blocks.whenDue_due _ _ _ due]
      obtain ⟨logged, kept, t, is, own, sfe, blc, shape⟩ := s.sensorLost .thermistor { s.sfe with thermHealth := .lost } s.blc s.timers
      rw [← own] at logged kept
      exact ⟨t, congrArg Host.Outcome.next ((congrArg s.withBlocks (if_neg ‹_›)).trans is), ⟨logged, kept, by rw [sfe, blc]; exact shape⟩, sfe, blc⟩
  · split
    · rw [exec_ambientLost]
      exact s.whilePowered_still on driven ((Blocks.whenDue_due _ _ _ due).trans (Blocks.loseAmbient_again ‹_›))
    · rw [exec_ambientLost, s.whilePowered_on _ on, Blocks.whenDue_due _ (s.blc.ambientFrom + 500) _ due]
      obtain ⟨logged, kept, t, is, own, sfe, blc, shape⟩ := s.sensorLost .ambient s.sfe { s.blc with ambient := .stale } s.timers
      rw [← own] at logged kept
      exact ⟨t, congrArg Host.Outcome.next ((congrArg s.withBlocks (if_neg ‹_›)).trans is), ⟨logged, kept, by rw [sfe, blc]; exact shape⟩, blc, sfe⟩
  · rw [exec_thermistorReading, s.whilePowered_on _ on, Blocks.whenDue_due _ _ _ due, Blocks.readTherm_good low high]
    exact congrArg Host.Outcome.next (State.withBlocks_beside on driven _ _)
  · rw [exec_thermistorReading, s.whilePowered_on _ on, Blocks.whenDue_due _ _ _ due, Blocks.readTherm_bad outside]
    have still := Blocks.loseTherm_again (y := s.toBlocks.withTimers { s.timers with thermistor := s.timers.thermistor + 100 }) lost
    exact congrArg Host.Outcome.next ((congrArg s.withBlocks still).trans (State.withBlocks_beside on driven _ _))
  · rw [exec_thermistorReading, s.whilePowered_on _ on, Blocks.whenDue_due _ _ _ due, Blocks.readTherm_bad outside]
    obtain ⟨logged, kept, t, is, own, sfe, blc, shape⟩ := s.sensorLost .thermistor { s.sfe with thermHealth := .lost } s.blc
      { s.timers with thermistor := s.timers.thermistor + 100 }
    rw [← own] at logged kept
    exact ⟨t, congrArg Host.Outcome.next ((congrArg s.withBlocks (if_neg known)).trans is), sfe, logged, by rw [sfe]; exact shape, kept⟩

end Sys2Proof.Machine
end

section
/-! PROOF. Removals from the hold table, and the end of an exhausted holdover (R46, R47, R57, R60). -/

namespace Sys2Proof.Machine

open Sys2Proof.Safety

/-! ## Entries go -/

/-- The hold table once entries have gone and `es` stand. -/
def HoldTable.lowered (h : HoldTable) (es : List (Option HoldEntry)) : HoldTable :=
  let next : HoldTable := { h with entries := es }
  { next with
    wait := if h.quiesce && !next.quiesce then none else h.wait
    outcome := if h.quiesce && !next.quiesce && h.wait.isSome then .notAcked else h.outcome }

theorem HoldTable.become_lowered {h : HoldTable} {es : List (Option HoldEntry)}
    (no_rise : ({ h with entries := es } : HoldTable).quiesce = true → h.quiesce = true) (now : Nat) : h.become es now = h.lowered es := by
  obtain ⟨next, is⟩ : ∃ next : HoldTable, next = { h with entries := es } := ⟨_, rfl⟩
  have wait : next.wait = h.wait := by rw [is]
  have outcome : next.outcome = h.outcome := by rw [is]
  have from_next : h.lowered es = { next with
      wait := if h.quiesce && !next.quiesce then none else next.wait
      outcome := if h.quiesce && !next.quiesce && h.wait.isSome then .notAcked else next.outcome } := by
    rw [wait, outcome, is]
    rfl
  have becomes : h.become es now = if !h.quiesce && next.quiesce then
      (if h.ackLine then { next with wait := none, outcome := .acked } else next.startWait now)
    else if h.quiesce && !next.quiesce && h.wait.isSome then { next with wait := none, outcome := .notAcked } else next := by
    rw [is]
    rfl
  rw [← is] at no_rise
  rw [becomes, from_next]
  cases up : next.quiesce
  · cases h.quiesce
    · rfl
    · cases runs : h.wait.isSome
      · have none_runs : next.wait = none := by rw [wait]; exact Option.isSome_eq_false_iff.mp runs |> Option.isNone_iff_eq_none.mp
        simp only [Bool.not_true, Bool.not_false, Bool.and_true, Bool.and_false, if_true]
        rw [if_neg (by decide), ← none_runs]
        rfl
      · rfl
  · rw [no_rise up]
    rfl

theorem HoldTable.quiesce_removed {gone : HoldEntry → Bool} {h : HoldTable}
    (up : ({ h with entries := removeEntries gone h.entries } : HoldTable).quiesce = true) : h.quiesce = true := by
  unfold HoldTable.quiesce HoldTable.targets at up ⊢
  obtain ⟨o, mem, storage⟩ := List.any_eq_true.mp up
  obtain ⟨o', there, rfl⟩ := List.mem_map.mp mem
  refine List.any_eq_true.mpr ⟨o', there, ?_⟩
  cases o' with
  | none => exact storage
  | some e =>
    cases going : gone e
    · simpa only [going, Bool.false_eq_true, if_false] using storage
    · simp only [going, if_true] at storage
      cases storage

/-- Removing what does not stand leaves the table. -/
theorem HoldTable.lowered_self (h : HoldTable) : h.lowered h.entries = h := by
  unfold HoldTable.lowered
  have same : ({ h with entries := h.entries } : HoldTable).quiesce = h.quiesce := rfl
  dsimp only
  rw [same, show (h.quiesce && !h.quiesce) = false by cases h.quiesce <;> rfl]
  rfl

theorem Power.putTable_removed {p : Power} (no_drops : p.drops = []) (gone : HoldEntry → Bool) : ∃ fhu f, p.putTable (removeEntries gone p.hld.entries)
      = { p with
        hld := p.hld.lowered (removeEntries gone p.hld.entries)
        due := { p.due with hold := p.due.hold || tableChanged p.hld.entries (removeEntries gone p.hld.entries) }, fhu := fhu, toFront := f }
    ∧ p.toFront.Tells f ∧ (p.fhu.deferredEnd = none → f.log = p.log ∧ f.monitors = p.monitors)
    ∧ (fhu = p.fhu ∨ fhu = { p.fhu with deferredEnd := none }) := by
  obtain ⟨f, put, tells, same⟩ := Power.putTable_eq no_drops (removeEntries gone p.hld.entries)
  rw [HoldTable.become_lowered HoldTable.quiesce_removed] at put
  refine ⟨_, f, put, tells, fun none_pends => same (.inr none_pends), ?_⟩
  split
  · exact .inr rfl
  · exact .inl rfl

/-! ## The end of an exhausted holdover (R46, R47) -/

/-- The entries without those of ENERGY. -/
def HoldTable.withoutEnergy (h : HoldTable) : List (Option HoldEntry) := h.entries.map fun o => o.filter fun e => decide (e.holder ≠ .energy)

theorem tableChanged_energy (h : HoldTable) : tableChanged h.entries h.withoutEnergy = h.energyHeld := by
  unfold HoldTable.withoutEnergy tableChanged
  rw [← removeEnergy_eq]
  unfold HoldTable.energyHeld
  cases held : h.entries.any fun o => o.any fun e => decide (e.holder = .energy)
  · exact decide_eq_false (by rw [removeEntries_same held]; exact fun differs => differs rfl)
  · exact decide_eq_true (tableShape_removed held)

theorem Power.liftEnergy_eq {p : Power} (no_drops : p.drops = []) (none_pends : p.fhu.deferredEnd = none) : ∃ f, p.liftEnergy = { p with
      hld := p.hld.lowered p.hld.withoutEnergy, due := { p.due with hold := p.due.hold || p.hld.energyHeld }, toFront := f }
    ∧ p.toFront.Tells f ∧ f.log = p.log ∧ f.monitors = p.monitors := by
  have entries : removeEntries (fun e => decide (e.holder = .energy)) p.hld.entries = p.hld.withoutEnergy := removeEnergy_eq _
  unfold Power.liftEnergy
  dsimp only
  split
  case isTrue same =>
    have stands : p.hld.withoutEnergy = p.hld.entries := entries ▸ same
    have none_held : p.hld.energyHeld = false := by
      rw [← tableChanged_energy, stands]
      exact decide_eq_false fun differs => differs rfl
    refine ⟨p.toFront, ?_, .refl _, rfl, rfl⟩
    rw [stands, HoldTable.lowered_self, none_held, Bool.or_false]
  case isFalse =>
    obtain ⟨fhu, f, put, tells, same, left⟩ := Power.putTable_removed no_drops fun e => decide (e.holder = .energy)
    have fhu_same : fhu = p.fhu := by
      rcases left with stands | cleared
      · exact stands
      · rw [cleared, ← none_pends]
    rw [entries, tableChanged_energy, fhu_same] at put
    exact ⟨f, by rw [entries]; exact put, tells, same none_pends⟩

/-- What the end of an exhausted holdover leaves of FHU, HLD and the host's side. -/
theorem Power.endHoldover_spent {p : Power} {h : Holdover} (runs : p.feed.holdover = some h) (exhausted : h.exhausted = true) (no_drops : p.drops = [])
    (c : HoldoverEndCause) : ∃ f, p.endHoldover c = { p with
      feed := { p.feed with holdover := none, lean := false, causes := { p.feed.causes with exhausted := false } }
      fhu := { p.fhu with deferredEnd := none }, hld := p.hld.lowered p.hld.withoutEnergy
      due := { p.due with hold := p.due.hold || p.hld.energyHeld }, toFront := f }
    ∧ p.toFront.Tells f
    ∧ (∀ d, p.fhu.deferredEnd = some d → p.toFront.Logs f (.holdoverEnd .exhausted d.duration d.planned p.hld.outcome) p.tmb)
    ∧ (p.fhu.deferredEnd = none → f.log = p.log ∧ f.monitors = p.monitors) := by
  have cleared : p.writeDeferredEnd.clearHoldover = { p with
      feed := { p.feed with holdover := none, lean := false, causes := { p.feed.causes with exhausted := false } }
      fhu := { p.fhu with deferredEnd := none }, toFront := p.toFront.noteEnd p.fhu.deferredEnd p.hld.outcome } := by
    rw [p.writeDeferredEnd_eq]
    rfl
  have notes := p.toFront.noteEnd_notes p.fhu.deferredEnd p.hld.outcome
  obtain ⟨f, lifts, tells, log, monitors⟩ := Power.liftEnergy_eq (p := { p with
      feed := { p.feed with holdover := none, lean := false, causes := { p.feed.causes with exhausted := false } }
      fhu := { p.fhu with deferredEnd := none }, toFront := p.toFront.noteEnd p.fhu.deferredEnd p.hld.outcome }) no_drops rfl
  refine ⟨f, ?_, notes.tells.trans tells, fun d pends => ?_, fun none_pends => ?_⟩
  · rw [Power.endHoldover_exhausted runs exhausted, cleared]
    exact lifts
  · have logs := p.toFront.makeRecord_logs (.holdoverEnd .exhausted d.duration d.planned p.hld.outcome)
    rw [pends] at tells
    exact logs.later tells.logs
  · rw [none_pends] at log monitors
    exact ⟨log, monitors⟩

end Sys2Proof.Machine
end

section
/-! PROOF. DC arrival (R31, R45 to R47). -/

namespace Sys2Proof.Machine

open Sys2Proof.Safety

/-! ## A source has ended an exhausted holdover -/

/-- The end of an exhausted holdover by a source, of the state after an event whose own changes give `q`. -/
theorem State.after_exhaustionOver {s : State} (ready : Ready s) {q : Power} (kin : s.toFront.Kin q.toFront) (policy : q.bayPolicy = s.bayPolicy)
    (due : q.due = ⟨false, true, s.hld.energyHeld, false, false⟩)
    (logs : ∀ d, s.fhu.deferredEnd = some d → s.toFront.Logs q.toFront (.holdoverEnd .exhausted d.duration d.planned s.hld.outcome) s.tmb)
    (silent : s.fhu.deferredEnd = none → q.log = s.log ∧ q.monitors = s.monitors) (fhu : q.fhu.deferredEnd = none)
    (holdover : q.feed.holdover = none) (lean : q.feed.lean = false) (causes : q.feed.causes = ⟨false, false, false⟩)
    (still : q.feed.pending = ⟨false, false⟩) (hld : q.hld = s.hld.lowered s.hld.withoutEnergy) : exhaustionOver s (s.after q) := by
  have goes := State.after_goes ready kin policy (by rw [due]; rfl)
  have feed := goes.feed still
  refine ⟨fun d pends => goes.logged (logs d pends), fun none_pends off configured => ?_, ?_, ?_, ?_, ?_, ?_, ?_, ?_, ?_, ?_⟩
  · obtain ⟨log, monitors⟩ := silent none_pends
    refine (Blocks.settled_silent (x := s.toBlocks.withPower q) ?_ ?_ s.toBlocks).trans log
    · intro m mem
      exact off m (monitors ▸ mem)
    · intro m mem
      exact configured m (monitors ▸ mem)
  · rw [goes.fhu still]
    exact fhu
  · rw [feed, holdover]
  · rw [feed, lean]
  · rw [feed, causes]
  · show (s.after q).feed.causes.line = false
    rw [feed, causes]
    rfl
  · rw [goes.hld, hld]
    rfl
  · rw [goes.hld, hld]
    rfl
  · rw [goes.hld, hld]
    rfl
  · rw [goes.causes, due]
    rfl

/-! ## DC arrival -/

theorem exec_dcArrival_moves {s : State} (h : Ready s) (late : 50 ≤ s.tmb.uptime) (none_flies : s.feed.switchover = none)
    (elsewhere : s.feed.kind ≠ .dc) :
    exec .dcArrival s = .next (s.after ((s.toPower.setDc true).moveFeed .dc .ordinary false)) := by
  rw [exec_dcArrival, s.whilePowered_on _ h.1, Blocks.whenDue_due _ earliestArrival _ late]
  have moves : s.toPower.arriveDc = (s.toPower.setDc true).moveFeed .dc .ordinary false := by
    refine if_neg ?_
    rintro (flies | dc)
    · rw [show (s.toPower.setDc true).feed.switchover = none from none_flies] at flies
      cases flies
    · exact elsewhere dc
  show Host.Outcome.next (s.after s.toPower.arriveDc) = _
  rw [moves]

/-- FHU's feed record once DC has taken the feed. -/
def State.onDc (s : State) : FeedRec := FeedRec.fed { s.feed with dcPresent := true } .dc

/-- Without a switchover a move leaves FHU's record with these changes. -/
theorem FeedRec.fed_calm {f : FeedRec} (none_flies : f.switchover = none) (t : FeedKind) : f.fed t = { f with
    kind := t, pending := ⟨false, false⟩, causes := { f.causes with faulted := false, lowCharge := false } } := by
  unfold FeedRec.fed
  rw [show f.switchover = none from none_flies]

/-- What DC arrival on the reservoir changes of BAY, FHU and HLD before the holdover ends. -/
def State.arrived (s : State) : Power :=
  { s.toPower with feed := s.onDc, fhu := s.toPower.fedFhu .dc, due := { s.due with feed := true } }

/-- The move to DC from the reservoir, before the holdover ends: no bay changes. -/
theorem Power.setDc_fedBy_reservoir {s : State} (from_reservoir : s.feed.kind = .reservoir) : (s.toPower.setDc true).fedBy .dc .ordinary
    = s.arrived := by
  rw [Power.fedBy_put]
  have bay (b : Bay) : (s.toPower.setDc true).fedRec .dc .ordinary b = s.bay b := by
    unfold Power.fedRec
    rw [if_neg (by cases b <;> simp [feedOf]), if_neg (by rw [show (s.toPower.setDc true).feed.kind = .reservoir from from_reservoir]; cases b <;> simp [feedOf])]
    cases b <;> rfl
  have link (b : Bay) : (s.toPower.setDc true).fedLink .dc .ordinary b = s.link b := by
    unfold Power.fedLink
    rw [if_neg (by rw [show (s.toPower.setDc true).feed.kind = .reservoir from from_reservoir]; cases b <;> simp [feedOf])]
    cases b <;> rfl
  rw [bay .A, bay .B, link .A, link .B]
  rfl

theorem feedOf_ne_dc (b : Bay) : feedOf b ≠ .dc := (dc_ne_feedOf b).symm
theorem feedOf_ne_reservoir (b : Bay) : feedOf b ≠ .reservoir := (reservoir_ne_feedOf b).symm
theorem feedOf_other_ne (b : Bay) : feedOf b ≠ feedOf (otherBay b) := by cases b <;> simp [feedOf, otherBay]

theorem feed_due {s : State} (ready : Ready s) : ({ s.due with feed := true } : PassCauses) = ⟨false, true, false, false, false⟩ := by
  rw [ready.2]
  rfl

/-- Settles O14. -/
theorem dcArrivalTakesTheFeed : Obligations.DcArrivalTakesTheFeed := by
  refine ⟨fun b s ready feeding kind none_flies late => ?_, fun h s ready kind none_flies runs lasts late => ?_,
    fun h s ready kind none_flies runs exhausted no_drops late => ?_⟩
  · have from_bay : s.feed.kind ≠ .reservoir := by rw [kind]; exact feedOf_ne_reservoir b
    have moved := (Power.moveFeed_between (p := s.toPower.setDc true) (t := .dc) nofun from_bay .ordinary false).trans
      ((s.toPower.setDc true).fedBy_put .dc .ordinary)
    rw [exec_dcArrival_moves ready late none_flies (by rw [kind]; exact feedOf_ne_dc b), moved]
    obtain ⟨q, is⟩ : ∃ q, q = { s.toPower.setDc true with
      bayA := (s.toPower.setDc true).fedRec .dc .ordinary .A, bayB := (s.toPower.setDc true).fedRec .dc .ordinary .B
      linkA := (s.toPower.setDc true).fedLink .dc .ordinary .A, linkB := (s.toPower.setDc true).fedLink .dc .ordinary .B
      feed := FeedRec.fed (s.toPower.setDc true).feed .dc, fhu := (s.toPower.setDc true).fedFhu .dc
      due := { (s.toPower.setDc true).due with feed := true } } := ⟨_, rfl⟩
    rw [← is]
    have due : q.due = ⟨false, true, false, false, false⟩ := by rw [is]; exact feed_due ready
    have bay (c : Bay) : q.bay c = (s.toPower.setDc true).fedRec .dc .ordinary c := by rw [is]; cases c <;> rfl
    have goes := State.after_goes ready (q := q) (by rw [is]; exact .refl _) (by rw [is]; rfl) (by rw [due]; rfl)
    have still : q.feed.pending = ⟨false, false⟩ := by rw [is]; rfl
    refine ⟨_, rfl, ?_, ?_, ?_, ?_, goes.causes.trans due, ?_, goes.liveDuty_kept (by rw [due]), ?_, goes.mot, ?_, goes.timers, goes.sfe,
      goes.passEvent (by rw [is]; rfl), goes.kept_plain (by rw [is]; exact keepsOutside_refl _ _)⟩
    · rw [goes.feed still, is]
      exact FeedRec.fed_calm (f := { s.feed with dcPresent := true }) none_flies .dc
    · rw [goes.fhu still, is]
      rfl
    · rw [goes.bay, bay]
      unfold Power.fedRec
      rw [if_neg (feedOf_ne_dc b).symm, if_pos (show (s.toPower.setDc true).feed.kind = feedOf b from kind)]
      show stateAfterFeed .ordinary .dc (s.toPower.bay b).state = .standby
      rw [feeding]
      rfl
    · rw [goes.bay, bay]
      unfold Power.fedRec
      rw [if_neg (feedOf_ne_dc _).symm, if_neg (by rw [show (s.toPower.setDc true).feed.kind = feedOf b from kind]; exact feedOf_other_ne b)]
      cases b <;> rfl
    · rw [goes.feedUsed, is]
      rfl
    · rw [goes.hld, is]
      rfl
    · rw [goes.trc, is]
      rfl
  · have ended := (Power.moveFeed_from (p := s.toPower.setDc true) (t := .dc) nofun kind .ordinary false).trans
      ((congrArg (Power.endHoldover · _) (Power.setDc_fedBy_reservoir kind)).trans (Power.endHoldover_running (p := s.arrived) (h := h) runs lasts .dc))
    rw [exec_dcArrival_moves ready late none_flies (by rw [kind]; nofun), ended]
    have notes := s.toFront.makeRecord_notes (.holdoverEnd .dc ((s.tmb.uptime - h.start) / 1000) h.planned s.hld.outcome)
    have logs := s.toFront.makeRecord_logs (.holdoverEnd .dc ((s.tmb.uptime - h.start) / 1000) h.planned s.hld.outcome)
    have due := feed_due ready
    clear ended
    have goes := State.after_goes ready (q := { s.arrived with
      toFront := s.toFront.makeRecord (.holdoverEnd .dc ((s.tmb.uptime - h.start) / 1000) h.planned s.hld.outcome)
      feed := { s.onDc with holdover := none, lean := false, causes := { s.onDc.causes with exhausted := false } } }) notes.kin rfl
      (congrArg PassCauses.any due)
    have feed := goes.feed rfl
    exact ⟨_, rfl, congrArg FeedRec.kind feed, congrArg FeedRec.holdover feed, congrArg FeedRec.lean feed, goes.logged logs, goes.bayA, goes.bayB,
      goes.hld, goes.mot, goes.liveDuty_kept (congrArg PassCauses.emergency due), goes.passEvent notes.inFlight, goes.kept_plain notes.keptPass⟩
  · obtain ⟨f, ends, tells, logs, silent⟩ := Power.endHoldover_spent (p := s.arrived) (h := h) runs exhausted no_drops .dc
    have ended := (Power.moveFeed_from (p := s.toPower.setDc true) (t := .dc) nofun kind .ordinary false).trans
      ((congrArg (Power.endHoldover · _) (Power.setDc_fedBy_reservoir kind)).trans ends)
    rw [exec_dcArrival_moves ready late none_flies (by rw [kind]; nofun), ended]
    have due : ({ s.due with feed := true, hold := s.due.hold || s.hld.energyHeld } : PassCauses) = ⟨false, true, s.hld.energyHeld, false, false⟩ := by
      rw [ready.2]
      rfl
    obtain ⟨q, is⟩ : ∃ q : Power, q = { s.arrived with
      feed := { s.onDc with holdover := none, lean := false, causes := { s.onDc.causes with exhausted := false } }
      fhu := { s.toPower.fedFhu .dc with deferredEnd := none }, hld := s.hld.lowered s.hld.withoutEnergy
      due := { s.due with feed := true, hold := s.due.hold || s.hld.energyHeld }, toFront := f } := ⟨_, rfl⟩
    have goes := State.after_goes ready (q := q) (by rw [is]; exact tells.kin) (by rw [is]; rfl)
      (by rw [is]; exact congrArg PassCauses.any due)
    have spent := State.after_exhaustionOver ready (q := q) (by rw [is]; exact tells.kin) (by rw [is]; rfl) (by rw [is]; exact due) (by rw [is]; exact logs)
      (by rw [is]; exact silent) (by rw [is]) (by rw [is]) (by rw [is]) (by rw [is]; rfl) (by rw [is]; rfl) (by rw [is])
    have feed : q.feed = { s.feed with
        kind := .dc, dcPresent := true, holdover := none, lean := false, pending := ⟨false, false⟩, causes := ⟨false, false, false⟩ } := by
      rw [is]
      show ({ s.onDc with holdover := none, lean := false, causes := { s.onDc.causes with exhausted := false } } : FeedRec) = _
      unfold State.onDc
      rw [FeedRec.fed_calm (f := { s.feed with dcPresent := true }) none_flies .dc]
    have still : q.feed.pending = ⟨false, false⟩ := by rw [feed]
    refine ⟨s.after q, by rw [is]; rfl, (goes.feed still).trans feed, spent, by rw [goes.fhu still, is]; rfl, by rw [goes.feedUsed, feed],
      by rw [goes.bayA, is]; rfl, by rw [goes.bayB, is]; rfl, goes.mot, by rw [goes.trc, is]; exact tells.trc, goes.sfe, goes.timers,
      goes.liveDuty_kept (by rw [is]; exact congrArg PassCauses.emergency due), goes.passEvent (by rw [is]; exact tells.list),
      goes.kept_plain (by rw [is]; exact tells.keptPass)⟩

end Sys2Proof.Machine
end

section
/-! PROOF. A bay takes the feed from the reservoir; presses of a bay's button (R14 to R20, R30, R45). -/

namespace Sys2Proof.Machine

open Sys2Proof.Safety

/-! ## A bay takes the feed from the reservoir -/

/-- Bay `b`, its record `r`, its link and the host's side replaced, feeds; the reservoir did (R27, R30). -/
def Power.takenBy (p : Power) (b : Bay) (r : BayRec) (l : Link) (f : Front) : Power :=
  { p.putBay b { r with state := .feeding noFaults } l f with
    feed := p.feed.fed (feedOf b)
    fhu := { p.fhu with switches := switchesFor (feedOf b), dueInFlight := ⟨false, false⟩, collapseFrom := f.tmb.uptime }
    due := { p.due with feed := true } }

theorem Power.putBay_fedBy_reservoir {p : Power} (on_reservoir : p.feed.kind = .reservoir) (b : Bay) (r : BayRec) (l : Link) (f : Front) (c : MoveCause) :
    (p.putBay b r l f).fedBy (feedOf b) c = p.takenBy b r l f := by
  have away (x : Bay) : (p.putBay b r l f).feed.kind ≠ feedOf x := by
    rw [Power.putBay_feed, on_reservoir]
    exact (feedOf_ne_reservoir x).symm
  have link (x : Bay) : (p.putBay b r l f).fedLink (feedOf b) c x = (p.putBay b r l f).link x := if_neg (away x)
  have own : (p.putBay b r l f).fedRec (feedOf b) c b = { r with state := .feeding noFaults } := by
    unfold Power.fedRec
    rw [if_pos rfl, Power.putBay_bay]
  have other : (p.putBay b r l f).fedRec (feedOf b) c (otherBay b) = p.bay (otherBay b) := by
    unfold Power.fedRec
    rw [if_neg (feedOf_other_ne b), if_neg (away _), Power.putBay_bay_other]
  rw [Power.fedBy_put, link .A, link .B]
  cases b
  · rw [own, show Bay.B = otherBay .A from rfl, other]
    rfl
  · rw [own, show Bay.A = otherBay .B from rfl, other]
    rfl

/-- A holdover that is not exhausted, where one runs, ends with its record (R45). -/
theorem Power.endHoldover_lasting {p : Power} (lasts : ∀ h, p.feed.holdover = some h → h.exhausted = false) (c : HoldoverEndCause) :
    ∃ (f : Front) (lean : Bool) (causes : ShutdownCauses), p.endHoldover c
      = { p with toFront := f, feed := { p.feed with holdover := none, lean := lean, causes := causes } }
    ∧ p.toFront.Notes f
    ∧ ∀ h, p.feed.holdover = some h → p.toFront.Logs f (.holdoverEnd c ((p.tmb.uptime - h.start) / 1000) h.planned p.hld.outcome) p.tmb := by
  cases runs : p.feed.holdover with
  | none =>
    refine ⟨p.toFront, p.feed.lean, p.feed.causes, ?_, .refl _, nofun⟩
    rw [Power.endHoldover_none runs, ← runs]
  | some h =>
    refine ⟨_, _, _, Power.endHoldover_running runs (lasts h runs) c, p.toFront.makeRecord_notes _, fun k same => ?_⟩
    cases same
    exact p.toFront.makeRecord_logs _

/-- The only candidate is the bay. -/
theorem Power.choose_of_only {p : Power} {b : Bay} (no_dc : p.feed.dcPresent = false) (able : (p.bay b).candidate = true)
    (other : (p.bay (otherBay b)).candidate = false) : p.choose = feedOf b := by
  unfold Power.choose
  rw [no_dc]
  cases b
  · rw [show p.bayA.candidate = true from able, show p.bayB.candidate = false from other]
    rfl
  · rw [show p.bayA.candidate = false from other, show p.bayB.candidate = true from able]
    rfl

/-- A bay that enters STANDBY as the only candidate takes the feed from the reservoir (R30). -/
theorem Power.putBay_enteredStandby_takes {p : Power} {b : Bay} {r : BayRec} (on_reservoir : p.feed.kind = .reservoir)
    (no_dc : p.feed.dcPresent = false) (able : r.candidate = true) (other : (p.bay (otherBay b)).candidate = false) (k : Link) (f : Front) (l : Loads) :
    (p.putBay b r k f).enteredStandby l b = (p.takenBy b r k f).endHoldover .pack := by
  have standby : r.state.isStandby = true := by
    unfold BayRec.candidate at able
    simp only [Bool.and_eq_true] at able
    exact able.1.1
  have chosen : (p.putBay b r k f).choose = feedOf b :=
    Power.choose_of_only (by rw [Power.putBay_feed]; exact no_dc) (by rw [Power.putBay_bay]; exact able) (by rw [Power.putBay_bay_other]; exact other)
  unfold Power.enteredStandby Power.choicePoint
  rw [Power.putBay_bay, if_pos standby, Power.putBay_feed, if_pos on_reservoir, if_pos on_reservoir, chosen, if_neg (feedOf_ne_reservoir b),
    Power.moveFeed_from (feedOf_ne_reservoir b) (by rw [Power.putBay_feed]; exact on_reservoir), Power.putBay_fedBy_reservoir on_reservoir,
    if_neg (feedOf_ne_dc b)]

/-! ## The slot of a release that an event with a pass ends -/

theorem State.Goes.releaseEnds {s t : State} {q : Power} (h : s.Goes q t) {b : Bay} {x : Release} {code : ResultCode} {failed : Bool}
    (ended : Front.Ended (owedBy s x) (resultFlags false failed) code (releaseData b x s.tmb.uptime) s.toFront q.toFront) :
    ReleaseEnds b x code failed s t := by
  have later := ended.later (h := t.toFront) h.inFlight h.pass.raised h.pass.kept
    (by simp [besideSlots, eventRanges, recordRanges, pageRange, PageId.offset, indexRange, missedRange, logRange])
  have flags : resultFlags false failed = if failed then 2 else 0 := by cases failed <;> rfl
  refine ⟨?_, fun e owes => ?_⟩
  · rw [listWithout_eq]
    exact later.list
  · rw [← flags]
    exact later.done e owes

/-! ## The event of a bay that takes the feed -/

/-- What such an event leaves of the bays and FHU. -/
structure State.Takes (s : State) (b : Bay) (r : BayRec) (k : Link) (t : State) : Prop where
  bay : t.bay b = { r with state := .feeding noFaults }
  link : t.link b = k
  other : t.bay (otherBay b) = s.bay (otherBay b)
  kind : t.feed.kind = feedOf b
  switches : t.fhu.switches = switchesFor (feedOf b)
  holdover : t.feed.holdover = none
  switchover : t.feed.switchover = none

/-- The feed record of a part whose feed bay `b` has become, the holdover over. -/
theorem State.takes_of_goes {s t : State} {q : Power} (h : s.Goes q t) (still : q.feed.pending = ⟨false, false⟩) {b : Bay} {r : BayRec} {k : Link}
    (bay : q.bay b = { r with state := .feeding noFaults }) (link : q.link b = k) (other : q.bay (otherBay b) = s.bay (otherBay b))
    (kind : q.feed.kind = feedOf b) (switches : q.fhu.switches = switchesFor (feedOf b)) (holdover : q.feed.holdover = none)
    (switchover : q.feed.switchover = none) : s.Takes b r k t := by
  have feed := h.feed still
  exact ⟨(h.bay b).trans bay, (h.link b).trans link, (h.bay _).trans other, feed ▸ kind, by rw [h.fhu still, switches], feed ▸ holdover,
    feed ▸ switchover⟩

/-- The event of bay `b` that takes the feed from the reservoir and ends a holdover that was not exhausted. -/
theorem State.takes_lasting {s : State} (ready : Ready s) {b : Bay} (r : BayRec) (k : Link) {g : Front} (kin : s.toFront.Kin g)
    (log : g.log = s.log) (lasts : ∀ h, s.feed.holdover = some h → h.exhausted = false) : ∃ q,
    (s.toPower.takenBy b r k g).endHoldover .pack = q
    ∧ s.Goes q (s.after q) ∧ s.Takes b r k (s.after q) ∧ q.due = ⟨false, true, false, false, false⟩ ∧ g.Notes q.toFront ∧ q.hld = s.hld
    ∧ ∀ h, s.feed.holdover = some h →
        s.toFront.Logs q.toFront (.holdoverEnd .pack ((s.tmb.uptime - h.start) / 1000) h.planned s.hld.outcome) s.tmb := by
  obtain ⟨f, lean, causes, ends, notes, logs⟩ := Power.endHoldover_lasting (p := s.toPower.takenBy b r k g) lasts .pack
  have front : (s.toPower.takenBy b r k g).toFront = g := by cases b <;> rfl
  have hld : (s.toPower.takenBy b r k g).hld = s.hld := by cases b <;> rfl
  rw [front] at notes
  rw [front, hld, show g.tmb = s.tmb from kin.tmb] at logs
  obtain ⟨q, is⟩ : ∃ q : Power, q = { s.toPower.takenBy b r k g with
    toFront := f, feed := { (s.toPower.takenBy b r k g).feed with holdover := none, lean := lean, causes := causes } } := ⟨_, rfl⟩
  have due : q.due = ⟨false, true, false, false, false⟩ := by rw [is]; exact feed_due ready
  have goes := State.after_goes ready (q := q) (by rw [is]; exact kin.trans notes.kin) (by rw [is]; cases b <;> rfl) (by rw [due]; rfl)
  refine ⟨q, ends.trans is.symm, goes, State.takes_of_goes goes (by rw [is]; rfl) ?_ ?_ ?_ ?_ ?_ ?_ ?_, due, by rw [is]; exact notes,
    by rw [is]; exact hld, fun h runs => ?_⟩
  · rw [is]; cases b <;> rfl
  · rw [is]; cases b <;> rfl
  · rw [is]; cases b <;> rfl
  · rw [is]; rfl
  · rw [is]; rfl
  · rw [is]
  · rw [is]; rfl
  · rw [is]
    exact (logs h runs).earlier log

/-! ## The press -/

theorem Power.endCancelled_put (p : Power) (l : Loads) (b : Bay) (x : Release) : p.endCancelled l b x
    = (p.putBay b ((p.bay b).returned x p.tmb.uptime) ((p.link b).returned x p.tmb.uptime)
      (p.toFront.completeOwed (p.toFront.owes x) (releaseResult b x p.tmb.uptime .cancelled false))).enteredStandby l b := by
  unfold Power.endCancelled
  rw [p.takeFormer_eq, Power.putBay_completeRelease]
  rfl

theorem Front.completeOwed_beside (f : Front) {r : Release} (c : Completion) :
    (f.completeOwed (f.owes r) c).log = f.log ∧ (f.completeOwed (f.owes r) c).trc = f.trc
    ∧ keepsOutside (endRanges (f.owes r)) f.mem (f.completeOwed (f.owes r) c).mem := by
  obtain ⟨mem, same, kept⟩ := f.completeOwed_fields (r := r) rfl c
  rw [same]
  exact ⟨rfl, rfl, kept⟩

theorem BayState.former_shown (st : BayState) : st.shown.former = st.former := by cases st <;> rfl

/-- A bay that can start a release is listed in another state than one that cannot. -/
theorem BayState.shown_ne_of_former {st u : BayState} {f : FormerState} (able : st.former = some f) (unable : u.former = none) : u.shown ≠ st.shown := by
  intro same
  have former := congrArg BayState.former same
  rw [u.former_shown, st.former_shown, able, unable] at former
  cases former

/-- Settles O8. -/
theorem buttonStartsAndCancelsReleases : Obligations.ButtonStartsAndCancelsReleases := by
  refine ⟨⟨fun b f s ready apart starts away => ?_, fun b f s ready apart starts free not_feed isOpen => ?_⟩, fun b r s ready waits transfer => ?_,
    fun b r s ready waits ends => ⟨fun quiet => ?_, fun standby on_reservoir no_dc other known charged lasts => ?_⟩⟩
  · obtain ⟨k, begins⟩ := Power.startRelease_waits (p := s.toPower) apart away s.loads f .button
    have goes := s.after_put ready ((Power.pressButton_starts (p := s.toPower) starts s.loads).trans begins) (BayRec.listed_ne_of_state ?_)
    · exact ⟨_, (exec_buttonPress b s).trans (State.powerEvent_after ready.1 _), goes.bay.trans (startedBay_eq s b f .button).symm, goes.bayEvent⟩
    · exact BayState.shown_ne_of_former starts rfl
  · obtain ⟨k, begins⟩ := Power.startRelease_opens (p := s.toPower) apart free not_feed isOpen s.loads f .button
    have goes := s.after_put ready ((Power.pressButton_starts (p := s.toPower) starts s.loads).trans begins) (BayRec.listed_ne_of_state ?_)
    · exact ⟨_, (exec_buttonPress b s).trans (State.powerEvent_after ready.1 _), goes.bay, goes.bayEvent⟩
    · exact BayState.shown_ne_of_former starts rfl
  · have goes := s.after_put ready ((Power.pressButton_cancels (p := s.toPower) waits s.loads).trans (Power.cancelRelease_transfer transfer s.loads))
      (BayRec.listed_ne_of_state ?_)
    · exact ⟨_, (exec_buttonPress b s).trans (State.powerEvent_after ready.1 _), goes.bay, goes.bayEvent⟩
    · rw [waits]
      intro same
      have sub : SubState.transfer true = r.sub := congrArg Release.sub (BayState.releaseWait.inj same)
      rw [transfer] at sub
      cases sub
  · have cancelled := (Power.pressButton_cancels (p := s.toPower) waits s.loads).trans ((Power.cancelRelease_ends ends s.toPower s.loads).trans
      (Power.endCancelled_quiet quiet s.loads b))
    have goes := s.after_put ready cancelled (BayRec.listed_ne_of_state (BayRec.returned_changes waits r s.tmb.uptime))
    exact ⟨_, (exec_buttonPress b s).trans (State.powerEvent_after ready.1 _), goes.bay.trans (by rw [formerBay_eq]),
      goes.link.trans (formerLink_eq s b r).symm, goes.releaseEnds (.refl _), goes.releaseEvent⟩
  · have returned : (s.bay b).returned r s.tmb.uptime = { s.bay b with state := .standby } := by
      unfold BayRec.returned
      rw [standby]
    have able : ({ s.bay b with state := .standby } : BayRec).candidate = true := by
      unfold BayRec.candidate
      exact Bool.and_eq_true_iff.mpr ⟨known, decide_eq_true charged⟩
    have cancelled := (Power.pressButton_cancels (p := s.toPower) waits s.loads).trans ((Power.cancelRelease_ends ends s.toPower s.loads).trans
      (s.toPower.endCancelled_put s.loads b r))
    rw [show (s.toPower.bay b).returned r s.toPower.tmb.uptime = _ from returned,
      Power.putBay_enteredStandby_takes on_reservoir no_dc able other] at cancelled
    obtain ⟨log, trc, kept⟩ := s.toFront.completeOwed_beside (r := r) (releaseResult b r s.tmb.uptime .cancelled false)
    obtain ⟨q, is, goes, takes, due, notes, hld, logs⟩ := s.takes_lasting ready (b := b) { s.bay b with state := .standby }
      ((s.link b).returned r s.tmb.uptime) (s.toFront.completeOwed_kin (s.toFront.owes r) (releaseResult b r s.tmb.uptime .cancelled false)) log
      lasts
    have ended := (Front.completeOwed_ended (f := s.toFront) (r := r) rfl (releaseResult b r s.tmb.uptime .cancelled false)).later notes.inFlight
      notes.raised notes.step.kept (by simp [besideSlots, recordRanges, pageRange, PageId.offset, indexRange, missedRange, logRange])
    refine ⟨s.after q, ?_, takes.bay, takes.other, takes.kind, takes.switches, takes.holdover, takes.switchover, fun h runs => goes.logged (logs h runs),
      goes.releaseEnds ended, goes.causes.trans due, goes.hld.trans hld, goes.mot, ?_, goes.sfe, goes.timers, goes.event, goes.kept ?_⟩
    · rw [exec_buttonPress, State.powerEvent_after ready.1, cancelled]
      exact congrArg (fun p => Host.Outcome.next (s.after p)) is
    · rw [goes.trc]
      exact notes.tells.trc.trans trc
    · exact keepsOutside_trans (keepsOutside_mono (ss := passRanges ++ endRanges (owedBy s r)) kept fun _ mem => List.mem_append_right _ mem)
        (keepsOutside_mono notes.keptPass fun _ mem => List.mem_append_left _ mem)

end Sys2Proof.Machine
end

section
/-! PROOF. The takeover that a release of the feed bay asks for (R15, R18, R35, R37, R43); a second press in the same millisecond. -/

namespace Sys2Proof.Machine

open Sys2Proof.Safety

/-! ## A second press in one millisecond (R158) -/

/-- Bay A feeds with no source to take over, just after a press at 200 ms that ended NO_TAKEOVER: its refusal blink runs to 2,200 ms and the
plan's result is stored. A press at 200 ms ends NO_TAKEOVER again and leaves every record of the energy page as it is, so that the page is
not updated. -/
def refusedJustNow : State :=
  let s := Tests.drained (Tests.fed .empty false Tests.load)
  { s with bayA := { s.bayA with blinkEnd := some 2200 }, feed := { s.feed with lastPlan := planOf s }, assignment := s.toPower.assign }

theorem refusedJustNow_press : Tests.after (.buttonPress .A) refusedJustNow (fun t => decide (t.gens.energy = 2)) = true := by decide +kernel

/-- Refutes O13: where the press finds no source and changes nothing that the energy page shows, as a second press in the same millisecond
does, the page is not updated and its generation stands. -/
theorem not_buttonOnTheFeedPlansATakeover : ¬ Obligations.ButtonOnTheFeedPlansATakeover := by
  intro holds
  have no_source : sourceFor refusedJustNow .A true = none := by decide +kernel
  obtain ⟨t, runs, -, -, -, -, event, -⟩ :=
    (holds .A noFaults refusedJustNow ⟨rfl, rfl⟩ rfl rfl rfl (by decide +kernel)).2 no_source
  have stands := refusedJustNow_press
  unfold Tests.after at stands
  rw [runs] at stands
  have republished : t.gens.energy = refusedJustNow.gens.energy + 2 := congrArg (fun u : State => u.gens.energy) event
  rw [of_decide_eq_true stands] at republished
  exact absurd republished (by decide +kernel)

/-! ## The candidate list (R34, R37) -/

/-- FHU seeks a source as the statements say, in a state of the bays, FHU and HLD that agrees with `s` in what it reads. -/
theorem State.findSource_eq {s : State} {p : Power} {b : Bay} (feed : p.feed = { s.feed with pending := p.feed.pending })
    (other : p.bay (otherBay b) = s.bay (otherBay b)) (fhu : p.fhu = s.fhu) (hld : p.hld = s.hld) (reservoir : Bool) :
    p.findSource s.loads b reservoir
      = ({ p with feed := { p.feed with lastPlan := planAfter s b reservoir } }, sourceFor s b reservoir) := by
  have dc : p.feed.dcPresent = s.feed.dcPresent := by rw [feed]
  have last : p.feed.lastPlan = s.feed.lastPlan := by rw [feed]
  have plan : planResult p.feed p.fhu.eShutInForce (s.loads.lean p.hld.rProt) = planOf s := by
    rw [feed, fhu, hld]
    rfl
  have qualifies : (p.bay (otherBay b)).qualifies s.loads = byOther s b := by
    rw [other]
    rfl
  have kept : ({ p with feed := { p.feed with lastPlan := s.feed.lastPlan } } : Power) = p := by rw [← last]
  unfold Power.findSource sourceFor planAfter
  rw [dc, qualifies]
  cases s.feed.dcPresent
  · cases byOther s b
    · cases reservoir
      · exact congrArg (·, none) kept.symm
      · unfold Power.planReservoir Power.planTest
        rw [plan]
        simp only [Bool.false_eq_true, if_false, if_true, Bool.or_false, Bool.not_true, Bool.true_and, decide_eq_true_eq]
    · exact congrArg (·, some (feedOf (otherBay b))) kept.symm
  · exact congrArg (·, some FeedKind.dc) kept.symm

/-! ## The event of a bay with FHU's record changed -/

theorem State.after_feedGoes {s : State} (none_due : s.due = noCauses) {b : Bay} {r : BayRec} (changed : r.listed ≠ (s.bay b).listed)
    (l : Link) (f : Front) (feed : FeedRec) (fhu : FhuState) : ({ s with feed := feed, fhu := fhu } : State).BayGoes b r l f
      (s.after { s.toPower.putBay b r l f with feed := feed, fhu := fhu }) := by
  have due : (s.toBlocks.withPower { s.toPower.putBay b r l f with feed := feed, fhu := fhu }).due = noCauses := by cases b <;> exact none_due
  obtain ⟨mem, settled, kept, -⟩ := Blocks.settled_energy (old := s.toBlocks) due rfl
  have energy : energyChanged s.toBlocks ((s.toBlocks.withPower { s.toPower.putBay b r l f with feed := feed, fhu := fhu }).withPower
      (s.toBlocks.withPower { s.toPower.putBay b r l f with feed := feed, fhu := fhu }).toPower.reassign) = true :=
    energyChanged_of_bay changed (by cases b <;> rfl)
  rw [energy, if_pos rfl] at settled
  have charger := (s.toBlocks.withPower { s.toPower.putBay b r l f with feed := feed, fhu := fhu }).toPower.chargerSettled_reassign
  unfold State.after
  rw [settled]
  cases b
  · exact ⟨rfl, rfl, ⟨rfl, rfl⟩, rfl, rfl, charger, kept⟩
  · exact ⟨rfl, rfl, ⟨rfl, rfl⟩, rfl, rfl, charger, kept⟩

/-! ## The release of the feed bay -/

theorem Power.startRelease_transfers {s : State} {b : Bay} {f : FaultSet} {k : FeedKind} (feeding : (s.bay b).state = .feeding f)
    (kind : s.feed.kind = feedOf b) (none_flies : s.feed.switchover = none) (free : s.hld.demand b = false) (found : sourceFor s b true = some k)
    (o : Origin) : s.toPower.startRelease s.loads b .feeding o = { s.toPower.putBay b
        { s.bay b with blinkEnd := none, state := .releaseWait (transferRelease s f o) } (s.link b) s.toFront with
      feed := commanded s k .takeover (planAfter s b true), fhu := { s.fhu with switches := pathsTo b k } } := by
  have apart : s.toPower.noTarget b := fun w flies => absurd (none_flies.symm.trans flies) nofun
  have began := Power.beginRelease_put apart s.loads .feeding o
  rw [Link.under_of_polls rfl] at began
  have waits : (s.toPower.waitingBay b .feeding { s.toPower.newRelease b .feeding o with sub := .transfer false })
      = { s.bay b with blinkEnd := none, state := .releaseWait (transferRelease s f o) } := by
    unfold Power.waitingBay Power.newRelease transferRelease
    rw [show (s.toPower.bay b).state = .feeding f from feeding]
    rfl
  obtain ⟨q, is⟩ : ∃ q : Power, q = s.toPower.putBay b { s.bay b with blinkEnd := none, state := .releaseWait (transferRelease s f o) } (s.link b)
      s.toFront := ⟨_, rfl⟩
  have feed : q.feed = s.feed := by rw [is, Power.putBay_feed]
  have fhu : q.fhu = s.fhu := by rw [is, Power.putBay_fhu]
  have enters : s.toPower.startRelease s.loads b .feeding o = q.planTakeover s.loads b := by
    rw [Power.startRelease_eq, began, Power.putBay_hld, if_neg (by rw [free]; decide)]
    unfold Power.moveOn
    rw [Power.putBay_feed, if_pos kind]
    unfold Power.enterTransfer
    rw [Power.putBay_setState, Link.under_of_polls rfl]
    dsimp only
    rw [Power.putBay_feed, none_flies]
    refine (if_neg (by decide)).trans ?_
    rw [is, ← waits]
    rfl
  have sought := State.findSource_eq (s := s) (p := q) (b := b) (by rw [feed]) (by rw [is, Power.putBay_bay_other]) fhu
    (by rw [is, Power.putBay_hld]) true
  rw [enters]
  unfold Power.planTakeover
  rw [sought, found]
  unfold Power.startSwitchover commanded pathsTo
  dsimp only
  rw [feed, fhu, kind]
  subst is
  cases b <;> rfl

end Sys2Proof.Machine
end

section
/-! PROOF. RELEASE_BAY and CANCEL_RELEASE (R14 to R20, R161, R162). -/

namespace Sys2Proof.Machine

open Sys2Proof.Safety

/-! ## A request as an event of one bay -/

/-- The state as a request's owner finds it. -/
def State.taken (s : State) (p : Posting) (r : Request) : State := { s with toFront := s.toFront.takes p r }

theorem exec_taken_after {c : Instr} {p : Posting} {r : Request} {s : State} (h : Taken s p) (row : requestOf c = some (p, r))
    (sendable : c.wellFormed = true) {q : Power} (performs : (s.takes p r).perform p.slot r = (s.takes p r).withPower q) :
    exec c s = .next ((s.taken p r).after q) := by
  rw [exec_taken h row sendable, Blocks.runEvent_eq]
  rw [show (s.toBlocks.withFront (s.toFront.takes p r)).perform p.slot r = _ from performs]
  rfl

theorem State.taken_bay (s : State) (p : Posting) (r : Request) (b : Bay) : (s.taken p r).bay b = s.bay b := by cases b <;> rfl

theorem State.taken_ready {s : State} {p : Posting} (h : Taken s p) (r : Request) : Ready (s.taken p r) := h.1

/-- What such an event leaves of the state before the request was posted, `mem`, `list` and `summary` the host's side at its end. -/
structure State.Answers (s : State) (p : Posting) (b : Bay) (list : List InFlight) (summary : Word) (t : State) : Prop where
  other : t.bay (otherBay b) = s.bay (otherBay b) ∧ t.link (otherBay b) = s.link (otherBay b)
  charger : ChargerSettled t.toPower
  shape : t = { s with
    bayA := t.bayA, bayB := t.bayB, linkA := t.linkA, linkB := t.linkB, assignment := t.assignment, mem := t.mem
    feed := t.feed, fhu := t.fhu, gens := { s.gens with energy := s.gens.energy + 2 }, lastSlot := p.slot
    inFlight := list, summary := summary, pins := derivePins t.toBlocks }

theorem State.BayGoes.answers {s t : State} {g : Front} {feed : FeedRec} {fhu : FhuState} {b : Bay} {r : BayRec} {k : Link} {mem : Mem}
    {list : List InFlight} {summary : Word} {p : Posting} (h : ({ s with toFront := g, feed := feed, fhu := fhu } : State).BayGoes b r k
      { s.toFront with mem := mem, inFlight := list, summary := summary, lastSlot := p.slot } t) :
    s.Answers p b list summary t ∧ t.feed = feed ∧ t.fhu = fhu ∧ keepsOutside energyRanges mem t.mem := by
  have front := h.front
  have rest := h.rest
  have feed_same : t.feed = feed := congrArg (fun u : State => u.feed) rest
  have fhu_same : t.fhu = fhu := congrArg (fun u : State => u.fhu) rest
  refine ⟨⟨⟨h.other.1.trans (by cases b <;> rfl), h.other.2.trans (by cases b <;> rfl)⟩, h.charger, rest.trans ?_⟩, feed_same, fhu_same, h.kept⟩
  rw [front, feed_same, fhu_same]

theorem State.BayGoes.of_front {s t : State} {b : Bay} {r : BayRec} {k : Link} {f g : Front} (h : s.BayGoes b r k f t) (same : f = g) :
    s.BayGoes b r k g t := same ▸ h

theorem Blocks.doReleaseBay_starts {x : Blocks} {b : Bay} {f : FormerState} (starts : (x.bay b).state.former = some f) (slot : Fin 32) :
    x.doReleaseBay slot (bayCode b) = x.withPower (x.toPower.startRelease x.loads b f (.software slot)) := by
  unfold Blocks.doReleaseBay
  rw [bayOfCode_bayCode]
  dsimp only
  cases st : (x.bay b).state <;> rw [st] at starts
  case empty | opened | releaseWait => cases starts
  all_goals
    dsimp only
    rw [starts]

theorem Blocks.doCancelRelease_ends {x : Blocks} {b : Bay} {r : Release} (waits : (x.bay b).state = .releaseWait r) (slot : Fin 32) :
    x.doCancelRelease slot (bayCode b)
      = (x.withPower (x.toPower.cancelRelease x.loads b r)).finish slot (.plain .ok) := by
  unfold Blocks.doCancelRelease
  rw [bayOfCode_bayCode]
  dsimp only
  rw [waits]

/-! ## What is kept of the slots -/

/-- A slot's bytes stand while bytes of the energy page are written. -/
theorem readByte_slot_kept {m n : Mem} (kept : keepsOutside energyRanges m n) (i : Fin 32) : readByte n (slotAt i) = readByte m (slotAt i) := by
  refine kept _ fun r mem => ?_
  obtain ⟨above, below⟩ := slotAt_le i
  simp only [energyRanges, List.mem_singleton] at mem
  subst mem
  simp only [Range.holds, pageRange, PageId.offset]
  omega

/-- The results of other slots stand while one slot is written. -/
theorem answeredFlags_keptSlot {m n : Mem} {p : Posting} {kind flags : Byte} {code : ResultCode} {data : List Byte} {j : Fin 32}
    (h : answeredFlags m p kind flags code data) (kept : keepsOutside [slotRange j] m n) (other : p.slot ≠ j) :
    answeredFlags n p kind flags code data := by
  have away : slotAt p.slot + 64 ≤ slotAt j ∨ slotAt j + 64 ≤ slotAt p.slot := by
    have ne : p.slot.val ≠ j.val := fun same => other (Fin.ext same)
    unfold slotAt
    omega
  have apart (a k : Nat) (lo : slotAt p.slot ≤ a) (hi : a + k ≤ slotAt p.slot + 64) : readBytes n a k = readBytes m a k :=
    readBytes_of_keepsOutside kept a k fun r mem => by
      rw [List.mem_singleton] at mem
      subst mem
      simp only [slotRange]
      omega
  exact ⟨(apart _ 8 (Nat.le_refl _) (by omega)).trans h.1, (apart _ 12 (by omega) (by omega)).trans h.2⟩

/-! ## The slot that a CANCEL_RELEASE finds beside its own -/

section
variable {f : Front} {p : Posting} {x : Release}

theorem Front.owes_takes (other : x.origin ≠ .software p.slot) (r : Request) : (f.takes p r).owes x = f.owes x := by
  unfold Front.owes
  split
  · rfl
  · rename_i slot origin
    have ne : p.slot ≠ slot := fun same => other (by rw [same]; exact origin)
    split
    · unfold Front.entryOf
      rw [f.takes_inFlight, List.find?_append]
      simp [entryFor, ne]
    · rfl

theorem Front.owes_slot {e : InFlight} (owed : f.owes x = some e) (other : x.origin ≠ .software p.slot) : e.slot ≠ p.slot := by
  unfold Front.owes at owed
  split at owed
  · cases owed
  · rename_i slot origin
    split at owed
    · have same : e.slot = slot := by simpa using List.find?_some (p := fun x : InFlight => decide (x.slot = slot)) owed
      rw [same]
      exact fun own => other (by rw [← own]; exact origin)
    · cases owed

theorem Front.without_takes (other : x.origin ≠ .software p.slot) (r : Request) :
    (f.takes p r).without (f.owes x) = f.without (f.owes x) ++ [entryFor p r] := by
  cases owed : f.owes x with
  | none => exact f.takes_inFlight p r
  | some e =>
    have ne := Front.owes_slot owed other
    unfold Front.without
    dsimp only
    rw [f.takes_inFlight, List.filter_append]
    simp [entryFor, ne.symm]

theorem Front.without_flying (free : f.flying p.slot = false) (o : Option InFlight) :
    ({ f with inFlight := f.without o } : Front).flying p.slot = false := by
  cases o with
  | none => exact free
  | some e =>
    refine Bool.eq_false_iff.mpr fun flies => ?_
    obtain ⟨y, found⟩ := Option.isSome_iff_exists.mp flies
    have there : y ∈ f.inFlight := (List.mem_filter.mp (List.mem_of_find?_eq_some found)).1
    have none_there := List.find?_eq_none.mp (Front.entryOf_none free) y there
    exact none_there (List.find?_some (p := fun x : InFlight => decide (x.slot = p.slot)) found)

/-- The request's own completion after the end of a release of another slot. -/
theorem Front.takes_complete_after (free : f.flying p.slot = false) (r : Request) (o : Option InFlight) {g : Front}
    (list : g.inFlight = f.without o ++ [entryFor p r]) (c : Completion) :
    g.complete p.slot c = { g with
      mem := (g.complete p.slot c).mem, inFlight := f.without o, summary := doneSummary g.summary p }
    ∧ keepsOutside [slotRange p.slot] g.mem (g.complete p.slot c).mem
    ∧ answeredFlags (g.complete p.slot c).mem p r.kind (resultFlags c.clamped c.transferFailed) c.code c.data :=
  Front.takes_complete (f := { f with inFlight := f.without o }) (Front.without_flying free o) r
    (list.trans (Front.takes_inFlight { f with inFlight := f.without o } p r).symm) c

end

theorem Power.putBay_finish (x : Blocks) (p : Power) (b : Bay) (r : BayRec) (k : Link) (f : Front) (slot : Fin 32) (c : Completion) :
    (x.withPower (p.putBay b r k f)).finish slot c = x.withPower (p.putBay b r k (f.complete slot c)) := by cases b <;> rfl

theorem doneSummary_raises (w : Word) (p : Posting) : ∃ v, doneSummary w p = w ||| v := by
  unfold doneSummary
  split
  · exact ⟨_, rfl⟩
  · exact ⟨0, BitVec.or_zero.symm⟩

theorem Front.takes_with (f : Front) (p : Posting) (r : Request) (m : Mem) (l : List InFlight) (w : Word) :
    ({ f.takes p r with mem := m, inFlight := l, summary := w } : Front)
      = { f with mem := m, inFlight := l, summary := w, lastSlot := p.slot } := by rw [(f.takes_mem p r).1]

theorem Front.takes_summary (f : Front) (p : Posting) (r : Request) : (f.takes p r).summary = f.summary := by rw [(f.takes_mem p r).1]

/-- A release that the request starts owes the request's own slot. -/
theorem State.owes_started {s : State} {p : Posting} (free : s.flying p.slot = false) (r : Request) (b : Bay) (f : FormerState) :
    (s.toFront.takes p r).owes ((s.taken p r).toPower.newRelease b f (.software p.slot)) = some (entryFor p r) := by
  have none_flies := Front.entryOf_none free
  show (s.toFront.takes p r).entryOf p.slot = _
  unfold Front.entryOf
  rw [s.toFront.takes_inFlight, List.find?_append, none_flies]
  simp [entryFor]

/-- A release starts from a request as from a press. -/
theorem State.startedBay_taken (s : State) (p : Posting) (r : Request) (b : Bay) (f : FormerState) (o : Origin) :
    startedBay (s.taken p r) b f o = startedBay s b f o := by cases b <;> rfl

/-- A CANCEL_RELEASE whose cancellation gives bay `b` this record and link and completes the slot of `o`, where there is one. -/
theorem exec_cancels {s : State} {p : Posting} {b : Bay} {x : Release} (h : Taken s p) (waits : (s.bay b).state = .releaseWait x) {r : BayRec} {k : Link}
    {g : Front} {o : Option InFlight} {m : Mem}
    (cancels : (s.taken p (.cancelRelease (bayCode b))).toPower.cancelRelease s.loads b x
      = (s.taken p (.cancelRelease (bayCode b))).toPower.putBay b r k g)
    (changed : r.listed ≠ (s.bay b).listed)
    (ended : g = { s.toFront.takes p (.cancelRelease (bayCode b)) with
      mem := m, summary := summaryAfter s.summary o, inFlight := s.toFront.without o ++ [entryFor p (.cancelRelease (bayCode b))] })
    (written : keepsOutside (endRanges o) (s.toFront.takes p (.cancelRelease (bayCode b))).mem m) :
    ∃ t, exec (.cancelRelease p (bayCode b)) s = .next t ∧ answered t.mem p 2 .ok false []
      ∧ BayEventOver (slotRange p.slot :: endRanges o) b
          { s with lastSlot := p.slot, inFlight := listWithout s o, summary := doneSummary (summaryAfter s.summary o) p } t
      ∧ t.bay b = r ∧ t.link b = k ∧ t.inFlight = s.toFront.without o ∧ (∃ w, t.summary = summaryAfter s.summary o ||| w)
      ∧ ∃ m', keepsOutside [slotRange p.slot] m m' ∧ keepsOutside energyRanges m' t.mem := by
  obtain ⟨-, kept, -⟩ := s.toFront.takes_mem p (.cancelRelease (bayCode b))
  obtain ⟨completed, slot, result⟩ := Front.takes_complete_after h.2.2 (.cancelRelease (bayCode b)) o (g := g) (by rw [ended]) (.plain .ok)
  have runs : exec (.cancelRelease p (bayCode b)) s = .next ((s.taken p (.cancelRelease (bayCode b))).after
      ((s.taken p (.cancelRelease (bayCode b))).toPower.putBay b r k (g.complete p.slot (.plain .ok)))) := by
    refine exec_taken_after (c := .cancelRelease p (bayCode b)) h rfl rfl ?_
    refine (Blocks.doCancelRelease_ends (by rw [s.takes_bay]; exact waits) p.slot).trans ?_
    rw [show (s.takes p (.cancelRelease (bayCode b))).toPower.cancelRelease (s.takes p (.cancelRelease (bayCode b))).loads b x = _ from cancels]
    exact Power.putBay_finish ..
  have goes := State.after_put (State.taken_ready h (.cancelRelease (bayCode b))) (b := b) (r := r) (l := k)
    (f := g.complete p.slot (.plain .ok)) rfl (by rw [s.taken_bay]; exact changed)
  have front : g.complete p.slot (.plain .ok) = { s.toFront with
      mem := (g.complete p.slot (.plain .ok)).mem, inFlight := s.toFront.without o, summary := doneSummary (summaryAfter s.summary o) p
      lastSlot := p.slot } := by
    refine completed.trans ?_
    generalize (g.complete p.slot (.plain .ok)).mem = n
    rw [ended]
    exact Front.takes_with s.toFront p (.cancelRelease (bayCode b)) n _ _
  obtain ⟨answers, feed, fhu, page⟩ := State.BayGoes.answers (s := s) (goes.of_front front)
  obtain ⟨w, raised⟩ := doneSummary_raises (summaryAfter s.summary o) p
  have summary : ((s.taken p (.cancelRelease (bayCode b))).after ((s.taken p (.cancelRelease (bayCode b))).toPower.putBay b r k
      (g.complete p.slot (.plain .ok)))).summary = doneSummary (summaryAfter s.summary o) p := congrArg (fun u : State => u.summary) answers.shape
  have list : ((s.taken p (.cancelRelease (bayCode b))).after ((s.taken p (.cancelRelease (bayCode b))).toPower.putBay b r k
      (g.complete p.slot (.plain .ok)))).inFlight = s.toFront.without o := congrArg (fun u : State => u.inFlight) answers.shape
  have own : g.mem = m := by rw [ended]
  rw [own] at slot
  refine ⟨_, runs, ?_, ⟨?_, answers.other.1, answers.other.2, answers.charger, ?_⟩, goes.bay, goes.link, list, ⟨w, summary.trans raised⟩, _, slot, page⟩
  · exact answeredFlags_kept result page (by simp [besideSlots, energyRanges, pageRange, PageId.offset])
  · have shape := answers.shape
    rw [feed, fhu] at shape
    refine shape.trans ?_
    rw [listWithout_eq]
  · exact keepsOutside_trans (keepsOutside_mono kept (by simp)) (keepsOutside_trans (keepsOutside_mono written (by simp +contextual))
      (keepsOutside_trans (keepsOutside_mono slot (by simp)) (keepsOutside_mono page (by simp [energyRanges]))))

/-- Settles O45. -/
theorem releaseRequestsStartAndCancel : Obligations.ReleaseRequestsStartAndCancel := by
  refine ⟨fun p b s h apart => ?_, fun p b x s h waits other => ?_⟩
  · intro after waiting
    obtain ⟨shape, kept, taken⟩ := s.toFront.takes_mem p (.releaseBay (bayCode b))
    have ready := State.taken_ready h (.releaseBay (bayCode b))
    have bay := s.taken_bay p (.releaseBay (bayCode b)) b
    have runs {f : FormerState} (starts : (s.bay b).state.former = some f) : exec (.releaseBay p (bayCode b)) s = .next
        ((s.taken p (.releaseBay (bayCode b))).after ((s.taken p (.releaseBay (bayCode b))).toPower.startRelease s.loads b f (.software p.slot))) :=
      exec_taken_after (c := .releaseBay p (bayCode b)) h rfl rfl (Blocks.doReleaseBay_starts (by rw [s.takes_bay]; exact starts) p.slot)
    have waits {t : State} {feed : FeedRec} {fhu : FhuState} {r : BayRec} {k : Link}
        (goes : ({ s.taken p (.releaseBay (bayCode b)) with feed := feed, fhu := fhu } : State).BayGoes b r k
          (s.toFront.takes p (.releaseBay (bayCode b))) t) (next : exec (.releaseBay p (bayCode b)) s = .next t) :
        waiting t ∧ t.bay b = r ∧ t.feed = feed ∧ t.fhu = fhu := by
      rw [shape] at goes
      obtain ⟨answers, feed_same, fhu_same, page⟩ := State.BayGoes.answers (s := s) goes
      exact ⟨⟨⟨next, answers.other.1, answers.other.2, answers.charger, answers.shape,
        keepsOutside_trans (keepsOutside_mono kept (by simp)) (keepsOutside_mono page (by simp [energyRanges]))⟩,
        (readByte_slot_kept page p.slot).trans taken⟩, goes.bay, feed_same, fhu_same⟩
    refine ⟨fun f starts away => ?_, fun f k feeding kind none_flies free found => ?_, fun f starts free not_feed isOpen => ?_⟩
    · obtain ⟨k, begins⟩ := Power.startRelease_waits (p := (s.taken p (.releaseBay (bayCode b))).toPower) (b := b) apart
        (by rw [show (s.taken p (.releaseBay (bayCode b))).toPower.bay b = s.bay b from bay]; exact away) s.loads f (.software p.slot)
      have goes := State.after_put ready begins (BayRec.listed_ne_of_state (BayState.shown_ne_of_former (by rw [bay]; exact starts) rfl))
      obtain ⟨waiting, record, feed, fhu⟩ := waits goes (runs starts)
      exact ⟨_, waiting, record.trans (State.startedBay_taken s p _ b f _), feed, fhu⟩
    · have begins := Power.startRelease_transfers (s := s.taken p (.releaseBay (bayCode b))) (b := b) (f := f) (k := k) (by rw [bay]; exact feeding) kind
        none_flies free (by cases b <;> exact found) (.software p.slot)
      have goes := State.after_feedGoes (s := s.taken p (.releaseBay (bayCode b))) h.1.2 (b := b)
        (r := { s.bay b with blinkEnd := none, state := .releaseWait (transferRelease s f (.software p.slot)) })
        (BayRec.listed_ne_of_state (BayState.shown_ne_of_former (f := .feeding) (by rw [bay, feeding]; rfl) rfl)) (s.link b)
        (s.toFront.takes p (.releaseBay (bayCode b))) (commanded s k .takeover (planAfter s b true)) { s.fhu with switches := pathsTo b k }
      obtain ⟨waiting, record, feed, fhu⟩ := waits goes (by
        rw [runs (f := .feeding) (by rw [feeding]; rfl)]
        refine congrArg (fun q => Host.Outcome.next ((s.taken p (.releaseBay (bayCode b))).after q)) (begins.trans ?_)
        cases b <;> rfl)
      exact ⟨_, waiting, record, feed, fhu⟩
    · obtain ⟨k, begins⟩ := Power.startRelease_opens (p := (s.taken p (.releaseBay (bayCode b))).toPower) (b := b) apart free not_feed
        (by rw [show (s.taken p (.releaseBay (bayCode b))).toPower.bay b = s.bay b from bay]; exact isOpen) s.loads f (.software p.slot)
      have goes := State.after_put ready begins (BayRec.listed_ne_of_state (BayState.shown_ne_of_former (by rw [bay]; exact starts) rfl))
      rw [show (s.taken p (.releaseBay (bayCode b))).toPower.toFront = s.toFront.takes p (.releaseBay (bayCode b)) from rfl,
        s.owes_started h.2.2] at goes
      obtain ⟨completed, slot, result⟩ := Front.takes_complete h.2.2 (.releaseBay (bayCode b)) (g := s.toFront.takes p (.releaseBay (bayCode b))) rfl
        (releaseResult b ((s.taken p (.releaseBay (bayCode b))).toPower.newRelease b f (.software p.slot)) s.tmb.uptime .ok false)
      rw [Front.takes_with, Front.takes_summary] at completed
      have goes := goes.of_front completed
      obtain ⟨answers, feed_same, fhu_same, page⟩ := State.BayGoes.answers (s := s) goes
      refine ⟨_, ⟨runs starts, answers.other.1, answers.other.2, answers.charger, answers.shape, keepsOutside_trans (keepsOutside_mono kept (by simp))
        (keepsOutside_trans (keepsOutside_mono slot (by simp)) (keepsOutside_mono page (by simp [energyRanges])))⟩, feed_same, fhu_same,
        goes.bay.trans (by cases b <;> rfl), ?_⟩
      obtain ⟨head, data⟩ := answeredFlags_kept result page (by simp [besideSlots, energyRanges, pageRange, PageId.offset])
      refine ⟨head, data.trans ?_⟩
      show padTo 12 (releaseData b _ s.tmb.uptime) = _
      unfold releaseData Power.newRelease
      rw [show s.tmb.uptime - (s.taken p (.releaseBay (bayCode b))).toPower.tmb.uptime = 0 from Nat.sub_self _]
      rfl
  · have bay : (s.taken p (.cancelRelease (bayCode b))).toPower.bay b = s.bay b := s.taken_bay p _ b
    have link : (s.taken p (.cancelRelease (bayCode b))).toPower.link b = s.link b := by cases b <;> rfl
    refine ⟨fun ends quiet => ?_, fun transfer => ?_⟩
    · have cancels := (Power.cancelRelease_ends ends (s.taken p (.cancelRelease (bayCode b))).toPower s.loads).trans
        (Power.endCancelled_quiet (p := (s.taken p (.cancelRelease (bayCode b))).toPower) quiet s.loads b)
      have owed := Front.owes_takes (f := s.toFront) other (.cancelRelease (bayCode b))
      rw [bay, link, show (s.taken p (.cancelRelease (bayCode b))).toPower.toFront.owes x = s.toFront.owes x from owed] at cancels
      obtain ⟨m, ended, written⟩ := (s.toFront.takes p (.cancelRelease (bayCode b))).completeOwed_fields owed
        (releaseResult b x s.tmb.uptime .cancelled false)
      rw [Front.without_takes other, Front.takes_summary] at ended
      obtain ⟨-, done⟩ := Front.completeOwed_ended owed (releaseResult b x s.tmb.uptime .cancelled false)
      rw [ended] at done
      obtain ⟨t, runs, answer, event, record, tlink, list, ⟨w, raised⟩, m', slot, page⟩ :=
        exec_cancels h waits cancels (BayRec.listed_ne_of_state (BayRec.returned_changes waits x s.tmb.uptime)) ended written
      refine ⟨t, ⟨runs, answer, event⟩, record.trans (by rw [formerBay_eq]; rfl), tlink.trans (by rw [formerLink_eq]; rfl),
        list.trans (listWithout_eq s _).symm, fun e owes => ?_⟩
      obtain ⟨notified, result⟩ := done e owes
      have away : (postingOf e).slot ≠ p.slot := Front.owes_slot owes other
      refine ⟨fun notify => Front.Raises.up ⟨w, raised⟩ (notified notify), ?_⟩
      exact answeredFlags_kept (answeredFlags_keptSlot result slot away) page (by simp [besideSlots, energyRanges, pageRange, PageId.offset])
    · have cancels := Power.cancelRelease_transfer (p := (s.taken p (.cancelRelease (bayCode b))).toPower) (b := b) transfer s.loads
      rw [bay, link] at cancels
      have changed : BayState.shown (.releaseWait { x with sub := .transfer true }) ≠ (s.bay b).state.shown := by
        rw [waits]
        intro same
        have sub : SubState.transfer true = x.sub := congrArg Release.sub (BayState.releaseWait.inj same)
        rw [transfer] at sub
        cases sub
      have none_ended : (s.toFront.takes p (.cancelRelease (bayCode b))) = { s.toFront.takes p (.cancelRelease (bayCode b)) with
          mem := (s.toFront.takes p (.cancelRelease (bayCode b))).mem, summary := summaryAfter s.summary none
          inFlight := s.toFront.without none ++ [entryFor p (.cancelRelease (bayCode b))] } := by
        rw [show s.toFront.without none ++ _ = _ from (s.toFront.takes_inFlight p (.cancelRelease (bayCode b))).symm,
          show summaryAfter s.summary none = _ from (s.toFront.takes_summary p (.cancelRelease (bayCode b))).symm]
      obtain ⟨t, runs, answer, event, record, tlink, -⟩ := exec_cancels (o := none) h waits cancels (BayRec.listed_ne_of_state changed) none_ended
        (keepsOutside_refl _ _)
      exact ⟨t, ⟨runs, answer, event⟩, record, tlink⟩

end Sys2Proof.Machine
end

section
/-! PROOF. The pack link: transactions, the identity, failed polls (R5, R7, R9 to R13). -/

namespace Sys2Proof.Machine

open Sys2Proof.Safety

/-! ## Events of the link alone -/

theorem State.after_setLink {s : State} (ready : Ready s) (charger : ChargerSettled s.toPower) (b : Bay) (l : Link) :
    s.after (s.toPower.setLink b l) = s.withBlocks (s.toBlocks.withPower (s.toPower.setLink b l)) := by
  unfold State.after
  rw [Blocks.settled_of_same]
  · cases b <;> exact ready.2
  · cases b <;> exact charger
  · rfl
  · cases b <;> exact energyChanged_of_same rfl rfl rfl rfl fun _ => rfl

/-- An event whose own changes are those of the link. -/
theorem State.powerEvent_setLink {s : State} (ready : Ready s) (charger : ChargerSettled s.toPower) {b : Bay} {l : Link} {op : Power → Loads → Power}
    (does : op s.toPower s.loads = s.toPower.setLink b l) :
    (s.whilePowered fun x => x.powerEvent op) = .next (s.withBlocks (s.toBlocks.withPower (s.toPower.setLink b l))) := by
  rw [State.powerEvent_after ready.1, does, s.after_setLink ready charger]

theorem byteSum_eq (bytes : BitVec 136) (n : Nat) : byteSum bytes n = ((List.range n).map (blockByte bytes)).sum := by
  induction n with
  | zero => rfl
  | succ n ih => rw [byteSum, ih, List.range_succ, List.map_append, List.sum_append, List.map_singleton, List.sum_singleton]

theorem checksumGood_iff (bytes : BitVec 136) : checksumGood bytes = true ↔ ((List.range 17).map (blockByte bytes)).sum % 256 = 0 := by
  unfold checksumGood
  rw [byteSum_eq, decide_eq_true_eq]

section
variable {p : Power} {b : Bay} {bytes : BitVec 136} {t0 : Nat}

/-- A reply in time with a good checksum (R5). -/
theorem Power.linkReply_good (started : (p.link b).activity.startedAt = some t0) (in_time : p.tmb.uptime ≤ t0 + 10) (good : checksumGood bytes = true)
    (l : Loads) : p.linkReply l b bytes = p.goodTransaction l b (blockOf bytes) := by
  unfold Power.linkReply
  rw [started]
  dsimp only
  rw [if_neg (by omega), if_pos good]

theorem Power.linkReply_bad (started : (p.link b).activity.startedAt = some t0) (in_time : p.tmb.uptime ≤ t0 + 10) (bad : checksumGood bytes ≠ true)
    (l : Loads) : p.linkReply l b bytes = p.badTransaction l b := by
  unfold Power.linkReply
  rw [started]
  dsimp only
  rw [if_neg (by omega), if_neg bad]

theorem Power.linkTimeout_due (started : (p.link b).activity.startedAt = some t0) (due : t0 + 10 ≤ p.tmb.uptime) (l : Loads) :
    p.linkTimeout l b = p.badTransaction l b := by
  unfold Power.linkTimeout
  rw [started]
  exact if_pos due

end

section
variable {p : Power} {b : Bay} {k t0 : Nat}

theorem Power.badTransaction_ident {again : Bool} (reads : (p.link b).activity = .identRead k again t0) (l : Loads) : p.badTransaction l b
    = p.setLink b { p.link b with activity := if again then .identWait k (p.tmb.uptime + 100) else .identRead k true p.tmb.uptime } := by
  unfold Power.badTransaction
  rw [reads]
  rfl

theorem Power.badTransaction_poll (reads : (p.link b).activity = .pollRead k false t0) (l : Loads) :
    p.badTransaction l b = p.setLink b { p.link b with activity := .pollRead k true p.tmb.uptime } := by
  unfold Power.badTransaction
  rw [reads]
  rfl

theorem Power.badTransaction_again (reads : (p.link b).activity = .pollRead k true t0) (l : Loads) : p.badTransaction l b = p.pollBad l b := by
  unfold Power.badTransaction
  rw [reads]
  rfl

theorem Power.goodTransaction_ident {again : Bool} (reads : (p.link b).activity = .identRead k again t0) (other : k ≠ 2) (l : Loads) (d : BitVec 128) :
    p.goodTransaction l b d = p.identBlock l b k d := by
  unfold Power.goodTransaction
  rw [reads]
  exact if_neg (by simp [rangeBroken, other])

theorem Power.goodTransaction_poll {again : Bool} (reads : (p.link b).activity = .pollRead k again t0) (other : k ≠ 2) (l : Loads) (d : BitVec 128) :
    p.goodTransaction l b d = p.pollGood l b (decodePackState (p.link b).block2 d none) := by
  unfold Power.goodTransaction
  rw [reads]
  refine (if_neg (by simp [rangeBroken, other])).trans ?_
  unfold Power.pollBlock
  exact if_neg other

theorem Power.identRetry_due {u : Nat} (waits : (p.link b).activity = .identWait k u) (due : u ≤ p.tmb.uptime) :
    p.identRetry b = p.setLink b { p.link b with activity := .identRead k false p.tmb.uptime } := by
  unfold Power.identRetry
  rw [waits]
  exact if_pos due

theorem Power.pollDue_idle {u : Nat} (idle : (p.link b).activity = .idle) (next : (p.link b).pollAt = some u) (due : u ≤ p.tmb.uptime) :
    p.pollDue b = p.setLink b { p.link b with activity := .pollRead 2 false p.tmb.uptime, pollAt := some (u + 250) } := by
  unfold Power.pollDue
  dsimp only
  rw [next]
  dsimp only
  rw [if_pos due, if_pos idle]

end

/-! ## The identity (R7) -/

theorem Identity.valid_iff (i : Identity) :
    i.valid = true ↔ within 1 6 i.cells ∧ within 1000 200000 i.designCapacity ∧ within 5000 150000 i.packMax := by
  simp only [Identity.valid, within, Bool.and_eq_true, decide_eq_true_eq, and_assoc]

section
variable {p : Power} {b : Bay} {again : Bool} {t0 : Nat}

theorem Power.identBlock_one_eq (p : Power) (b : Bay) (l : Loads) (d : BitVec 128) : p.identBlock l b 1 d
    = (p.putBay b (p.bay b) { p.link b with block1 := d } p.toFront).judgeIdentity l b (decodeIdentity (p.link b).block0 d) := by
  exact congrArg (fun q : Power => q.judgeIdentity l b (decodeIdentity (p.link b).block0 d)) (p.setLink_eq b _)

theorem Power.identBlock_valid {d : BitVec 128} (valid : (decodeIdentity (p.link b).block0 d).valid = true) (l : Loads) : p.identBlock l b 1 d
    = p.putBay b { p.bay b with identity := some (decodeIdentity (p.link b).block0 d) }
      { p.link b with block1 := d, activity := .identRead 2 false p.tmb.uptime } p.toFront := by
  rw [p.identBlock_one_eq]
  unfold Power.judgeIdentity
  rw [Power.putBay_setBay, Power.putBay_bay]
  dsimp only
  rw [if_pos valid]
  unfold Power.setActivity
  rw [Power.putBay_setLink, Power.putBay_link]
  cases b <;> rfl

/-- `toFault` over a bay that is no switchover's target. -/
theorem Power.putBay_toFault {r : BayRec} (apart : r.state.isStandby = true → p.noTarget b) (k : Link) (f : Front) (l : Loads) (x : FaultReason) :
    (p.putBay b r k f).toFault l b x = p.putBay b { r with state := .fault x } (k.under (.fault x)) (f.makeRecord (.packFault b x r.serial)) := by
  rw [Power.toFault_apart (p := p.putBay b r k f) (b := b) (by rw [Power.putBay_bay, Power.putBay_feed]; exact apart), Power.putBay_bay, Power.putBay_link,
    Power.putBay_toFront]
  cases b <;> rfl

theorem Power.identBlock_invalid {d : BitVec 128} {u : Nat} (seated : (p.bay b).state = .seated u)
    (invalid : (decodeIdentity (p.link b).block0 d).valid ≠ true) (l : Loads) : p.identBlock l b 1 d
    = p.putBay b { p.bay b with identity := some (decodeIdentity (p.link b).block0 d), state := .fault .ident }
      { p.link b with block1 := d, activity := .idle, pollAt := none }
      (p.toFront.makeRecord (.packFault b .ident (decodeIdentity (p.link b).block0 d).serial)) := by
  rw [p.identBlock_one_eq]
  unfold Power.judgeIdentity
  rw [Power.putBay_setBay, Power.putBay_bay]
  dsimp only
  rw [if_neg invalid, Power.putBay_toFault (by rw [seated]; nofun), Link.under_fault]
  rfl

end

/-! ## The lost link (R9, R11 to R13) -/

section
variable {p : Power} {b : Bay}

theorem Power.putBay_noteFormer {x : Release} {y : Standing} (no_pack : x.former ≠ .fault .pack) (other : x.former ≠ .fault y.reason) (r : BayRec)
    (k : Link) (f : Front) : (p.putBay b r k f).noteFormer b x y = p.putBay b { r with state := .releaseWait { x with former := .fault y.reason } }
      (k.under (.releaseWait { x with former := .fault y.reason })) (f.makeRecord (.packFault b y.reason r.serial)) := by
  unfold Power.noteFormer
  rw [if_neg (not_or.mpr ⟨no_pack, other⟩), Power.putBay_setState, Power.putBay_packFault]
  rfl

/-- What a finding makes of the link of a bay in RELEASE_WAIT. -/
theorem Link.under_former (l : Link) (x : Release) (y : FaultReason) : l.under (.releaseWait { x with former := .fault y })
    = if y = .thermal then l else { l with activity := .idle, pollAt := none } := by
  unfold Link.under BayState.polls
  cases y <;> rfl

theorem Power.pollBad_few (few : (p.bay b).failedPolls < 2) (l : Loads) : p.pollBad l b = p.putBay b
    { p.bay b with failedPolls := (p.bay b).failedPolls + 1 } { p.link b with activity := .idle } p.toFront := by
  unfold Power.pollBad
  dsimp only
  rw [if_neg (by omega), if_pos (by omega), p.setBay_eq, Power.putBay_setLink]

theorem Power.pollBad_third (third : (p.bay b).failedPolls = 2) (l : Loads) : p.pollBad l b = (p.putBay b
    { p.bay b with failedPolls := 3 } { p.link b with activity := .idle } p.toFront).linkLost l b := by
  unfold Power.pollBad
  dsimp only
  rw [if_pos third, if_pos (by omega), p.setBay_eq, Power.putBay_setLink, third]

theorem Power.putBay_linkLost_faults {r : BayRec} (not_feed : p.feed.kind ≠ feedOf b)
    (bay : r.state = .standby ∧ p.noTarget b ∨ r.state = .fault .thermal) (k : Link) (f : Front) (l : Loads) :
    (p.putBay b r k f).linkLost l b = p.putBay b { r with state := .fault .link } { k with activity := .idle, pollAt := none }
      (f.makeRecord (.packFault b .link r.serial)) := by
  have apart : r.state.isStandby = true → p.noTarget b := fun standby => by
    rcases bay with ⟨-, away⟩ | thermal
    · exact away
    · rw [thermal] at standby
      cases standby
  have faults : (p.putBay b r k f).linkLost l b = (p.putBay b r k f).toFault l b .link := by
    unfold Power.linkLost
    rw [Power.putBay_feed, if_neg not_feed, Power.putBay_bay]
    rcases bay with ⟨standby, -⟩ | thermal
    · rw [standby]
    · rw [thermal]
  rw [faults, Power.putBay_toFault apart, Link.under_fault]
  rfl

theorem Power.putBay_linkLost_waiting {r : BayRec} {x : Release} (not_feed : p.feed.kind ≠ feedOf b) (waits : r.state = .releaseWait x)
    (no_pack : x.former ≠ .fault .pack) (no_link : x.former ≠ .fault .link) (k : Link) (f : Front) (l : Loads) :
    (p.putBay b r k f).linkLost l b = p.putBay b { r with state := .releaseWait { x with former := .fault .link } }
      { k with activity := .idle, pollAt := none } (f.makeRecord (.packFault b .link r.serial)) := by
  unfold Power.linkLost
  rw [Power.putBay_feed, if_neg not_feed, Power.putBay_bay, waits]
  dsimp only
  rw [Power.putBay_noteFormer (y := .link) no_pack no_link, show Standing.link.reason = .link from rfl, Link.under_former]
  rfl

end

/-- Settles O11. -/
theorem linkTransactionsFollowTheirOrder : Obligations.LinkTransactionsFollowTheirOrder := by
  intro b s ready charger only sum
  have bad_sum {bytes : BitVec 136} (bad : sum bytes % 256 ≠ 0) : checksumGood bytes ≠ true := fun good => bad ((checksumGood_iff bytes).mp good)
  refine ⟨fun bytes t0 again reads in_time good => ?_, fun bytes k t0 reads in_time bad => ?_, fun k t0 reads due => ?_, fun k t0 reads due => ?_,
    fun k u waits due => ?_, fun u idle next due => ?_, fun bytes d t0 again seated reads in_time good => ?_, fun k t0 reads due => ?_⟩
  · refine State.powerEvent_setLink ready charger ?_
    rw [Power.linkReply_good (p := s.toPower) (by rw [show (s.toPower.link b).activity = _ from reads]; rfl) in_time ((checksumGood_iff bytes).mpr good),
      Power.goodTransaction_ident reads (by decide)]
    rfl
  · refine State.powerEvent_setLink ready charger ?_
    rw [Power.linkReply_bad (p := s.toPower) (by rw [show (s.toPower.link b).activity = _ from reads]; rfl) in_time (bad_sum bad),
      Power.badTransaction_ident reads]
    rfl
  · refine State.powerEvent_setLink ready charger ?_
    rw [Power.linkTimeout_due (p := s.toPower) (by rw [show (s.toPower.link b).activity = _ from reads]; rfl) due, Power.badTransaction_poll reads]
  · refine State.powerEvent_setLink ready charger ?_
    rw [Power.linkTimeout_due (p := s.toPower) (by rw [show (s.toPower.link b).activity = _ from reads]; rfl) due, Power.badTransaction_ident reads]
    rfl
  · exact State.powerEvent_setLink ready charger (Power.identRetry_due (p := s.toPower) waits due)
  · exact State.powerEvent_setLink ready charger (Power.pollDue_idle (p := s.toPower) idle next due)
  · intro i read valid
    have reply : s.toPower.linkReply s.loads b bytes = s.toPower.identBlock s.loads b 1 (blockOf bytes) := by
      rw [Power.linkReply_good (p := s.toPower) (by rw [show (s.toPower.link b).activity = _ from reads]; rfl) in_time
        ((checksumGood_iff bytes).mpr good), Power.goodTransaction_ident reads (by decide)]
    refine ⟨fun holds differs => ?_, fun fails => ?_⟩
    · have goes := s.after_put ready (reply.trans (Power.identBlock_valid ((Identity.valid_iff i).mpr holds) s.loads))
        (BayRec.listed_ne BayRec.identity (fun _ _ => rfl) (fun same => differs same.symm))
      exact ⟨_, (exec_packLinkReply b bytes s).trans (State.powerEvent_after ready.1 _), goes.bay, goes.link, goes.bayEvent⟩
    · have goes := s.after_put ready (reply.trans (Power.identBlock_invalid seated (fun holds => fails ((Identity.valid_iff i).mp holds)) s.loads))
        (BayRec.listed_ne_of_state (by rw [seated]; nofun))
      exact ⟨_, (exec_packLinkReply b bytes s).trans (State.powerEvent_after ready.1 _), goes.bay, goes.link, goes.logged (s.toFront.makeRecord_logs _),
        goes.recordEvent (s.toFront.makeRecord_notes _)⟩
  · have timeout : s.toPower.linkTimeout s.loads b = s.toPower.pollBad s.loads b := by
      rw [Power.linkTimeout_due (p := s.toPower) (by rw [show (s.toPower.link b).activity = _ from reads]; rfl) due, Power.badTransaction_again reads]
    refine ⟨fun few => ?_, fun third not_feed => ?_⟩
    · have goes := s.after_put ready (timeout.trans (Power.pollBad_few few s.loads))
        (BayRec.listed_ne BayRec.failedPolls (fun _ _ => rfl) (fun same : (s.bay b).failedPolls + 1 = (s.bay b).failedPolls => by omega))
      exact ⟨_, (exec_packLinkTimeout b s).trans (State.powerEvent_after ready.1 _), goes.bay, goes.link, goes.bayEvent⟩
    · intro lost
      have loses {st : BayState} (put : s.toPower.linkTimeout s.loads b = s.toPower.putBay b { s.bay b with state := st, failedPolls := 3 }
          { s.link b with activity := .idle, pollAt := none } (s.toFront.makeRecord (.packFault b .link (s.bay b).serial))) : lost st := by
        have goes := s.after_put ready put
          (BayRec.listed_ne BayRec.failedPolls (fun _ _ => rfl) (fun same : 3 = (s.bay b).failedPolls => by omega))
        exact ⟨_, (exec_packLinkTimeout b s).trans (State.powerEvent_after ready.1 _), goes.bay, goes.link,
          goes.logged (s.toFront.makeRecord_logs _), goes.recordEvent (s.toFront.makeRecord_notes _)⟩
      refine ⟨fun bay => loses ?_, fun r waits no_pack no_link => loses ?_⟩
      · exact timeout.trans ((Power.pollBad_third third s.loads).trans (Power.putBay_linkLost_faults (r := { s.bay b with failedPolls := 3 }) not_feed bay _ _ s.loads))
      · exact timeout.trans ((Power.pollBad_third third s.loads).trans
          (Power.putBay_linkLost_waiting (p := s.toPower) (r := { s.bay b with failedPolls := 3 }) not_feed waits no_pack no_link _ _ s.loads))

end Sys2Proof.Machine
end

section
/-! PROOF. The last block of an identification and of a poll (R8 to R13, R30, R45, R47). -/

namespace Sys2Proof.Machine

open Sys2Proof.Safety

/-! ## The end of an identification (R8) -/

theorem PackState.faulty_iff (k : PackState) : k.faulty = true ↔ k.faultFlags &&& 0x0F ≠ 0 := by simp [PackState.faulty]

/-- The bay record and link that hold all four blocks. -/
def BayRec.filled (r : BayRec) (k : PackState) : BayRec := { r with packState := some k, failedPolls := 0 }
def Link.polling (l : Link) (now : Nat) : Link := { l with activity := .idle, pollAt := some (now + 250) }

section
variable {p : Power} {b : Bay} {k : PackState}

theorem Power.fillPackState_put (p : Power) (b : Bay) (k : PackState) :
    p.fillPackState b k = p.putBay b ((p.bay b).filled k) ((p.link b).polling p.tmb.uptime) p.toFront := by
  unfold Power.fillPackState BayRec.filled Link.polling
  rw [p.setBay_eq, Power.putBay_setLink]

theorem Power.identified_sick {u : Nat} (seated : (p.bay b).state = .seated u) (sick : k.faulty = true) (l : Loads) : p.identified l b k = p.putBay b
    { (p.bay b).filled k with state := .fault .pack } { p.link b with activity := .idle, pollAt := none }
    (p.toFront.makeRecord (.packFault b .pack (p.bay b).serial)) := by
  rw [p.identified_eq, p.fillPackState_put]
  rw [if_pos sick, Power.putBay_toFault (by rw [show ((p.bay b).filled k).state = .seated u from seated]; nofun), Link.under_fault]
  rfl

theorem Power.identified_hot {u : Nat} (seated : (p.bay b).state = .seated u) (well : ¬ k.faulty = true) (hot : 600 ≤ k.temperature) (l : Loads) :
    p.identified l b k = p.putBay b { (p.bay b).filled k with state := .fault .thermal } ((p.link b).polling p.tmb.uptime)
      (p.toFront.makeRecord (.packFault b .thermal (p.bay b).serial)) := by
  rw [p.identified_eq, p.fillPackState_put]
  rw [if_neg well, if_pos hot, Power.putBay_toFault (by rw [show ((p.bay b).filled k).state = .seated u from seated]; nofun), Link.under_fault]
  rfl

theorem Power.identified_standby (well : ¬ k.faulty = true) (cold : k.temperature < 600) (on_source : p.feed.kind ≠ .reservoir)
    (none_pends : p.feed.pending = ⟨false, false⟩) (l : Loads) : p.identified l b k = p.putBay b { (p.bay b).filled k with state := .standby }
      ((p.link b).polling p.tmb.uptime) p.toFront := by
  rw [p.identified_eq, p.fillPackState_put]
  rw [if_neg well, if_neg (by omega), Power.putBay_feed, if_neg (fun both => on_source both.1), Power.putBay_setState, Link.under_of_polls rfl]
  exact Power.enteredStandby_quiet (by rw [Power.putBay_feed]; exact fun _ => ⟨on_source, none_pends⟩) l

theorem Power.identified_feeds (well : ¬ k.faulty = true) (cold : k.temperature < 600) (on_reservoir : p.feed.kind = .reservoir) (charged : 5 ≤ k.soc)
    (l : Loads) : p.identified l b k
      = (p.takenBy b ((p.bay b).filled k) ((p.link b).polling p.tmb.uptime) p.toFront).endHoldover .pack := by
  rw [p.identified_eq, p.fillPackState_put]
  rw [if_neg well, if_neg (by omega), Power.putBay_feed, if_pos ⟨on_reservoir, charged⟩,
    Power.moveFeed_from (feedOf_ne_reservoir b) (by rw [Power.putBay_feed]; exact on_reservoir), Power.putBay_fedBy_reservoir on_reservoir,
    if_neg (feedOf_ne_dc b)]

end

/-- The event of bay `b` that takes the feed from the reservoir and ends an exhausted holdover. -/
theorem State.takes_spent {s : State} (ready : Ready s) {b : Bay} (r : BayRec) (k : Link) {h : Holdover} (runs : s.feed.holdover = some h)
    (exhausted : h.exhausted = true) (no_drops : s.drops = []) : ∃ q,
    (s.toPower.takenBy b r k s.toFront).endHoldover .pack = q
    ∧ s.Goes q (s.after q) ∧ s.Takes b r k (s.after q) ∧ s.toFront.Tells q.toFront ∧ exhaustionOver s (s.after q) := by
  obtain ⟨f, ends, tells, logs, silent⟩ := Power.endHoldover_spent (p := s.toPower.takenBy b r k s.toFront) (h := h) runs exhausted
    (by cases b <;> exact no_drops) .pack
  have front : (s.toPower.takenBy b r k s.toFront).toFront = s.toFront := by cases b <;> rfl
  have hld : (s.toPower.takenBy b r k s.toFront).hld = s.hld := by cases b <;> rfl
  have fhu : (s.toPower.takenBy b r k s.toFront).fhu.deferredEnd = s.fhu.deferredEnd := by cases b <;> rfl
  rw [front] at tells
  rw [front, hld, fhu] at logs
  rw [front, fhu] at silent
  obtain ⟨q, is⟩ : ∃ q, q = (s.toPower.takenBy b r k s.toFront).endHoldover .pack := ⟨_, rfl⟩
  have own := is.trans ends
  have kin : s.toFront.Kin q.toFront := by rw [own]; exact tells.kin
  have policy : q.bayPolicy = s.bayPolicy := by rw [own]; cases b <;> rfl
  have due : q.due = ⟨false, true, s.hld.energyHeld, false, false⟩ := by
    rw [own]
    show ({ s.due with feed := true, hold := s.due.hold || (s.toPower.takenBy b r k s.toFront).hld.energyHeld } : PassCauses) = _
    rw [ready.2, hld]
    rfl
  have still : q.feed.pending = ⟨false, false⟩ := by rw [own]; rfl
  have goes := State.after_goes ready kin policy (by rw [due]; rfl)
  refine ⟨q, is.symm, goes, State.takes_of_goes goes still ?_ ?_ ?_ ?_ ?_ ?_ ?_, by rw [own]; exact tells,
    State.after_exhaustionOver ready kin policy due (by rw [own]; exact logs) (by rw [own]; exact silent) (by rw [own]) (by rw [own]) (by rw [own])
      (by rw [own]; rfl) still (by rw [own, hld])⟩
  · rw [own]; cases b <;> rfl
  · rw [own]; cases b <;> rfl
  · rw [own]; cases b <;> rfl
  · rw [own]; rfl
  · rw [own]; rfl
  · rw [own]
  · rw [own]; rfl

/-! ## A good poll (R9, R11, R13) -/

/-- The bay record and link after a good poll, before its findings. -/
def BayRec.polled (r : BayRec) (k : PackState) (now : Nat) : BayRec :=
  { r with packState := some { k with polledAt := some now }, failedPolls := if r.failedPolls = 3 then 3 else 0 }

theorem Power.takePoll_put (p : Power) (b : Bay) (k : PackState) : p.takePoll b k = p.putBay b ((p.bay b).polled k p.tmb.uptime)
    { p.link b with activity := .idle } (p.toFront.sendEvent (packHot b k.temperature)) := by
  cases b <;> rfl

section
variable {p : Power} {b : Bay}

/-- Where FHU has nothing to do at a poll. -/
theorem Power.putBay_polledFeed_calm {r : BayRec} (not_feed : p.feed.kind ≠ feedOf b)
    (still : p.feed.kind = .reservoir ∧ r.state.isStandby = false ∨ p.feed.kind ≠ .reservoir ∧ p.feed.pending = ⟨false, false⟩) (k : Link) (f : Front)
    (l : Loads) (x : PackState) : (p.putBay b r k f).polledFeed l b x = p.putBay b r k f := by
  unfold Power.polledFeed
  rw [Power.putBay_feed, if_neg not_feed]
  rcases still with ⟨on_reservoir, other⟩ | ⟨on_source, none_pends⟩
  · rw [if_pos on_reservoir, Power.putBay_bay, if_neg (by rw [other]; decide)]
  · rw [if_neg on_source]
    exact Power.reexamine_still (by rw [Power.putBay_feed]; exact none_pends) l

variable {r : BayRec} {x : PackState} (not_feed : p.feed.kind ≠ feedOf b) (k : Link) (f : Front) (l : Loads)

include not_feed

theorem Power.putBay_judgePoll_standby (standby : r.state = .standby) : (p.putBay b r k f).judgePoll l b x =
    if x.faulty then (p.putBay b r k f).toFault l b .pack
    else if 600 ≤ x.temperature then (p.putBay b r k f).toFault l b .thermal else p.putBay b r k f := by
  unfold Power.judgePoll
  rw [Power.putBay_feed, if_neg not_feed, Power.putBay_bay, standby]

theorem Power.putBay_judgePoll_thermal (thermal : r.state = .fault .thermal) : (p.putBay b r k f).judgePoll l b x =
    if x.faulty then (p.putBay b r k f).toFault l b .pack
    else if x.temperature < 550 then (p.putBay b r k f).enterSeated b else p.putBay b r k f := by
  unfold Power.judgePoll
  rw [Power.putBay_feed, if_neg not_feed, Power.putBay_bay, thermal]

theorem Power.putBay_judgePoll_waiting {y : Release} (waits : r.state = .releaseWait y) : (p.putBay b r k f).judgePoll l b x =
    if x.faulty then (p.putBay b r k f).noteFormer b y .pack
    else if 600 ≤ x.temperature then (p.putBay b r k f).noteFormer b y .thermal
    else if x.temperature < 550 ∧ y.former = .fault .thermal then (p.putBay b r k f).setState b (.releaseWait { y with former := .seated })
    else p.putBay b r k f := by
  unfold Power.judgePoll
  rw [Power.putBay_feed, if_neg not_feed, Power.putBay_bay, waits]

end

/-! ## The statement -/

/-- A part whose monitors are all off sends no event. -/
theorem State.sendEvent_off {s : State} (off : monitorsOff s) (o : Occurrence) : s.toFront.sendEvent o = s.toFront := Front.sendEvent_unwatched off o

/-- The end of an identification. -/
theorem State.identified_runs {s : State} (ready : Ready s) {b : Bay} {bytes : BitVec 136} {t0 : Nat} {again : Bool}
    (reads : (s.link b).activity = .identRead 3 again t0) (in_time : s.tmb.uptime ≤ t0 + 10) (good : checksumGood bytes = true) :
    exec (.packLinkReply b bytes) s
      = .next (s.after (s.toPower.identified s.loads b (decodePackState (s.link b).block2 (bytes.extractLsb' 0 128) none))) := by
  rw [exec_packLinkReply, State.powerEvent_after ready.1,
    Power.linkReply_good (p := s.toPower) (by rw [show (s.toPower.link b).activity = _ from reads]; rfl) in_time good,
    Power.goodTransaction_ident reads (by decide)]
  rfl

/-- The end of a poll. -/
theorem State.polled_runs {s : State} (ready : Ready s) {b : Bay} {bytes : BitVec 136} {t0 : Nat} {again : Bool}
    (reads : (s.link b).activity = .pollRead 3 again t0) (in_time : s.tmb.uptime ≤ t0 + 10) (good : checksumGood bytes = true) :
    exec (.packLinkReply b bytes) s
      = .next (s.after (s.toPower.pollGood s.loads b (decodePackState (s.link b).block2 (bytes.extractLsb' 0 128) none))) := by
  rw [exec_packLinkReply, State.powerEvent_after ready.1,
    Power.linkReply_good (p := s.toPower) (by rw [show (s.toPower.link b).activity = _ from reads]; rfl) in_time good,
    Power.goodTransaction_poll reads (by decide)]
  rfl

/-- What a bay that takes the feed from the reservoir leaves, for a whole event that completes no slot. -/
theorem State.Takes.fed {s t : State} {b : Bay} {r : BayRec} {k : Link} {q : Power} (takes : s.Takes b r k t) (goes : s.Goes q t)
    (tells : s.toFront.Tells q.toFront) : t.bay b = { r with state := .feeding noFaults } ∧ t.link b = k
      ∧ t.bay (otherBay b) = s.bay (otherBay b) ∧ t.feed.kind = feedOf b ∧ t.fhu.switches = switchesFor (feedOf b)
      ∧ t.feed.holdover = none ∧ t.feed.switchover = none ∧ t.mot = s.mot ∧ t.trc = s.trc ∧ t.sfe = s.sfe
      ∧ t.timers = s.timers ∧ PassEvent s t ∧ keepsOutside passRanges s.mem t.mem :=
  ⟨takes.bay, takes.link, takes.other, takes.kind, takes.switches, takes.holdover, takes.switchover, goes.mot, goes.trc.trans tells.trc, goes.sfe,
    goes.timers, goes.passEvent tells.list, goes.kept_plain tells.keptPass⟩

section
variable {p : Power} {b : Bay} {x : PackState} (not_feed : p.feed.kind ≠ feedOf b) (l : Loads)

include not_feed

/-- A poll after whose findings FHU has nothing to do. -/
theorem Power.pollGood_judged {r : BayRec} {k : Link} {f : Front}
    (judged : (p.putBay b ((p.bay b).polled x p.tmb.uptime) { p.link b with activity := .idle }
        (p.toFront.sendEvent (packHot b x.temperature))).judgePoll l b x = p.putBay b r k f)
    (still : p.feed.kind = .reservoir ∧ r.state.isStandby = false ∨ p.feed.kind ≠ .reservoir ∧ p.feed.pending = ⟨false, false⟩) :
    p.pollGood l b x = p.putBay b r k f := by
  rw [p.pollGood_eq, p.takePoll_put, judged, Power.putBay_polledFeed_calm not_feed still]

end

/-- Where FHU has nothing to do at a poll of a bay that is not in STANDBY. -/
theorem calm_beside_standby {f : FeedRec} {st : BayState} (calm : f.kind = .reservoir ∨ f.pending = ⟨false, false⟩) (other : st.isStandby = false) :
    f.kind = .reservoir ∧ st.isStandby = false ∨ f.kind ≠ .reservoir ∧ f.pending = ⟨false, false⟩ := by
  by_cases on_reservoir : f.kind = .reservoir
  · exact .inl ⟨on_reservoir, other⟩
  · exact .inr ⟨on_reservoir, calm.resolve_left on_reservoir⟩

theorem Power.noteFormer_known {p : Power} {x : Release} {y : Standing} (known : x.former = .fault .pack ∨ x.former = .fault y.reason) (b : Bay) :
    p.noteFormer b x y = p := if_pos known

theorem BayState.shown_former {x : Release} {y : FormerState} (other : x.former ≠ y) :
    BayState.shown (.releaseWait { x with former := y }) ≠ BayState.shown (.releaseWait x) := fun same =>
  other (congrArg Release.former (BayState.releaseWait.inj same)).symm

/-- Settles O12. -/
theorem goodBlocksFillThePackState : Obligations.GoodBlocksFillThePackState := by
  refine ⟨fun b bytes d t0 again s ready seated reads in_time good => ?_, fun b bytes t0 again s ready not_feed calm reads in_time good => ?_⟩
  · intro k filled polling faulted
    have runs := State.identified_runs ready reads in_time good
    have well (clear : k.faultFlags &&& 0x0F = 0) : ¬ k.faulty = true := fun sick => (PackState.faulty_iff k).mp sick clear
    have changes {st : BayState} (other : ∀ u, st.shown ≠ .seated u) : (filled st).listed ≠ (s.bay b).listed :=
      BayRec.listed_ne_of_state (by rw [seated]; exact other d)
    refine ⟨fun sick => ?_, fun clear hot => ?_, fun clear cold on_source none_pends => ?_, fun clear cold on_reservoir charged => ?_⟩
    · have goes := s.after_put ready (Power.identified_sick (p := s.toPower) seated ((PackState.faulty_iff k).mpr sick) s.loads)
        (changes (by simp [BayState.shown]))
      exact ⟨_, runs, goes.bay, goes.link, goes.logged (s.toFront.makeRecord_logs _), goes.recordEvent (s.toFront.makeRecord_notes _)⟩
    · have goes := s.after_put ready (Power.identified_hot (p := s.toPower) seated (well clear) hot s.loads) (changes (by simp [BayState.shown]))
      exact ⟨_, runs, goes.bay, goes.link, goes.logged (s.toFront.makeRecord_logs _), goes.recordEvent (s.toFront.makeRecord_notes _)⟩
    · have goes := s.after_put ready (Power.identified_standby (p := s.toPower) (b := b) (well clear) cold on_source none_pends s.loads)
        (changes (by simp [BayState.shown]))
      exact ⟨_, runs, goes.bay, goes.link, goes.bayEvent⟩
    · intro fed
      have feeds := Power.identified_feeds (p := s.toPower) (b := b) (well clear) cold on_reservoir charged s.loads
      refine ⟨fun lasts => ?_, fun h holdover exhausted no_drops => ?_⟩
      · obtain ⟨q, is, goes, takes, due, notes, hld, logs⟩ := s.takes_lasting ready (b := b) ((s.bay b).filled k) polling (.refl s.toFront) rfl lasts
        rw [show s.toPower.identified s.loads b k = q from feeds.trans is] at runs
        exact ⟨_, ⟨runs, takes.fed goes notes.tells⟩, goes.causes.trans due, goes.hld.trans hld, fun h holdover => goes.logged (logs h holdover)⟩
      · obtain ⟨q, is, goes, takes, tells, ended⟩ := s.takes_spent ready (b := b) ((s.bay b).filled k) polling holdover exhausted no_drops
        rw [show s.toPower.identified s.loads b k = q from feeds.trans is] at runs
        exact ⟨_, ⟨runs, takes.fed goes tells⟩, ended⟩
  · intro k sick hot cool polled idle goesTo faulted stays
    obtain ⟨x, is⟩ : ∃ x, x = decodePackState (s.link b).block2 (bytes.extractLsb' 0 128) none := ⟨_, rfl⟩
    obtain ⟨f, sends⟩ : ∃ f, f = s.toFront.sendEvent (packHot b x.temperature) := ⟨_, rfl⟩
    have runs : exec (.packLinkReply b bytes) s = .next (s.after (s.toPower.pollGood s.loads b x)) := by
      rw [is]
      exact State.polled_runs ready reads in_time good
    have sent : s.toFront.Notes f := by rw [sends]; exact s.toFront.sendEvent_notes _
    have silent (off : monitorsOff s) : f = s.toFront := by rw [sends]; exact State.sendEvent_off off _
    have taken : polled (s.bay b).state = (s.bay b).polled x s.tmb.uptime := by rw [is]; rfl
    have sick_iff : x.faulty = true ↔ sick := by
      rw [PackState.faulty_iff, is]
      exact .rfl
    have heat : x.temperature = k.temperature := by
      rw [is]
      rfl
    have clear_of (clear : k.faultFlags &&& 0x0F = 0) : ¬ x.faulty = true := fun faulty => sick_iff.mp faulty clear
    have faults {st : FaultReason → BayState} {y : FaultReason} (put : s.toPower.pollGood s.loads b x = s.toPower.putBay b (polled (st y))
        (if y = .thermal then idle else { idle with pollAt := none }) (f.makeRecord (.packFault b y (s.bay b).serial)))
        (changed : (st y).shown ≠ (s.bay b).state.shown) : faulted st y := by
      have goes := s.after_put ready put (BayRec.listed_ne_of_state changed)
      refine ⟨_, ⟨runs, goes.bay, goes.link, goes.recordEvent (sent.trans (f.makeRecord_notes _))⟩, fun off => goes.logged ?_⟩
      rw [silent off]
      exact s.toFront.makeRecord_logs _
    have stands (judged : (s.toPower.putBay b ((s.bay b).polled x s.tmb.uptime) idle f).judgePoll s.loads b x
          = s.toPower.putBay b ((s.bay b).polled x s.tmb.uptime) idle f)
        (still : s.feed.kind = .reservoir ∧ (s.bay b).state.isStandby = false ∨ s.feed.kind ≠ .reservoir ∧ s.feed.pending = ⟨false, false⟩) : stays := by
      intro differs
      have put := Power.pollGood_judged (p := s.toPower) (r := (s.bay b).polled x s.tmb.uptime) (k := idle) (f := f) not_feed s.loads
        (by rw [← sends]; exact judged) still
      rw [← taken] at put
      have goes := s.after_put ready put (BayRec.listed_ne BayRec.packState (fun _ _ => rfl) (fun same => differs same.symm))
      exact ⟨_, ⟨runs, goes.bay, goes.link, goes.recordEvent sent⟩, fun off => goes.unlogged (by rw [silent off])⟩
    have judged {r : BayRec} {n : Link} {g : Front} (eq : (s.toPower.putBay b ((s.bay b).polled x s.tmb.uptime) idle f).judgePoll s.loads b x
          = s.toPower.putBay b r n g) (other : r.state.isStandby = false) : s.toPower.pollGood s.loads b x = s.toPower.putBay b r n g :=
      Power.pollGood_judged (p := s.toPower) not_feed s.loads (by rw [← sends]; exact eq) (calm_beside_standby calm other)
    refine ⟨fun standby => ⟨fun apart => ⟨fun ill => ?_, fun ⟨clear, warm⟩ => ?_⟩, fun well mild on_source => ?_⟩,
      fun thermal => ⟨fun ill => ?_, fun well mild => ?_, fun ⟨clear, cold⟩ => ?_⟩, fun r waits => ?_⟩
    · refine faults (judged ?_ rfl) (by rw [standby]; nofun)
      rw [Power.putBay_judgePoll_standby (p := s.toPower) not_feed _ _ _ (r := (s.bay b).polled x s.tmb.uptime) standby, if_pos (sick_iff.mpr ill),
        Power.putBay_toFault (p := s.toPower) fun _ => apart, Link.under_fault, ← taken]
      rfl
    · refine faults (judged ?_ rfl) (by rw [standby]; nofun)
      rw [Power.putBay_judgePoll_standby (p := s.toPower) not_feed _ _ _ (r := (s.bay b).polled x s.tmb.uptime) standby, if_neg (clear_of clear),
        if_pos (by rw [heat]; exact warm), Power.putBay_toFault (p := s.toPower) fun _ => apart, Link.under_fault, ← taken]
      rfl
    · refine stands ?_ (.inr ⟨on_source, calm.resolve_left on_source⟩)
      rw [Power.putBay_judgePoll_standby (p := s.toPower) not_feed _ _ _ (r := (s.bay b).polled x s.tmb.uptime) standby,
        if_neg (fun faulty => well (sick_iff.mp faulty)), if_neg ?_]
      rw [heat]
      exact fun warm => mild ⟨by_contra well, warm⟩
    · refine faults (judged ?_ rfl) (by rw [thermal]; simp [BayState.shown])
      rw [Power.putBay_judgePoll_thermal (p := s.toPower) not_feed _ _ _ (r := (s.bay b).polled x s.tmb.uptime) thermal, if_pos (sick_iff.mpr ill),
        Power.putBay_toFault (p := s.toPower) (r := (s.bay b).polled x s.tmb.uptime) (fun standby => ?_), Link.under_fault, ← taken]
      · rfl
      · rw [show ((s.bay b).polled x s.tmb.uptime).state = .fault .thermal from thermal] at standby
        cases standby
    · refine stands ?_ (calm_beside_standby calm (by rw [thermal]; rfl))
      rw [Power.putBay_judgePoll_thermal (p := s.toPower) not_feed _ _ _ (r := (s.bay b).polled x s.tmb.uptime) thermal,
        if_neg (fun faulty => well (sick_iff.mp faulty)), if_neg ?_]
      rw [heat]
      exact fun cold => mild ⟨by_contra well, cold⟩
    · have put := judged (r := seatedBay s b) (n := seatedLink s b) (g := f) (by
        rw [Power.putBay_judgePoll_thermal (p := s.toPower) not_feed _ _ _ (r := (s.bay b).polled x s.tmb.uptime) thermal, if_neg (clear_of clear),
          if_pos (by rw [heat]; exact cold), Power.putBay_enterSeated]
        rw [show f.tmb = s.tmb from sent.tmb]
        rfl) rfl
      have goes := s.after_put ready put (BayRec.listed_ne_of_state (by rw [thermal]; nofun))
      exact ⟨_, ⟨runs, goes.bay, goes.link, goes.recordEvent sent⟩, fun off => goes.unlogged (by rw [silent off])⟩
    · intro former
      have waiting := Power.putBay_judgePoll_waiting (p := s.toPower) (x := x) not_feed idle f s.loads (r := (s.bay b).polled x s.tmb.uptime) waits
      refine ⟨fun no_pack => ⟨fun ill => ?_, fun ⟨clear, warm⟩ no_thermal => ?_⟩, fun known mild => ?_, fun ⟨clear, cold⟩ thermal => ?_⟩
      · refine faults (judged ?_ rfl) (by rw [waits]; exact BayState.shown_former no_pack)
        rw [waiting, if_pos (sick_iff.mpr ill), Power.putBay_noteFormer (y := .pack) no_pack no_pack, Link.under_former, ← taken]
        rfl
      · refine faults (judged ?_ rfl) (by rw [waits]; exact BayState.shown_former no_thermal)
        rw [waiting, if_neg (clear_of clear), if_pos (by rw [heat]; exact warm), Power.putBay_noteFormer (y := .thermal) no_pack no_thermal,
          Link.under_former, ← taken]
        rfl
      · refine stands (waiting.trans ?_) (calm_beside_standby calm (by rw [waits]; rfl))
        split
        case isTrue faulty => exact Power.noteFormer_known (.inl (known.resolve_right fun other => other.1 (sick_iff.mp faulty))) b
        case isFalse faultless =>
          have clear : k.faultFlags &&& 0x0F = 0 := by_contra fun ill => faultless (sick_iff.mpr ill)
          rw [heat]
          split
          case isTrue warm =>
            refine Power.noteFormer_known (known.imp_right fun other => ?_) b
            exact other.2.resolve_right fun mild => mild ⟨clear, warm⟩
          case isFalse => exact if_neg fun ⟨cold, thermal⟩ => mild ⟨clear, cold⟩ thermal
      · have put := judged (r := polled (.releaseWait { r with former := .seated })) (n := { idle with pollAt := none }) (g := f) (by
          rw [waiting, if_neg (clear_of clear), if_neg (by rw [heat]; omega), if_pos ⟨by rw [heat]; exact cold, thermal⟩, Power.putBay_setState,
            Link.under_idle rfl (by simp), ← taken]) rfl
        have goes := s.after_put ready put (BayRec.listed_ne_of_state (by
          rw [waits]
          exact BayState.shown_former (by rw [thermal]; nofun)))
        exact ⟨_, ⟨runs, goes.bay, goes.link, goes.recordEvent sent⟩, fun off => goes.unlogged (by rw [silent off])⟩

end Sys2Proof.Machine
end

section
/-! PROOF. Unplanned losses of the feed (R28, R32, R38 to R40, R44, R77, R95). -/

namespace Sys2Proof.Machine

open Sys2Proof.Safety

/-! ## The move from a source -/

/-- FHU's record once the feed has moved from a source to `k`; into the reservoir a holdover begins, planned or not (R44). -/
def Power.movedFeed (p : Power) (planned : Bool) (k : FeedKind) : FeedRec :=
  if k = .reservoir then { p.feed.fed k with holdover := some ⟨planned, p.tmb.uptime, false⟩, lean := true } else p.feed.fed k

/-- Bays, links and FHU then, the host's side as `f`. -/
def Power.movedTo (p : Power) (c : MoveCause) (planned : Bool) (k : FeedKind) (f : Front) : Power :=
  { p with
    bayA := p.fedRec k c .A, bayB := p.fedRec k c .B, linkA := p.fedLink k c .A, linkB := p.fedLink k c .B
    feed := p.movedFeed planned k, fhu := p.fedFhu k, due := { p.due with feed := true }, toFront := f }

/-- The same once the feed is lost, with the emergency pass to follow (R40). -/
def Power.lostTo (p : Power) (c : MoveCause) (k : FeedKind) (f : Front) : Power :=
  { p.movedTo c false k f with due := { p.due with feed := true, emergency := true } }

section
variable (p : Power) (c : MoveCause) (v : Bool) (k : FeedKind) (f : Front)

theorem Power.movedTo_bay (b : Bay) : (p.movedTo c v k f).bay b = p.fedRec k c b := by cases b <;> rfl
theorem Power.movedTo_link (b : Bay) : (p.movedTo c v k f).link b = p.fedLink k c b := by cases b <;> rfl
theorem Power.lostTo_bay (b : Bay) : (p.lostTo c k f).bay b = p.fedRec k c b := p.movedTo_bay c false k f b
theorem Power.lostTo_link (b : Bay) : (p.lostTo c k f).link b = p.fedLink k c b := p.movedTo_link c false k f b

theorem Power.movedFeed_kind : (p.movedFeed v k).kind = k := by unfold Power.movedFeed; split <;> rfl
theorem Power.movedFeed_switchover : (p.movedFeed v k).switchover = none := by unfold Power.movedFeed; split <;> rfl
theorem Power.movedFeed_pending : (p.movedFeed v k).pending = ⟨false, false⟩ := by unfold Power.movedFeed; split <;> rfl
theorem Power.movedFeed_dcPresent : (p.movedFeed v k).dcPresent = p.feed.dcPresent := by unfold Power.movedFeed; split <;> rfl
theorem Power.movedFeed_eAvail : (p.movedFeed v k).eAvail = p.feed.eAvail := by unfold Power.movedFeed; split <;> rfl
theorem Power.movedFeed_causes : (p.movedFeed v k).causes = { p.feed.causes with faulted := false, lowCharge := false } := by
  unfold Power.movedFeed
  split <;> rfl

theorem Power.movedFeed_holdover :
    (p.movedFeed v k).holdover = if k = .reservoir then some ⟨v, p.tmb.uptime, false⟩ else p.feed.holdover := by
  unfold Power.movedFeed
  split <;> rfl

theorem Power.movedFeed_lean {k : FeedKind} (into : k = .reservoir) : (p.movedFeed v k).lean = true := by
  unfold Power.movedFeed
  rw [if_pos into]

end

theorem Front.raise_tells (f : Front) (b : SummaryFlag) : f.Tells (f.raise b) :=
  ⟨⟨rfl, rfl, rfl, rfl, rfl, rfl, rfl⟩, .of_same rfl rfl, f.raise_raises b, keepsOutside_refl _ _, rfl, rfl⟩

theorem lean_up (f : Front) : (f.raise .lean).summary &&& 0x08 ≠ 0 := by
  intro h
  have bit : ((f.summary ||| 0x08) &&& 0x08 : Word).getLsbD 3 = true := by
    rw [BitVec.getLsbD_and, BitVec.getLsbD_or, show (0x08 : Word).getLsbD 3 = true from by decide]
    simp
  rw [show (f.summary ||| 0x08) &&& 0x08 = (0 : Word) from h] at bit
  exact absurd bit (by decide)

/-- A move of the feed from a source. -/
theorem Power.moveFeed_moved {p : Power} (from_source : p.feed.kind ≠ .reservoir) (k : FeedKind) (c : MoveCause) (v : Bool) :
    ∃ f, p.moveFeed k c v = p.movedTo c v k f ∧ p.toFront.Tells f ∧ f.log = p.log ∧ (k = .reservoir → f.summary &&& 0x08 ≠ 0) := by
  by_cases into : k = .reservoir
  · refine ⟨p.toFront.raise .lean, ?_, p.toFront.raise_tells .lean, rfl, fun _ => lean_up p.toFront⟩
    rw [into, Power.moveFeed_into from_source, p.fedBy_put]
    rfl
  · refine ⟨p.toFront, ?_, .refl _, rfl, fun same => absurd same into⟩
    rw [Power.moveFeed_between into from_source, p.fedBy_put]
    unfold Power.movedTo Power.movedFeed
    rw [if_neg into]

/-! ## The loss as a move -/

/-- The loss of a source makes its record and moves the feed where the choice points. -/
theorem Power.lossTaken_put {p : Power} (from_source : p.feed.kind ≠ .reservoir) (c : LossCause) :
    ∃ f, p.lossTaken c = p.lostTo (if c = .voltage then .collapse else .ordinary) p.choose f
    ∧ p.toFront.Tells f ∧ p.toFront.Logs f (.feedLost p.feed.kind c p.choose p.feed.eAvail) p.tmb
    ∧ (p.choose = .reservoir → f.summary &&& 0x08 ≠ 0) := by
  obtain ⟨g, moves, tells, log, up⟩ := Power.moveFeed_moved from_source p.choose (if c = .voltage then .collapse else .ordinary) false
  have notes := g.makeRecord_notes (.feedLost p.feed.kind c p.choose p.feed.eAvail)
  have logs := g.makeRecord_logs (.feedLost p.feed.kind c p.choose p.feed.eAvail)
  rw [tells.kin.tmb] at logs
  refine ⟨g.makeRecord (.feedLost p.feed.kind c p.choose p.feed.eAvail), ?_, tells.trans notes.tells, logs.earlier log,
    fun into => notes.raised.up (up into)⟩
  unfold Power.lossTaken
  rw [moves]
  show ({ p.lostTo _ p.choose (g.makeRecord (.feedLost p.feed.kind c (p.movedFeed false p.choose).kind (p.movedFeed false p.choose).eAvail)) with
    due := { p.due with feed := true, emergency := true } } : Power) = _
  rw [p.movedFeed_kind, p.movedFeed_eAvail]
  rfl

/-! ## The choice -/

/-- A bay that is no candidate is not chosen. -/
theorem Power.choose_ne {p : Power} {b : Bay} (unable : (p.bay b).candidate = false) : p.choose ≠ feedOf b := by
  unfold Power.choose
  cases b
  · rw [show p.bayA.candidate = false from unable]
    cases p.feed.dcPresent <;> cases p.bayB.candidate <;> simp [feedOf]
  · rw [show p.bayB.candidate = false from unable]
    cases p.feed.dcPresent <;> cases p.bayA.candidate <;> simp [feedOf]

/-- The choice does not depend on the record of a bay that is no candidate. -/
theorem Power.choose_congr {p q : Power} {b : Bay} (dc : q.feed.dcPresent = p.feed.dcPresent) (other : q.bay (otherBay b) = p.bay (otherBay b))
    (unable : (p.bay b).candidate = false) (unable' : (q.bay b).candidate = false) : q.choose = p.choose := by
  unfold Power.choose
  rw [dc]
  cases b
  · rw [show p.bayA.candidate = false from unable, show q.bayA.candidate = false from unable', show q.bayB = p.bayB from other]
    simp
  · rw [show p.bayB.candidate = false from unable, show q.bayB.candidate = false from unable', show q.bayA = p.bayA from other]
    simp

theorem BayRec.candidate_standby {r : BayRec} (other : r.state.isStandby = false) : r.candidate = false := by
  unfold BayRec.candidate
  rw [other]
  rfl

/-! ## The event -/

/-- The state after an unplanned loss whose own changes give `q`; the FEED_LOST event follows the pass (R40). -/
def State.afterLoss (s : State) (q : Power) : State :=
  s.withBlocks ((s.toBlocks.withPower q).concluded s.toBlocks fun f => f.sendEvent (feedLostEvent s.feed.kind))

theorem State.lossEvent_after {s : State} (op : Power → Loads → Power) :
    s.withBlocks (s.toBlocks.lossEvent op) = s.afterLoss (op s.toPower s.loads) := rfl

theorem State.afterLoss_goes {s : State} (ready : Ready s) {p : Power} {c : MoveCause} {k : FeedKind} {f : Front} (kin : s.toFront.Kin f)
    (policy : p.bayPolicy = s.bayPolicy) : s.Goes (p.lostTo c k f) (s.afterLoss (p.lostTo c k f)) :=
  State.goes_of_passed (q := p.lostTo c k f) ready kin policy
    (Blocks.concluded_passed (x := s.toBlocks.withPower (p.lostTo c k f)) (by
      show PassCauses.any _ = true
      simp [Power.lostTo, PassCauses.any, Blocks.withPower]) s.toBlocks fun g => g.sendEvent_notes _)

/-- What every unplanned loss leaves, `p` the bays, FHU and the host's side as they stood when the feed moved. -/
structure State.Loses (s : State) (p : Power) (c : MoveCause) (k : FeedKind) (t : State) : Prop where
  bay : ∀ b, t.bay b = p.fedRec k c b
  feed : t.feed = p.movedFeed false k
  switches : t.fhu.switches = switchesFor k
  causes : t.bud.causes = ⟨false, true, false, false, true⟩
  used : t.bud.feedUsed = k
  duty : t.blc.liveDuty = min s.blc.liveDuty t.bud.ceiling
  hld : t.hld = s.hld
  rest : t.mot = s.mot ∧ t.trc = s.trc ∧ t.timers = s.timers ∧ t.sfe = s.sfe
  event : PassEvent { s with inFlight := t.inFlight } t

theorem State.afterLoss_loses {s : State} (ready : Ready s) {p : Power} {c : MoveCause} {k : FeedKind} {f : Front} (kin : s.toFront.Kin f)
    (policy : p.bayPolicy = s.bayPolicy) (due : p.due = s.due) (hld : p.hld = s.hld) (trc : f.trc = s.trc) :
    s.Loses p c k (s.afterLoss (p.lostTo c k f)) := by
  have goes := State.afterLoss_goes (c := c) (k := k) ready kin policy
  have still : (p.lostTo c k f).feed.pending = ⟨false, false⟩ := p.movedFeed_pending false k
  have causes : (p.lostTo c k f).due = ⟨false, true, false, false, true⟩ := by
    show ({ p.due with feed := true, emergency := true } : PassCauses) = _
    rw [due, ready.2]
    rfl
  exact ⟨fun b => (goes.bay b).trans (p.lostTo_bay c k f b), goes.feed still, by rw [goes.fhu still]; rfl, goes.causes.trans causes,
    goes.feedUsed.trans (p.movedFeed_kind false k), goes.liveDuty_cut rfl, goes.hld.trans hld, ⟨goes.mot, goes.trc.trans trc, goes.timers, goes.sfe⟩, goes.event⟩

/-- A bay that was not the feed is FEEDING if the feed has gone to it, else as it was. -/
theorem Power.fedRec_other {p : Power} {s : State} {b : Bay} (same : p.bay b = s.bay b) (not_feed : p.feed.kind ≠ feedOf b) (k : FeedKind)
    (c : MoveCause) : p.fedRec k c b = fedBay s b k := by
  unfold Power.fedRec fedBay
  rw [same, if_neg not_feed]

/-- The bay that lost the feed. -/
theorem Power.fedRec_lost {p : Power} {b : Bay} (feed : p.feed.kind = feedOf b) {k : FeedKind} (elsewhere : k ≠ feedOf b) (c : MoveCause) :
    p.fedRec k c b = { p.bay b with state := stateAfterFeed c k (p.bay b).state } := by
  unfold Power.fedRec
  rw [if_neg elsewhere, if_pos feed]


/-- What the loss of the feed bay `b` leaves beside that bay; `o` is the slot that completes. -/
def State.LostFrom (s : State) (b : Bay) (k : FeedKind) (cause : LossCause) (o : Option InFlight) (t : State) : Prop :=
  t.feed.kind = k ∧ t.fhu.switches = switchesFor k
  ∧ t.bay (otherBay b) = fedBay s (otherBay b) k
  ∧ Logged s.toFront t.toFront (.feedLost (feedOf b) cause k s.feed.eAvail) s.tmb
  ∧ t.bud.causes = ⟨false, true, false, false, true⟩ ∧ t.bud.feedUsed = k
  ∧ t.blc.liveDuty = min s.blc.liveDuty t.bud.ceiling
  ∧ t.feed.holdover = (if k = .reservoir then some ⟨false, s.tmb.uptime, false⟩ else s.feed.holdover)
  ∧ (k = .reservoir → t.feed.lean = true ∧ t.summary &&& 0x08 ≠ 0)
  ∧ t.feed.switchover = none ∧ t.feed.pending = ⟨false, false⟩
  ∧ t.hld = s.hld ∧ t.mot = s.mot ∧ t.trc = s.trc ∧ t.timers = s.timers ∧ t.sfe = s.sfe
  ∧ PassEvent { s with inFlight := t.inFlight } t ∧ keepsOutside (passRanges ++ endRanges o) s.mem t.mem

theorem State.afterLoss_lostFrom {s : State} (ready : Ready s) {b : Bay} (feed : s.feed.kind = feedOf b) {r : BayRec} {l : Link} {g f : Front}
    {k : FeedKind} {cause : LossCause} {o : Option InFlight} (c : MoveCause) (before : s.toFront.Kin g) (log : g.log = s.log) (trc : g.trc = s.trc)
    (own : keepsOutside (endRanges o) s.mem g.mem) (tells : g.Tells f) (logs : g.Logs f (.feedLost (feedOf b) cause k s.feed.eAvail) s.tmb)
    (up : k = .reservoir → f.summary &&& 0x08 ≠ 0) :
    s.LostFrom b k cause o (s.afterLoss ((s.toPower.putBay b r l g).lostTo c k f)) := by
  have kin := before.trans tells.kin
  have loses := State.afterLoss_loses (p := s.toPower.putBay b r l g) (c := c) (k := k) (f := f) ready kin (by simp) (by simp) (by simp) (tells.trc.trans trc)
  have goes := State.afterLoss_goes (p := s.toPower.putBay b r l g) (c := c) (k := k) (f := f) ready kin (by simp)
  obtain ⟨mot, trace, timers, sfe⟩ := loses.rest
  refine ⟨?_, loses.switches, ?_, goes.logged (logs.earlier log), loses.causes, loses.used, loses.duty, ?_, fun into => ⟨?_, goes.pass.raised.up (up into)⟩,
    ?_, ?_, loses.hld, mot, trace, timers, sfe, loses.event, goes.kept ?_⟩
  · rw [loses.feed, Power.movedFeed_kind]
  · rw [loses.bay, Power.fedRec_other (s := s) (by cases b <;> rfl) (by rw [Power.putBay_feed, feed]; exact feedOf_other_ne b)]
  · rw [loses.feed, Power.movedFeed_holdover, Power.putBay_feed, Power.putBay_toFront, before.tmb]
  · rw [loses.feed, Power.movedFeed_lean _ false into]
  · rw [loses.feed, Power.movedFeed_switchover]
  · rw [loses.feed, Power.movedFeed_pending]
  · exact keepsOutside_trans (keepsOutside_mono own fun _ mem => List.mem_append_right _ mem)
      (keepsOutside_mono tells.keptPass fun _ mem => List.mem_append_left _ mem)

/-! ## The rows -/

theorem Power.putBay_loss_presence {p : Power} {b : Bay} (feed : p.feed.kind = feedOf b) (r : BayRec) (k : Link) (g : Front) (l : Loads) :
    (p.putBay b r k g).loss l .presence = (p.putBay b r k g).lossTaken .presence := by
  rw [Power.loss_of_bay l .presence (x := b) (by rw [Power.putBay_feed]; exact bay_eq_some.mpr feed)]
  rfl

theorem Power.unseat_feed_waiting {p : Power} {b : Bay} {r : Release} (feed : p.feed.kind = feedOf b) (waits : (p.bay b).state = .releaseWait r)
    (l : Loads) : p.unseat l b = (p.putBay b (p.bay b).emptied idleLink
      (p.toFront.completeOwed (p.toFront.owes r) ⟨.nothingToRelease, false, false, releaseData b r p.tmb.uptime⟩)).lossTaken .presence := by
  unfold Power.unseat
  rw [waits, p.setBay_eq, Power.putBay_setLink]
  dsimp only
  refine (if_pos (by rw [Power.putBay_completeRelease, Power.putBay_feed]; exact feed)).trans ?_
  rw [Power.putBay_completeRelease, Power.putBay_loss_presence feed]
  rfl

theorem Power.unseat_feed_apart {p : Power} {b : Bay} (feed : p.feed.kind = feedOf b) (apart : ∀ r, (p.bay b).state ≠ .releaseWait r) (l : Loads) :
    p.unseat l b = (p.putBay b (p.bay b).emptied idleLink p.toFront).lossTaken .presence := by
  unfold Power.unseat
  rw [p.setBay_eq, Power.putBay_setLink]
  dsimp only
  split
  · exact absurd ‹_› (apart _)
  · refine (if_pos (by rw [Power.putBay_feed]; exact feed)).trans ?_
    rw [Power.putBay_loss_presence feed]
    rfl

theorem exec_presenceOpened_feed {b : Bay} {s : State} (ready : Ready s) (feed : s.feed.kind = feedOf b) (seated : (s.bay b).state ≠ .empty) :
    exec (.presenceOpened b) s = .next (s.afterLoss (s.toPower.unseat s.loads b)) := by
  rw [exec_presenceOpened, s.whilePowered_on _ ready.1, if_neg seated, if_pos feed, State.lossEvent_after]

theorem exec_packCollapse_feed {b : Bay} {s : State} (ready : Ready s) (feed : s.feed.kind = feedOf b) (late : s.fhu.collapseFrom + 5 ≤ s.tmb.uptime) :
    exec (.packCollapse b) s = .next (s.afterLoss (s.toPower.loss s.loads .voltage)) := by
  rw [exec_packCollapse, s.whilePowered_on _ ready.1, if_pos ⟨feed, late⟩, State.lossEvent_after]

theorem exec_dcDeparture_feed {s : State} (ready : Ready s) (feed : s.feed.kind = .dc) :
    exec .dcDeparture s = .next (s.afterLoss ((s.toPower.setDc false).lossTaken .dcDeparture)) := by
  rw [exec_dcDeparture, s.whilePowered_on _ ready.1, if_pos feed, State.lossEvent_after]
  rw [Power.loss_of_dc _ _ (show (s.toPower.setDc false).feed.kind.bay = none from by rw [show (s.toPower.setDc false).feed.kind = .dc from feed]; rfl)]

theorem Power.transferConfirmed_elsewhere {p : Power} {b : Bay} (elsewhere : ∀ r, (p.bay b).state ≠ .releaseWait r) (l : Loads) :
    p.transferConfirmed l b = p := by
  unfold Power.transferConfirmed
  split
  · exact absurd ‹_› (elsewhere _)
  · rfl

/-- A collapsed FEEDING bay: FAULT(PACK), with its record unless PACK stood already. -/
theorem Power.loss_voltage {p : Power} {b : Bay} {x : FaultSet} (feed : p.feed.kind = feedOf b) (feeding : (p.bay b).state = .feeding x)
    {k : FeedKind} (chosen : p.choose = k) (elsewhere : k ≠ feedOf b) (l : Loads) :
    ∃ f, p.loss l .voltage = p.lostTo .collapse k f
    ∧ p.toFront.Tells f ∧ p.toFront.Logs f (.feedLost (feedOf b) .voltage k p.feed.eAvail) p.tmb ∧ (k = .reservoir → f.summary &&& 0x08 ≠ 0) := by
  obtain ⟨g, taken, tells, logs, up⟩ := Power.lossTaken_put (p := p) (by rw [feed]; exact feedOf_ne_reservoir b) .voltage
  rw [chosen] at taken logs up
  rw [feed] at logs
  have fault (f : Front) : ((p.lostTo .collapse k f).bay b).state = .fault .pack := by
    rw [Power.lostTo_bay, Power.fedRec_lost feed elsewhere, feeding]
    rfl
  rw [Power.loss_of_bay l .voltage (bay_eq_some.mpr feed), if_pos rfl, taken, if_pos rfl]
  split
  · exact ⟨g, Power.transferConfirmed_elsewhere (by rw [fault]; nofun) l, tells, logs, up⟩
  · have notes := g.makeRecord_notes (.packFault b .pack (((p.lostTo .collapse k g).bay b).identity.map (fun i => i.serial) |>.getD 0))
    refine ⟨_, Power.transferConfirmed_elsewhere (p := p.lostTo .collapse k (g.makeRecord (.packFault b .pack _))) (by rw [fault]; nofun) l,
      tells.trans notes.tells, logs.later notes.logs, fun into => notes.raised.up (up into)⟩

/-- Settles O15. -/
theorem unplannedLossesMoveTheFeedAtOnce : Obligations.UnplannedLossesMoveTheFeedAtOnce := by
  refine ⟨fun k s ready kind none_runs none_flies chosen => ?_, fun b s ready feed seated => ?_, fun b s on driven not_feed => ?_⟩
  · obtain ⟨f, taken, tells, logs, up⟩ := Power.lossTaken_put (p := s.toPower.setDc false) (by rw [show (s.toPower.setDc false).feed.kind = .dc from kind]; nofun)
      .dcDeparture
    rw [show (s.toPower.setDc false).choose = k from chosen.symm] at taken logs up
    rw [show (s.toPower.setDc false).feed.kind = .dc from kind] at logs
    rw [exec_dcDeparture_feed ready kind, taken]
    have loses := State.afterLoss_loses (p := s.toPower.setDc false) (c := .ordinary) (k := k) (f := f) ready tells.kin rfl rfl rfl tells.trc
    have goes := State.afterLoss_goes (p := s.toPower.setDc false) (c := .ordinary) (k := k) (f := f) ready tells.kin rfl
    obtain ⟨mot, trace, timers, sfe⟩ := loses.rest
    refine ⟨_, rfl, ?_, ?_, loses.switches, fun b => ?_, goes.logged logs, loses.causes, loses.used, loses.duty, fun into => ⟨?_, ?_, goes.pass.raised.up (up into)⟩,
      fun apart => ?_, loses.hld, mot, trace, timers, sfe, goes.passEvent tells.list, goes.kept_plain tells.keptPass⟩
    · exact (congrArg FeedRec.kind loses.feed).trans (Power.movedFeed_kind _ false k)
    · exact (congrArg FeedRec.dcPresent loses.feed).trans (Power.movedFeed_dcPresent _ false k)
    · exact (loses.bay b).trans (Power.fedRec_other (by cases b <;> rfl) (by rw [show (s.toPower.setDc false).feed.kind = .dc from kind]; exact dc_ne_feedOf b) k _)
    · exact (congrArg FeedRec.holdover loses.feed).trans ((Power.movedFeed_holdover _ false k).trans (if_pos into))
    · exact (congrArg FeedRec.lean loses.feed).trans (Power.movedFeed_lean _ false into)
    · exact (congrArg FeedRec.holdover loses.feed).trans ((Power.movedFeed_holdover _ false k).trans ((if_neg apart).trans none_runs))
  · intro k lost
    have unable : (s.bay b).emptied.candidate = false := rfl
    have elsewhere : k ≠ feedOf b := Power.choose_ne (p := s.toPower.setBay b (emptiedBay s b)) (by cases b <;> rfl)
    have presence {g : Front} {o : Option InFlight} (is : s.toPower.unseat s.loads b = (s.toPower.putBay b (s.bay b).emptied idleLink g).lossTaken .presence)
        (before : s.toFront.Kin g) (log : g.log = s.log) (trc : g.trc = s.trc) (own : keepsOutside (endRanges o) s.mem g.mem) :
        ∃ f, g.Tells f ∧ lost o (.presenceOpened b) .presence (s.afterLoss ((s.toPower.putBay b (s.bay b).emptied idleLink g).lostTo .ordinary k f))
        ∧ (s.afterLoss ((s.toPower.putBay b (s.bay b).emptied idleLink g).lostTo .ordinary k f)).bay b = emptiedBay s b
        ∧ (s.afterLoss ((s.toPower.putBay b (s.bay b).emptied idleLink g).lostTo .ordinary k f)).link b = ⟨.idle, 0, 0, 0, none⟩
        ∧ s.Goes ((s.toPower.putBay b (s.bay b).emptied idleLink g).lostTo .ordinary k f)
            (s.afterLoss ((s.toPower.putBay b (s.bay b).emptied idleLink g).lostTo .ordinary k f)) := by
      have on_bay : (s.toPower.putBay b (s.bay b).emptied idleLink g).feed.kind = feedOf b := by rw [Power.putBay_feed]; exact feed
      obtain ⟨f, taken, tells, logs, up⟩ := Power.lossTaken_put (p := s.toPower.putBay b (s.bay b).emptied idleLink g)
        (by rw [on_bay]; exact feedOf_ne_reservoir b) .presence
      have chosen : (s.toPower.putBay b (s.bay b).emptied idleLink g).choose = k :=
        Power.choose_congr (b := b) (by cases b <;> rfl) (by cases b <;> rfl) (by cases b <;> rfl) (by cases b <;> rfl)
      rw [chosen] at taken logs up
      rw [on_bay, Power.putBay_toFront, Power.putBay_feed, before.tmb] at logs
      rw [Power.putBay_toFront] at tells
      have goes := State.afterLoss_goes (p := s.toPower.putBay b (s.bay b).emptied idleLink g) (c := .ordinary) (k := k) (f := f) ready
        (before.trans tells.kin) (by simp)
      refine ⟨f, tells, ⟨?_, State.afterLoss_lostFrom ready feed .ordinary before log trc own tells logs up⟩, (goes.bay b).trans ?_, (goes.link b).trans ?_, goes⟩
      · rw [exec_presenceOpened_feed ready feed seated, is, taken]
        rfl
      · rw [Power.lostTo_bay, Power.fedRec_lost on_bay elsewhere, Power.putBay_bay]
        rfl
      · rw [Power.lostTo_link]
        unfold Power.fedLink
        rw [if_pos on_bay, Power.putBay_bay, Power.putBay_link]
        rfl
    refine ⟨fun apart => ?_, fun r waits => ?_, fun x feeding late => ?_⟩
    · obtain ⟨f, tells, gone, bay, link, goes⟩ := presence (g := s.toFront) (o := none)
        (Power.unseat_feed_apart feed apart s.loads) (.refl _) rfl rfl (keepsOutside_refl _ _)
      exact ⟨_, gone, bay, link, goes.inFlight.trans tells.list⟩
    · obtain ⟨log, trc, own⟩ := s.toFront.completeOwed_beside (r := r) ⟨.nothingToRelease, false, false, releaseData b r s.tmb.uptime⟩
      obtain ⟨f, tells, gone, bay, link, goes⟩ := presence (o := owedBy s r) (Power.unseat_feed_waiting (p := s.toPower) feed waits s.loads)
        (s.toFront.completeOwed_kin _ _) log trc own
      have ended := (Front.completeOwed_ended (f := s.toFront) (r := r) rfl ⟨.nothingToRelease, false, false, releaseData b r s.tmb.uptime⟩).later tells.list
        tells.raised tells.kept (by simp [besideSlots, recordRanges, pageRange, PageId.offset, indexRange, missedRange, logRange])
      exact ⟨_, gone, bay, link, goes.releaseEnds ended⟩
    · have chosen : s.toPower.choose = k := Power.choose_congr (b := b) (by cases b <;> rfl) (by cases b <;> rfl) (by cases b <;> rfl)
        (BayRec.candidate_standby (by rw [show (s.toPower.bay b).state = _ from feeding]; rfl))
      obtain ⟨f, is, tells, logs, up⟩ := Power.loss_voltage (p := s.toPower) feed feeding chosen elsewhere s.loads
      have goes := State.afterLoss_goes (p := s.toPower) (c := .collapse) (k := k) (f := f) ready tells.kin rfl
      have from_put := State.afterLoss_lostFrom (r := s.bay b) (l := s.link b) (o := none) ready feed .collapse (.refl s.toFront) rfl rfl (keepsOutside_refl _ _) tells logs up
      rw [show s.toPower.putBay b (s.bay b) (s.link b) s.toFront = s.toPower from s.toPower.putBay_self b] at from_put
      refine ⟨_, ⟨?_, from_put⟩, (goes.bay b).trans ?_, goes.inFlight.trans tells.list⟩
      · rw [exec_packCollapse_feed ready feed late, is]
      · rw [Power.lostTo_bay, Power.fedRec_lost feed elsewhere, show (s.toPower.bay b).state = _ from feeding]
        rfl
  · rw [exec_packCollapse]
    exact s.whilePowered_still on driven (if_neg fun both => not_feed both.1)


end Sys2Proof.Machine
end

section
/-! PROOF. Takeovers that are confirmed and that are reverted (R18, R35, R36, R44). -/

namespace Sys2Proof.Machine

open Sys2Proof.Safety

/-! ## The event of a bay with the other bay and FHU's records changed too -/

/-- Bays, links and FHU's records those of `p`. -/
def State.beside (s : State) (p : Power) : State :=
  { s with bayA := p.bayA, bayB := p.bayB, linkA := p.linkA, linkB := p.linkB, feed := p.feed, fhu := p.fhu }

theorem energyChanged_of_feed {old x : Blocks} (changed : x.feed ≠ old.feed) : energyChanged old x = true := by
  have ne : old.feed ≠ x.feed := fun same => changed same.symm
  simp [energyChanged, ne]

/-- An event of bay `b` after which the energy page shows another bay or another feed record. -/
theorem State.after_beside {s : State} (none_due : s.due = noCauses) {p : Power} {b : Bay} {r : BayRec}
    (changed : r.listed ≠ (s.bay b).listed ∨ p.feed ≠ s.feed) (l : Link) (f : Front) :
    (s.beside p).BayGoes b r l f (s.after ((s.beside p).toPower.putBay b r l f)) := by
  obtain ⟨q, is⟩ : ∃ q, q = (s.beside p).toPower.putBay b r l f := ⟨_, rfl⟩
  have due : (s.toBlocks.withPower q).due = noCauses := by rw [is]; cases b <;> exact none_due
  obtain ⟨mem, settled, kept, -⟩ := Blocks.settled_energy (x := s.toBlocks.withPower q) (old := s.toBlocks) due rfl
  have energy : energyChanged s.toBlocks ((s.toBlocks.withPower q).withPower (s.toBlocks.withPower q).toPower.reassign) = true := by
    rcases changed with bay | feed
    · exact energyChanged_of_bay bay (by rw [is]; cases b <;> rfl)
    · exact energyChanged_of_feed (by rw [is]; cases b <;> exact feed)
  rw [energy, if_pos rfl] at settled
  have charger := (s.toBlocks.withPower q).toPower.chargerSettled_reassign
  unfold State.after
  rw [← is, settled]
  subst is
  cases b
  · exact ⟨rfl, rfl, ⟨rfl, rfl⟩, rfl, rfl, charger, kept⟩
  · exact ⟨rfl, rfl, ⟨rfl, rfl⟩, rfl, rfl, charger, kept⟩

/-- Such an event, as an event of the bays and FHU. -/
theorem FeedEvent.of_beside {s t : State} {p : Power} {rs : List Range} {b : Bay} (event : BayRecordEventOver rs b (s.beside p) t) :
    FeedEvent s t ∧ t.feed = p.feed ∧ t.fhu = p.fhu ∧ t.bay (otherBay b) = p.bay (otherBay b)
    ∧ t.link (otherBay b) = p.link (otherBay b) ∧ keepsOutside (pageRange .energy :: recordRanges ++ rs) s.mem t.mem := by
  obtain ⟨shape, bay, link, charger, kept⟩ := event
  have feed : t.feed = p.feed := congrArg (fun u : State => u.feed) shape
  have fhu : t.fhu = p.fhu := congrArg (fun u : State => u.fhu) shape
  refine ⟨⟨shape.trans ?_, charger⟩, feed, fhu, bay.trans (by cases b <;> rfl), link.trans (by cases b <;> rfl), kept⟩
  rw [feed, fhu]
  rfl

/-! ## Once no switchover is in flight -/

/-- No DC arrival waits and no move fell due (R31, R35). -/
theorem Power.afterSwitchover_calm {p : Power} (dc : p.feed.dcPresent = false ∨ p.feed.kind = .dc) (none_due : p.fhu.dueInFlight = ⟨false, false⟩)
    (l : Loads) : p.afterSwitchover l = p := by
  have waits : (p.feed.dcPresent && decide (p.feed.kind ≠ .dc)) = false := by
    rcases dc with absent | on_dc
    · rw [absent]; rfl
    · rw [on_dc]; exact Bool.and_false _
  have examined (x : Bay) : p.examineDue l x = p := by
    unfold Power.examineDue
    rw [none_due]
    dsimp only
    rw [if_neg (by decide), if_neg (by decide), ← none_due]
  unfold Power.afterSwitchover
  rw [waits]
  split
  · rfl
  · rw [if_neg (by decide)]
    split
    · rfl
    · exact examined _

/-! ## Reversion (R35, step 3; R36) -/

/-- FHU's records once a switchover from bay `b` is reverted. -/
def Power.revertedFeed (p : Power) : FeedRec :=
  { p.feed with switchover := none, failures := if p.feed.failures < 65535 then p.feed.failures + 1 else p.feed.failures }

def Power.revertedFhu (p : Power) (b : Bay) : FhuState := { p.fhu with switches := switchesFor (feedOf b) }

section
variable {p : Power} {b : Bay} {w : Switchover} {r : Release}

theorem Power.failSwitchover_takeover (flies : p.feed.switchover = some w) (kind : p.feed.kind = feedOf b) (takeover : w.purpose = .takeover) (l : Loads) :
    p.failSwitchover l = (({ p with feed := p.revertedFeed, fhu := p.revertedFhu b } : Power).transferRefused l b true).afterSwitchover l := by
  have reverted : p.revertSwitchover = { p with feed := p.revertedFeed, fhu := p.revertedFhu b } := by
    unfold Power.revertSwitchover Power.revertedFhu
    rw [kind]
    rfl
  unfold Power.failSwitchover
  rw [flies, bay_eq_some.mpr kind]
  dsimp only
  rw [takeover, reverted]
  rfl

theorem Power.transferRefused_waits (waits : (p.bay b).state = .releaseWait r) (sub : r.sub = .transfer false) (calm : p.calmReturn r) (l : Loads) :
    p.transferRefused l b true = p.putBay b
      { (p.bay b).returned r p.tmb.uptime with blinkEnd := some (p.tmb.uptime + 2000) } ((p.link b).returned r p.tmb.uptime)
      ((p.toFront.noteRefusal b ((p.bay b).returned r p.tmb.uptime).serial r .noTakeover true).completeOwed (p.toFront.owes r)
        (releaseResult b r p.tmb.uptime .noTakeover true)) := by
  unfold Power.transferRefused
  rw [waits]
  dsimp only
  rw [sub]
  exact Power.endRefused_quiet calm l b .noTakeover true

theorem Power.transferRefused_cancelled (waits : (p.bay b).state = .releaseWait r) (sub : r.sub = .transfer true) (calm : p.calmReturn r) (l : Loads)
    (failed : Bool) : p.transferRefused l b failed = p.putBay b ((p.bay b).returned r p.tmb.uptime) ((p.link b).returned r p.tmb.uptime)
      (p.toFront.completeOwed (p.toFront.owes r) (releaseResult b r p.tmb.uptime .cancelled false)) := by
  unfold Power.transferRefused
  rw [waits]
  dsimp only
  rw [sub]
  exact Power.endCancelled_quiet calm l b

theorem Power.transferRefused_elsewhere (waits : (p.bay b).state = .releaseWait r) (sub : ∀ c, r.sub ≠ .transfer c) (l : Loads) (failed : Bool) :
    p.transferRefused l b failed = p := by
  unfold Power.transferRefused
  rw [waits]
  dsimp only
  split
  · exact absurd ‹_› (sub _)
  · exact absurd ‹_› (sub _)
  · rfl

end

/-- What a reverted takeover leaves. -/
def State.Reverted (s : State) (b : Bay) (r : Release) (t : State) : Prop :=
  t.feed = { s.feed with
      switchover := none, failures := if s.feed.failures < 65535 then s.feed.failures + 1 else s.feed.failures }
  ∧ t.fhu = { s.fhu with switches := switchesFor (feedOf b) }
  ∧ FeedEvent { s with inFlight := t.inFlight } t
  ∧ keepsOutside (pageRange .energy :: recordRanges ++ endRanges (owedBy s r)) s.mem t.mem
  ∧ (r.sub = .transfer false → t.bay b = { s.bay b with state := .feeding r.standing, blinkEnd := some (s.tmb.uptime + 2000) }
      ∧ Logged s.toFront t.toFront (.releaseRefused b .noTakeover true r.origin) s.tmb
      ∧ ReleaseEnds b r .noTakeover true s t)
  ∧ (r.sub = .transfer true → t.bay b = { s.bay b with state := .feeding r.standing } ∧ t.log = s.log
      ∧ ReleaseEnds b r .cancelled false s t)

/-- A takeover of the waiting bay `b` is not confirmed: the state after, `p` the bays and FHU as they stood. -/
theorem State.fails_reverted {s : State} (ready : Ready s) {p : Power} {b : Bay} {w : Switchover} {r : Release} (feed : p.feed = s.feed)
    (fhu : p.fhu = s.fhu) (bay : p.bay b = s.bay b) (kind : s.feed.kind = feedOf b) (flies : s.feed.switchover = some w) (takeover : w.purpose = .takeover)
    (waits : (s.bay b).state = .releaseWait r) (former : r.former = .feeding) (no_dc : s.feed.dcPresent = false)
    (none_due : s.fhu.dueInFlight = ⟨false, false⟩) : ∃ t, s.after ((s.beside p).toPower.failSwitchover s.loads) = t
      ∧ t.bay (otherBay b) = p.bay (otherBay b) ∧ t.link (otherBay b) = p.link (otherBay b) ∧ s.Reverted b r t := by
  obtain ⟨q, is⟩ : ∃ q : Power, q = { p with feed := p.revertedFeed, fhu := p.revertedFhu b } := ⟨_, rfl⟩
  have fails := Power.failSwitchover_takeover (p := (s.beside p).toPower) (b := b) (w := w) (by rw [← feed] at flies; exact flies)
    (by rw [← feed] at kind; exact kind) takeover s.loads
  have reverts : ({ (s.beside p).toPower with feed := (s.beside p).toPower.revertedFeed, fhu := (s.beside p).toPower.revertedFhu b } : Power)
      = (s.beside q).toPower := by rw [is]; rfl
  rw [reverts] at fails
  have record : (s.beside q).toPower.bay b = s.bay b := by rw [← bay, is]; cases b <;> rfl
  have waits' : ((s.beside q).toPower.bay b).state = .releaseWait r := by rw [record]; exact waits
  have calm : (s.beside q).toPower.calmReturn r := fun standby => by rw [former] at standby; cases standby
  have qfeed : q.feed = { s.feed with
      switchover := none, failures := if s.feed.failures < 65535 then s.feed.failures + 1 else s.feed.failures } := by
    rw [is, ← feed]
    rfl
  have qfhu : q.fhu = { s.fhu with switches := switchesFor (feedOf b) } := by rw [is, ← fhu]; rfl
  have changed : q.feed ≠ s.feed := fun same => by
    have none_flies : q.feed.switchover = none := by rw [qfeed]
    rw [same, flies] at none_flies
    cases none_flies
  have settle (r' : BayRec) (l' : Link) (f : Front) :
      ((s.beside q).toPower.putBay b r' l' f).afterSwitchover s.loads = (s.beside q).toPower.putBay b r' l' f :=
    Power.afterSwitchover_calm (.inl (by rw [Power.putBay_feed]; show q.feed.dcPresent = false; rw [qfeed]; exact no_dc))
      (by rw [Power.putBay_fhu]; show q.fhu.dueInFlight = _; rw [qfhu]; exact none_due) s.loads
  have other : q.bay (otherBay b) = p.bay (otherBay b) ∧ q.link (otherBay b) = p.link (otherBay b) := by rw [is]; cases b <;> exact ⟨rfl, rfl⟩
  have returned : (s.bay b).returned r s.tmb.uptime = { s.bay b with state := .feeding r.standing } := by
    unfold BayRec.returned
    rw [former]
  rcases sub : r.sub with _ | c | u
  case transfer =>
    cases c
    · rw [Power.transferRefused_waits waits' sub calm, settle, record] at fails
      have notes := s.toFront.noteRefusal_notes b ((s.bay b).returned r s.tmb.uptime).serial r .noTakeover true
      have goes := State.after_beside ready.2 (p := q) (b := b) (r := { (s.bay b).returned r s.tmb.uptime with blinkEnd := some (s.tmb.uptime + 2000) })
        (.inr changed) (((s.beside q).toPower.link b).returned r s.tmb.uptime)
        ((s.toFront.noteRefusal b ((s.bay b).returned r s.tmb.uptime).serial r .noTakeover true).completeOwed (owedBy s r)
          (releaseResult b r s.tmb.uptime .noTakeover true))
      rw [fails]
      obtain ⟨event, tfeed, tfhu, tbay, tlink, kept⟩ := FeedEvent.of_beside (s := { s with inFlight := _ }) (goes.releaseRecordEvent notes)
      refine ⟨_, rfl, tbay.trans other.1, tlink.trans other.2, tfeed.trans qfeed, tfhu.trans qfhu, event, kept, fun _ => ⟨?_, ?_, goes.releaseEnds notes⟩,
        fun cancelled => absurd (sub.symm.trans cancelled) (by simp)⟩
      · exact goes.bay.trans (by rw [returned])
      · exact goes.logged ((s.toFront.noteRefusal_logs b _ r .noTakeover true).later (Front.completeOwed_logGrows _ _ _))
    · rw [Power.transferRefused_cancelled waits' sub calm, settle, record] at fails
      have goes := State.after_beside ready.2 (p := q) (b := b) (r := (s.bay b).returned r s.tmb.uptime)
        (.inr changed) (((s.beside q).toPower.link b).returned r s.tmb.uptime)
        (s.toFront.completeOwed (owedBy s r) (releaseResult b r s.tmb.uptime .cancelled false))
      rw [fails]
      obtain ⟨event, tfeed, tfhu, tbay, tlink, kept⟩ := FeedEvent.of_beside (s := { s with inFlight := _ }) (goes.releaseRecordEvent (.refl s.toFront))
      refine ⟨_, rfl, tbay.trans other.1, tlink.trans other.2, tfeed.trans qfeed, tfhu.trans qfhu, event, kept, fun asked => absurd (sub.symm.trans asked) (by simp),
        fun _ => ⟨?_, ?_, goes.releaseEnds (.refl s.toFront)⟩⟩
      · exact goes.bay.trans returned
      · exact goes.unlogged (s.toFront.completeOwed_beside (r := r) _).1
  all_goals
    have self := (s.beside q).toPower.putBay_self b
    have still := settle ((s.beside q).toPower.bay b) ((s.beside q).toPower.link b) s.toFront
    rw [show (s.beside q).toPower.putBay b _ _ s.toFront = _ from self] at still
    rw [Power.transferRefused_elsewhere waits' (by rw [sub]; nofun), still] at fails
    have goes := State.after_beside ready.2 (p := q) (b := b) (r := (s.beside q).toPower.bay b) (.inr changed) ((s.beside q).toPower.link b) s.toFront
    rw [show (s.beside q).toPower.putBay b _ _ s.toFront = _ from self] at goes
    have list : (s.after (s.beside q).toPower).inFlight = (s.beside q).inFlight :=
      (congrArg Front.inFlight goes.front).trans rfl
    rw [fails]
    have event := goes.recordEvent (.refl s.toFront)
    obtain ⟨event, tfeed, tfhu, tbay, tlink, kept⟩ := FeedEvent.of_beside (s := { s with inFlight := (s.after (s.beside q).toPower).inFlight })
      (t := s.after (s.beside q).toPower) (p := q) (rs := []) (b := b) (by rw [list]; exact event)
    exact ⟨_, rfl, tbay.trans other.1, tlink.trans other.2, tfeed.trans qfeed, tfhu.trans qfhu, event, keepsOutside_mono kept (by simp +contextual),
      fun asked => absurd (sub.symm.trans asked) (by simp), fun cancelled => absurd (sub.symm.trans cancelled) (by simp)⟩

/-! ## Confirmation (R35, step 2) -/

theorem accepts_iff (x : PowerReading) (vMin : Nat) (k : FeedKind) : accepts x vMin k = true ↔ delivers x vMin k := by
  cases k <;> simp [accepts, delivers]

/-- A sample that shows the target of the switchover at its level before the deadline. -/
theorem Power.goodSample_confirms {s : State} {x : PowerReading} {w : Switchover} (no_holdover : s.feed.holdover = none)
    (flies : s.feed.switchover = some w) (early : s.tmb.uptime < w.deadline) (shows_target : delivers x s.feed.vMin w.target) (l : Loads) :
    s.toPower.goodSample l x = (s.measuredPower x).confirmSwitchover l := by
  unfold Power.goodSample
  rw [Power.judgeExhaustion_none (p := s.toPower.recompute x) no_holdover, s.recompute_eq]
  unfold Power.judgeSwitchover
  rw [show (s.measuredPower x).feed.switchover = some w from flies]
  exact if_pos ⟨early, (accepts_iff x s.feed.vMin w.target).mpr shows_target⟩

/-- The state as a good sample leaves it beside the bays and FHU. -/
def State.sensed (s : State) (x : PowerReading) : State := { s with sfe := sampledPower s x, timers := convertedTimers s }

/-- The event of a good sample that a pass follows, `q` its own changes of the bays, FHU and HLD. -/
theorem State.sample_goes {s : State} (ready : Ready s) {x : PowerReading} (due : s.timers.powerSense ≤ s.tmb.uptime) {q : Power}
    (good : s.toPower.goodSample (s.sampled x).loads x = q) (kin : s.toFront.Kin q.toFront) (policy : q.bayPolicy = s.bayPolicy)
    (passes : q.due.any = true) : ∃ t, exec (.powerSenseSample (some x)) s = .next t ∧ (s.sensed x).Goes q t := by
  have passed : ((s.sensed x).toBlocks.withPower q).Passed
      (((s.sampled x).withPower (s.toPower.goodSample (s.sampled x).loads x)).settled (s.toBlocks.withTimers (convertedTimers s))) := by
    rw [good]
    exact Blocks.settled_passed (x := (s.sampled x).withPower q) passes _
  exact ⟨_, exec_powerSenseSample_good ready.1 due x, State.goes_of_passed (s := s.sensed x) ready kin policy passed⟩

/-- What a confirmed switchover leaves of every block, `r` the record of the bay `b` that the feed left. -/
structure State.Confirmed (s : State) (b : Bay) (k : FeedKind) (x : PowerReading) (r : BayRec) (t : State) : Prop where
  kind : t.feed.kind = k
  switchover : t.feed.switchover = none
  holdover : t.feed.holdover = if k = .reservoir then some ⟨true, s.tmb.uptime, false⟩ else none
  lean : k = .reservoir → t.feed.lean = true ∧ t.summary &&& 0x08 ≠ 0
  switches : t.fhu.switches = switchesFor k
  pending : t.feed.pending = ⟨false, false⟩
  shutdown : t.feed.causes = { s.feed.causes with faulted := false, lowCharge := false }
  bay : t.bay b = r
  other : t.bay (otherBay b) = fedBay s (otherBay b) k
  sfe : t.sfe = sampledPower s x
  timers : t.timers = convertedTimers s
  causes : t.bud.causes = ⟨false, true, false, false, false⟩
  hld : t.hld = s.hld
  mot : t.mot = s.mot
  trc : t.trc = s.trc
  event : PassEvent { s with inFlight := t.inFlight } t

theorem State.confirms {s : State} (ready : Ready s) {b : Bay} {k : FeedKind} {x : PowerReading} (due : s.timers.powerSense ≤ s.tmb.uptime)
    (feed : s.feed.kind = feedOf b) (no_holdover : s.feed.holdover = none) {c : MoveCause} {r : BayRec} {l : Link} {f g : Front}
    (good : s.toPower.goodSample (s.sampled x).loads x = ((s.measuredPower x).movedTo c true k f).putBay b r l g)
    (kin : s.toFront.Kin g) (trc : g.trc = s.trc) (up : k = .reservoir → g.summary &&& 0x08 ≠ 0) :
    ∃ t, exec (.powerSenseSample (some x)) s = .next t ∧ s.Confirmed b k x r t
      ∧ (s.sensed x).Goes (((s.measuredPower x).movedTo c true k f).putBay b r l g) t := by
  obtain ⟨q, is⟩ : ∃ q, q = ((s.measuredPower x).movedTo c true k f).putBay b r l g := ⟨_, rfl⟩
  rw [← is] at good ⊢
  have qdue : q.due = ⟨false, true, false, false, false⟩ := by rw [is, Power.putBay_due]; exact feed_due ready
  have qfeed : q.feed = (s.measuredPower x).movedFeed true k := by rw [is, Power.putBay_feed]; rfl
  have qfront : q.toFront = g := by rw [is, Power.putBay_toFront]
  have still : q.feed.pending = ⟨false, false⟩ := by rw [qfeed, Power.movedFeed_pending]
  obtain ⟨t, runs, goes⟩ := s.sample_goes ready due good (by rw [qfront]; exact kin) (by rw [is, Power.putBay_bayPolicy]; rfl) (by rw [qdue]; rfl)
  have tfeed := (goes.feed still).trans qfeed
  refine ⟨t, runs, ⟨?_, ?_, ?_, fun into => ⟨?_, ?_⟩, ?_, ?_, ?_, ?_, ?_, goes.sfe, goes.timers,
    goes.causes.trans qdue, ?_, goes.mot, goes.trc.trans (by rw [qfront]; exact trc), goes.event⟩, goes⟩
  · exact (congrArg FeedRec.kind tfeed).trans (Power.movedFeed_kind _ true k)
  · exact (congrArg FeedRec.switchover tfeed).trans (Power.movedFeed_switchover _ true k)
  · refine (congrArg FeedRec.holdover tfeed).trans ((Power.movedFeed_holdover _ true k).trans ?_)
    rw [show (s.measuredPower x).feed.holdover = none from no_holdover]
    rfl
  · exact (congrArg FeedRec.lean tfeed).trans (Power.movedFeed_lean _ true into)
  · exact goes.pass.raised.up (show q.toFront.summary &&& 0x08 ≠ 0 by rw [qfront]; exact up into)
  · exact (congrArg FhuState.switches (goes.fhu still)).trans (by rw [is, Power.putBay_fhu]; rfl)
  · exact (congrArg FeedRec.pending tfeed).trans (Power.movedFeed_pending _ true k)
  · exact (congrArg FeedRec.causes tfeed).trans (Power.movedFeed_causes _ true k)
  · exact (goes.bay b).trans (by rw [is, Power.putBay_bay])
  · refine (goes.bay (otherBay b)).trans ?_
    rw [is, Power.putBay_bay_other, Power.movedTo_bay]
    exact Power.fedRec_other (by cases b <;> rfl) (by rw [show (s.measuredPower x).feed.kind = _ from feed]; exact feedOf_other_ne b) k c
  · exact goes.hld.trans (by rw [is, Power.putBay_hld]; rfl)

theorem State.Confirmed.plain {s t : State} {b : Bay} {k : FeedKind} {x : PowerReading} {r : BayRec} (h : s.Confirmed b k x r t)
    (list : t.inFlight = s.inFlight) : PassEvent s t := by
  have event := h.event
  rw [list] at event
  exact event

section
variable {p : Power} {b : Bay} {w : Switchover} {r : Release}

theorem Power.confirmSwitchover_takeover (flies : p.feed.switchover = some w) (kind : p.feed.kind = feedOf b)
    (waits : (p.bay b).state.inTransfer = true) (l : Loads) :
    p.confirmSwitchover l = ((p.moveFeed w.target .takeover true).transferConfirmed l b).afterSwitchover l := by
  unfold Power.confirmSwitchover
  rw [flies, bay_eq_some.mpr kind]
  dsimp only
  rw [if_pos waits]

theorem Power.confirmSwitchover_ordinary (flies : p.feed.switchover = some w) (kind : p.feed.kind = feedOf b)
    (apart : (p.bay b).state.inTransfer = false) (l : Loads) :
    p.confirmSwitchover l = ((p.moveFeed w.target .ordinary true).enteredStandby l b).afterSwitchover l := by
  unfold Power.confirmSwitchover
  rw [flies, bay_eq_some.mpr kind]
  dsimp only
  rw [if_neg (by rw [apart]; decide)]

/-- After a move by a confirmed switchover FHU has nothing further to examine. -/
theorem Power.movedTo_calm {k : FeedKind} (dc : p.feed.dcPresent = false ∨ k = .dc) (c : MoveCause) (v : Bool) (f g : Front) (r' : BayRec) (l' : Link)
    (l : Loads) : ((p.movedTo c v k f).putBay b r' l' g).afterSwitchover l = (p.movedTo c v k f).putBay b r' l' g := by
  refine Power.afterSwitchover_calm ?_ (by rw [Power.putBay_fhu]; rfl) l
  rw [Power.putBay_feed]
  exact dc.imp (fun absent => (p.movedFeed_dcPresent v k).trans absent) (fun on_dc => (p.movedFeed_kind v k).trans on_dc)

end

/-- The release of a bay whose takeover by `k` is confirmed (R2, R18). -/
def Release.takenBy (r : Release) (k : FeedKind) : Release :=
  { r with former := leftFormer r.standing, standing := noFaults, takeover := some k }

section
variable {p : Power} {b : Bay} {k : FeedKind} {r : Release} (feed : p.feed.kind = feedOf b) (elsewhere : k ≠ feedOf b)
  (waits : (p.bay b).state = .releaseWait r)

include feed elsewhere waits

/-- The bay from which a takeover moves the feed. -/
theorem Power.movedTo_takenOver (f : Front) : p.movedTo .takeover true k f
    = (p.movedTo .takeover true k f).putBay b { p.bay b with state := .releaseWait (r.takenBy k) }
      (((p.movedTo .takeover true k f)).link b) f := by
  have record : (p.movedTo .takeover true k f).bay b = { p.bay b with state := .releaseWait (r.takenBy k) } := by
    rw [Power.movedTo_bay, Power.fedRec_lost feed elsewhere, waits]
    rfl
  have self := (p.movedTo .takeover true k f).putBay_self b
  rw [record] at self
  exact self.symm

end

section
variable {p : Power} {b : Bay} {x : Release} {r : BayRec} {k : Link} {f : Front} (waits : r.state = .releaseWait x) (l : Loads)

include waits

theorem Power.putBay_transferConfirmed_held (sub : x.sub = .transfer false) (held : p.hld.demand b = true) (early : f.tmb.uptime < x.limitAt) :
    ∃ k', (p.putBay b r k f).transferConfirmed l b = p.putBay b { r with state := .releaseWait { x with sub := .held } } k' f := by
  have tmb : (p.putBay b r k f).tmb = f.tmb := by cases b <;> rfl
  refine ⟨_, Eq.trans ?_ (p.putBay_setState b r k f _)⟩
  unfold Power.transferConfirmed
  rw [Power.putBay_bay, waits]
  dsimp only
  rw [sub]
  dsimp only
  rw [Power.putBay_hld, if_pos held]
  unfold Power.enterHeld
  dsimp only
  rw [tmb, if_neg (by omega)]

theorem Power.putBay_transferConfirmed_unlatches (sub : x.sub = .transfer false) (free : p.hld.demand b = false) (closed : r.latchOpen = false) :
    ∃ k', (p.putBay b r k f).transferConfirmed l b
      = p.putBay b { r with state := .releaseWait { x with sub := .unlatching (f.tmb.uptime + 500) } } k' f := by
  refine ⟨_, Eq.trans ?_ (p.putBay_enterUnlatching_closed b r k f x closed)⟩
  unfold Power.transferConfirmed
  rw [Power.putBay_bay, waits]
  dsimp only
  rw [sub]
  dsimp only
  rw [Power.putBay_hld, if_neg (by rw [free]; decide)]

theorem Power.putBay_transferConfirmed_cancelled (sub : x.sub = .transfer true) (calm : p.calmReturn x) :
    ∃ k', (p.putBay b r k f).transferConfirmed l b = p.putBay b (r.returned x f.tmb.uptime) k'
      (f.completeOwed (f.owes x) (releaseResult b x f.tmb.uptime .cancelled false)) := by
  have tmb : (p.putBay b r k f).tmb = f.tmb := by cases b <;> rfl
  refine ⟨k.returned x f.tmb.uptime, ?_⟩
  have ends := Power.endCancelled_quiet (p := p.putBay b r k f) (x := x) (fun standby => by rw [Power.putBay_feed]; exact calm standby) l b
  rw [tmb, Power.putBay_bay, Power.putBay_link, Power.putBay_toFront] at ends
  unfold Power.transferConfirmed
  rw [Power.putBay_bay, waits]
  dsimp only
  rw [sub]
  dsimp only
  rw [ends]
  cases b <;> rfl

end

/-! ## The rows -/

theorem exec_switchoverDeadline_due {s : State} {w : Switchover} (on : s.powered = true) (flies : s.feed.switchover = some w)
    (due : w.deadline ≤ s.tmb.uptime) : exec .switchoverDeadline s = .next (s.after (s.toPower.failSwitchover s.loads)) := by
  rw [exec_switchoverDeadline, s.whilePowered_on _ on, flies, Option.map_some, Blocks.whenDue_due _ w.deadline _ due]
  rfl

/-- Presence opening on the STANDBY bay that is the target of the switchover (R36). -/
theorem Power.unseat_target {p : Power} {b : Bay} {w : Switchover} (standby : (p.bay b).state = .standby) (not_feed : p.feed.kind ≠ feedOf b)
    (flies : p.feed.switchover = some w) (target : w.target = feedOf b) (l : Loads) :
    p.unseat l b = (p.putBay b (p.bay b).emptied idleLink p.toFront).failSwitchover l := by
  unfold Power.unseat
  rw [standby, p.setBay_eq, Power.putBay_setLink]
  dsimp only
  rw [Power.putBay_feed, if_neg not_feed]
  refine (if_pos rfl).trans ?_
  unfold Power.leftStandby
  rw [Power.putBay_feed, flies]
  exact if_pos target

/-- Settles O16. -/
theorem takeoversAreConfirmedOrReverted : Obligations.TakeoversAreConfirmedOrReverted := by
  intro b w r s ready kind flies elsewhere waits k o
  refine ⟨fun x due early shows_target dc no_holdover => ?_, fun takeover former no_dc none_due => ?_⟩
  · intro confirmed
    have confirms := Power.goodSample_confirms no_holdover flies early shows_target (s.sampled x).loads
    obtain ⟨f, moves, tells, log, up⟩ := Power.moveFeed_moved (p := s.measuredPower x) (by rw [show (s.measuredPower x).feed.kind = _ from kind]; exact feedOf_ne_reservoir b)
      k .takeover true
    rw [Power.movedTo_takenOver (p := s.measuredPower x) kind elsewhere (r := r) (by cases b <;> exact waits)] at moves
    have bay : (s.measuredPower x).bay b = s.bay b := by cases b <;> rfl
    rw [bay] at moves
    have asks {c : Bool} (sub : r.sub = .transfer c) : s.toPower.goodSample (s.sampled x).loads x
        = (((s.measuredPower x).moveFeed k .takeover true).transferConfirmed (s.sampled x).loads b).afterSwitchover (s.sampled x).loads := by
      refine confirms.trans (Power.confirmSwitchover_takeover (p := s.measuredPower x) flies kind ?_ _)
      rw [bay, waits]
      unfold BayState.inTransfer
      dsimp only
      rw [sub]
    have tmb : f.tmb = s.tmb := tells.kin.tmb
    refine ⟨fun sub hold => ?_, fun sub onto => ?_⟩
    · have goes_on : ∃ k', ((s.measuredPower x).moveFeed k .takeover true).transferConfirmed (s.sampled x).loads b
          = ((s.measuredPower x).movedTo .takeover true k f).putBay b { s.bay b with
              state := .releaseWait { r.takenBy k with
                sub := if s.hld.demand b then .held else .unlatching (s.tmb.uptime + 500) } } k' f := by
        rw [moves]
        rcases hold with ⟨held, early⟩ | ⟨free, closed⟩
        · rw [held]
          exact Power.putBay_transferConfirmed_held rfl _ sub held (by rw [tmb]; exact early)
        · rw [free, ← tmb]
          exact Power.putBay_transferConfirmed_unlatches rfl _ sub free closed
      obtain ⟨k', goes_on⟩ := goes_on
      have good := asks sub
      rw [goes_on, Power.movedTo_calm (p := s.measuredPower x) dc] at good
      obtain ⟨t, runs, c, goes⟩ := State.confirms ready due kind no_holdover good tells.kin tells.trc up
      have list : t.inFlight = s.inFlight := goes.inFlight.trans (by rw [Power.putBay_toFront]; exact tells.list)
      exact ⟨t, ⟨runs, c.kind, c.switchover, c.holdover, c.lean, c.switches, c.other, c.sfe, c.timers, c.causes, c.hld, c.mot, c.trc⟩, c.bay, c.plain list,
        goes.kept_plain (by rw [Power.putBay_toFront]; exact tells.keptPass)⟩
    · obtain ⟨k', ends⟩ := Power.putBay_transferConfirmed_cancelled (p := (s.measuredPower x).movedTo .takeover true k f) (b := b) (x := r.takenBy k)
        (r := { s.bay b with state := .releaseWait (r.takenBy k) }) (k := ((s.measuredPower x).movedTo .takeover true k f).link b) (f := f) rfl
        (s.sampled x).loads sub (fun _ => ⟨(Power.movedFeed_kind _ true k).symm ▸ onto, Power.movedFeed_pending _ true k⟩)
      have owed : f.owes (r.takenBy k) = owedBy s r := (Front.owes_congr tells.list r)
      rw [owed, tmb] at ends
      have good := asks sub
      rw [moves, ends, Power.movedTo_calm (p := s.measuredPower x) dc] at good
      have completed := Front.completeOwed_ended (o := owedBy s r) owed (releaseResult b (r.takenBy k) s.tmb.uptime .cancelled false)
      obtain ⟨mem, shape, own⟩ := f.completeOwed_fields (o := owedBy s r) owed (releaseResult b (r.takenBy k) s.tmb.uptime .cancelled false)
      have own : keepsOutside (endRanges (owedBy s r)) f.mem (f.completeOwed (owedBy s r) (releaseResult b (r.takenBy k) s.tmb.uptime .cancelled false)).mem := by
        rw [shape]; exact own
      obtain ⟨t, runs, c, goes⟩ := State.confirms ready due kind no_holdover good (tells.kin.trans (f.completeOwed_kin _ _))
        (by rw [shape]; exact tells.trc) (fun into => absurd into onto)
      have left : t.bay b = { s.bay b with state := leftState r.standing } := by
        refine c.bay.trans ?_
        unfold BayRec.returned Release.takenBy leftFormer leftState
        cases leftWith r.standing <;> rfl
      refine ⟨t, ⟨runs, c.kind, c.switchover, c.holdover, c.lean, c.switches, c.other, c.sfe, c.timers, c.causes, c.hld, c.mot, c.trc⟩, left, ?_, c.event,
        goes.kept (keepsOutside_trans (keepsOutside_mono tells.keptPass fun _ mem => List.mem_append_left _ mem) ?_)⟩
      · have ended := goes.releaseEnds (b := b) (x := r.takenBy k) (code := .cancelled) (failed := false)
          (by rw [Power.putBay_toFront]; exact completed.earlier tells.list)
        exact ended
      · rw [Power.putBay_toFront]
        exact keepsOutside_mono own fun _ mem => List.mem_append_right _ mem
  · intro reverted
    refine ⟨fun due => ?_, fun target standby => ?_⟩
    · obtain ⟨t, is, bay, link, back⟩ := State.fails_reverted (p := s.toPower) (b := b) (w := w) (r := r) ready rfl rfl (by cases b <;> rfl) kind flies
        takeover waits former no_dc none_due
      exact ⟨t, (exec_switchoverDeadline_due ready.1 flies due).trans (congrArg _ is), bay.trans (by cases b <;> rfl), link.trans (by cases b <;> rfl), back⟩
    · have apart : s.feed.kind ≠ feedOf o := by rw [kind]; exact feedOf_other_ne b
      obtain ⟨t, is, bay, link, back⟩ := State.fails_reverted (p := s.toPower.putBay o (s.bay o).emptied idleLink s.toFront) (b := b) (w := w) (r := r)
        ready (by simp) (by simp) (by cases b <;> rfl) kind flies takeover waits former no_dc none_due
      refine ⟨t, ?_, bay.trans (by cases b <;> rfl), link.trans (by cases b <;> rfl), back⟩
      rw [exec_presenceOpened_apart ready (by rw [standby]; nofun) apart, Power.unseat_target (p := s.toPower) standby apart flies target, ← is]
      refine congrArg (fun q => Host.Outcome.next (s.after (Power.failSwitchover q s.loads))) ?_
      cases b <;> rfl

end Sys2Proof.Machine
end

section
/-! PROOF. What a poll finds on the feed bay, and the moves that FHU seeks for it (R11, R12, R33 to R35). -/

namespace Sys2Proof.Machine

open Sys2Proof.Safety

theorem Power.putBay_tmb (p : Power) (b : Bay) (r : BayRec) (l : Link) (f : Front) : (p.putBay b r l f).tmb = f.tmb := by cases b <;> rfl

/-! ## FHU seeks a move -/

theorem Power.startSwitchover_eq {p : Power} {b : Bay} (kind : p.feed.kind = feedOf b) (k : FeedKind) (u : Purpose) : p.startSwitchover k u = { p with
    feed := { p.feed with switchover := some ⟨k, u, p.tmb.uptime + 20⟩ }, fhu := { p.fhu with switches := pathsTo b k } } := by
  unfold Power.startSwitchover pathsTo
  rw [kind]
  rfl

section
variable {s : State} {p : Power} {b : Bay} (feed : p.feed = s.feed) (kind : s.feed.kind = feedOf b) (other : p.bay (otherBay b) = s.bay (otherBay b))
  (fhu : p.fhu = s.fhu) (tmb : p.tmb = s.tmb)

include feed kind other fhu tmb

/-- FHU seeks a fault move, no other pending (R34). -/
theorem Power.examineFault_sought (hld : p.hld = s.hld) {reservoir : Bool} (may : ((p.bay b).state.standing.pack || (p.bay b).state.standing.thermal) = reservoir) :
    p.examineFault s.loads b = { p with feed := faultSought s b reservoir, fhu := faultPaths s b reservoir } := by
  have found := State.findSource_eq (s := s) (p := p) (b := b) (by rw [feed]) other fhu hld reservoir
  unfold Power.examineFault
  dsimp only
  rw [may, found]
  unfold faultSought faultPaths commanded
  cases sourceFor s b reservoir with
  | none =>
    unfold Power.recordFaulted
    dsimp only
    rw [feed, fhu]
  | some k =>
    dsimp only
    rw [Power.startSwitchover_eq (b := b) (by rw [feed]; exact kind)]
    dsimp only
    rw [feed, fhu, tmb]

theorem Power.seekFaultMove_sought (hld : p.hld = s.hld) (none_flies : s.feed.switchover = none) (none_pends : s.feed.pending = ⟨false, false⟩) {reservoir : Bool}
    (may : ((p.bay b).state.standing.pack || (p.bay b).state.standing.thermal) = reservoir) :
    p.seekFaultMove s.loads b = { p with feed := faultSought s b reservoir, fhu := faultPaths s b reservoir } := by
  unfold Power.seekFaultMove
  rw [feed, none_flies, none_pends]
  exact Power.examineFault_sought feed kind other fhu tmb hld may

/-- FHU seeks a changeover, no other move pending (R33). -/
theorem Power.seekChangeover_sought (none_flies : s.feed.switchover = none) (none_pends : s.feed.pending = ⟨false, false⟩) :
    p.seekChangeover s.loads b = if byOther s b
      then { p with feed := commanded s (feedOf (otherBay b)) .changeover s.feed.lastPlan, fhu := { s.fhu with switches := pathsTo b (feedOf (otherBay b)) } }
      else { p with feed := { s.feed with pending := ⟨false, true⟩, causes := { s.feed.causes with lowCharge := true } } } := by
  have qualifies : (p.bay (otherBay b)).qualifies s.loads = byOther s b := by
    rw [other]
    rfl
  unfold Power.seekChangeover
  rw [feed, none_flies, none_pends]
  unfold Power.examineChangeover
  rw [qualifies]
  dsimp only
  rw [if_neg (by decide), if_neg (by decide), Power.startSwitchover_eq (b := b) (by rw [feed]; exact kind)]
  unfold Power.recordLow commanded
  rw [feed, fhu, tmb, none_pends]

end

/-! ## A finding joins the standing faults (R12) -/

theorem Power.putBay_addStanding {s : State} {b : Bay} {r : BayRec} {x : FaultSet} {y : Standing} (kind : s.feed.kind = feedOf b)
    (none_flies : s.feed.switchover = none) (none_pends : s.feed.pending = ⟨false, false⟩) (feeding : r.state = .feeding x) (fresh : x.has y = false)
    (l : Link) {f : Front} (time : f.tmb = s.tmb) {reservoir : Bool} (may : ((x.put y true).pack || (x.put y true).thermal) = reservoir) :
    (s.toPower.putBay b r l f).addStanding s.loads b y = { s.toPower.putBay b { r with state := .feeding (x.put y true) } l
        (f.makeRecord (.packFault b y.reason r.serial)) with feed := faultSought s b reservoir, fhu := faultPaths s b reservoir } := by
  unfold Power.addStanding
  rw [Power.putBay_bay, feeding]
  dsimp only
  rw [show (BayState.feeding x).standing.has y = false from fresh, if_neg (by decide), Power.putBay_setState, Link.under_of_polls rfl,
    Power.putBay_packFault]
  obtain ⟨q, is⟩ : ∃ q, q = s.toPower.putBay b { r with state := .feeding (x.put y true) } l (f.makeRecord (.packFault b y.reason r.serial)) := ⟨_, rfl⟩
  have later : (f.makeRecord (.packFault b y.reason r.serial)).tmb = s.tmb := (f.makeRecord_notes _).tmb.trans time
  have feed : q.feed = s.feed := by rw [is, Power.putBay_feed]
  have bay : (q.bay b).state = .feeding (x.put y true) := by rw [is, Power.putBay_bay]
  have sought := Power.seekFaultMove_sought (s := s) (p := q) (b := b) (reservoir := reservoir) feed kind (by rw [is, Power.putBay_bay_other])
    (by rw [is, Power.putBay_fhu]) (by rw [is, Power.putBay_tmb, later]) (by rw [is, Power.putBay_hld]) none_flies none_pends
    (by rw [bay]; exact may)
  rw [is] at sought
  exact sought

/-! ## The event -/

/-- What an event of the feed bay `b` leaves that makes records and has FHU seek a move. -/
structure State.Found (s : State) (b : Bay) (r : BayRec) (l : Link) (y : FeedRec) (u : FhuState) (f : Front) (t : State) : Prop where
  bay : t.bay b = r
  link : t.link b = l
  feed : t.feed = y
  fhu : t.fhu = u
  event : FeedEvent s t ∧ t.bay (otherBay b) = s.bay (otherBay b) ∧ t.link (otherBay b) = s.link (otherBay b)
    ∧ keepsOutside (pageRange .energy :: recordRanges) s.mem t.mem
  logged : ∀ x, s.toFront.Logs f x s.tmb → Logged s.toFront t.toFront x s.tmb
  line : t.pins.shutdownRequest = y.causes.line

theorem State.after_found {s : State} (ready : Ready s) {b : Bay} {r : BayRec} {feed : FeedRec} {f : Front} (notes : s.toFront.Notes f)
    (changed : r.listed ≠ (s.bay b).listed ∨ feed ≠ s.feed) (l : Link) (fhu : FhuState) :
    s.Found b r l feed fhu f (s.after { s.toPower.putBay b r l f with feed := feed, fhu := fhu }) := by
  have goes := State.after_beside ready.2 (p := { s.toPower with feed := feed, fhu := fhu }) (b := b) changed l f
  rw [show (s.beside { s.toPower with feed := feed, fhu := fhu }).toPower.putBay b r l f
    = { s.toPower.putBay b r l f with feed := feed, fhu := fhu } by cases b <;> rfl] at goes
  have event := goes.recordEvent notes
  generalize s.after { s.toPower.putBay b r l f with feed := feed, fhu := fhu } = t at goes event ⊢
  obtain ⟨event, tfeed, tfhu, bay, link, kept⟩ := FeedEvent.of_beside (s := s) event
  rw [List.append_nil] at kept
  refine ⟨goes.bay, goes.link, tfeed, tfhu, ⟨event, bay.trans (by cases b <;> rfl), link.trans (by cases b <;> rfl), kept⟩,
    fun x logs => goes.logged logs, ?_⟩
  rw [← congrArg FeedRec.causes tfeed]
  exact congrArg (fun u : State => u.pins.shutdownRequest) goes.rest

/-! ## The findings of a poll (R11, R12, R33) -/

section
variable {p : Power} {b : Bay} {r : BayRec} {l : Link} {f : Front} {k : PackState} {ld : Loads}

theorem Power.putBay_judgePoll_feed (kind : p.feed.kind = feedOf b) :
    (p.putBay b r l f).judgePoll ld b k = (p.putBay b r l f).judgeFeed ld b k := by
  unfold Power.judgePoll
  rw [Power.putBay_feed, if_pos kind]

theorem Power.polledFeed_high (kind : p.feed.kind = feedOf b) (high : 3 < k.soc) : p.polledFeed ld b k = p := by
  unfold Power.polledFeed
  rw [if_pos kind, if_neg (by omega)]

theorem Power.polledFeed_low (kind : p.feed.kind = feedOf b) (low : k.soc ≤ 3) : p.polledFeed ld b k = p.seekChangeover ld b := by
  unfold Power.polledFeed
  rw [if_pos kind, if_pos low]

/-- Without THERMAL standing, a poll that finds neither a fault nor 600 dC leaves the bay as it is. -/
theorem Power.putBay_judgeFeed_well {x : FaultSet} (feeding : r.state = .feeding x) (well : ¬ k.faulty = true) (cold : k.temperature < 600)
    (fresh : x.thermal = false) : (p.putBay b r l f).judgeFeed ld b k = p.putBay b r l f := by
  unfold Power.judgeFeed
  rw [if_neg well, if_neg (by omega)]
  split
  · unfold Power.dropThermal
    rw [Power.putBay_bay, feeding]
    exact if_neg (by rw [show (BayState.feeding x).standing.thermal = false from fresh]; decide)
  · rfl

/-- Cooling removes THERMAL, the last reason; the move for it is withdrawn (R11, R34). -/
theorem Power.putBay_judgeFeed_cools (feeding : r.state = .feeding ⟨false, true, false⟩) (well : ¬ k.faulty = true) (cool : k.temperature < 550) :
    (p.putBay b r l f).judgeFeed ld b k = { p.putBay b { r with state := .feeding noFaults } l f with
      feed := { p.feed with pending := { p.feed.pending with faulted := false }, causes := { p.feed.causes with faulted := false } }
      fhu := { p.fhu with dueInFlight := { p.fhu.dueInFlight with faulted := false } } } := by
  unfold Power.judgeFeed
  rw [if_neg well, if_neg (by omega), if_pos cool]
  unfold Power.dropThermal
  rw [Power.putBay_bay, feeding]
  refine (if_pos rfl).trans ?_
  refine (if_pos rfl).trans ?_
  rw [Power.putBay_setState, Link.under_of_polls rfl]
  cases b <;> rfl

end

theorem FaultSet.put_ne {x : FaultSet} {y : Standing} (fresh : x.has y = false) : x.put y true ≠ x := by
  intro same
  rw [← same] at fresh
  cases y <;> cases fresh

/-- A finding that joins the standing faults changes what the energy page shows. -/
theorem BayRec.listed_finding {r q : BayRec} {x : FaultSet} {y : Standing} (feeding : r.state = .feeding x) (fresh : x.has y = false)
    (state : q.state = .feeding (x.put y true)) : q.listed ≠ r.listed := by
  refine BayRec.listed_ne_of_state ?_
  rw [feeding, state]
  exact fun same => FaultSet.put_ne fresh (BayState.feeding.inj same)

section
variable {s : State} {b : Bay} {x : FaultSet} {k : PackState} (ready : Ready s) (kind : s.feed.kind = feedOf b) (feeding : (s.bay b).state = .feeding x)

include ready kind feeding

/-- A poll of the feed bay that finds a fault and leaves more than 3 % of charge. -/
theorem State.polled_finds {y : Standing} (none_flies : s.feed.switchover = none) (none_pends : s.feed.pending = ⟨false, false⟩) (high : 3 < k.soc)
    (fresh : x.has y = false) (reserve : ((x.put y true).pack || (x.put y true).thermal) = true)
    (judged : ∀ p : Power, p.judgeFeed s.loads b k = p.addStanding s.loads b y) : ∃ f t, s.after (s.toPower.pollGood s.loads b k) = t
      ∧ s.Found b { (s.bay b).polled k s.tmb.uptime with state := .feeding (x.put y true) } { s.link b with activity := .idle }
          (faultSought s b true) (faultPaths s b true) f t
      ∧ (monitorsOff s → s.toFront.Logs f (.packFault b y.reason (s.bay b).serial) s.tmb) := by
  have sent := s.toFront.sendEvent_notes (packHot b k.temperature)
  have notes := (s.toFront.sendEvent (packHot b k.temperature)).makeRecord_notes (.packFault b y.reason (s.bay b).serial)
  have found := Power.putBay_addStanding (s := s) (b := b) (r := (s.bay b).polled k s.tmb.uptime) (y := y) kind none_flies none_pends feeding fresh
    { s.link b with activity := .idle } sent.tmb (reservoir := true) reserve
  have moved : (faultSought s b true).kind = s.feed.kind := by
    unfold faultSought commanded
    split <;> rfl
  refine ⟨_, _, ?_, State.after_found ready (sent.trans notes) (.inl (BayRec.listed_finding feeding fresh rfl)) _ _, fun off => ?_⟩
  · rw [s.toPower.pollGood_eq, s.toPower.takePoll_put, Power.putBay_judgePoll_feed kind, judged, show (s.toPower.putBay b _ _ _).addStanding s.loads b y = _ from found,
      Power.polledFeed_high (moved.trans kind) high]
    rfl
  · rw [State.sendEvent_off off]
    exact s.toFront.makeRecord_logs _

end


section
variable {s : State} {b : Bay} {x : FaultSet} {k : PackState} (ready : Ready s) (kind : s.feed.kind = feedOf b) (feeding : (s.bay b).state = .feeding x)

include kind feeding

/-- A poll of the feed bay that finds nothing and leaves 3 % of charge or less. -/
theorem State.polled_low (none_flies : s.feed.switchover = none) (none_pends : s.feed.pending = ⟨false, false⟩) (low : k.soc ≤ 3)
    (well : ¬ k.faulty = true) (cold : k.temperature < 600) (fresh : x.thermal = false) :
    s.toPower.pollGood s.loads b k = { s.toPower.putBay b ((s.bay b).polled k s.tmb.uptime) { s.link b with activity := .idle }
        (s.toFront.sendEvent (packHot b k.temperature)) with
      feed := if byOther s b then commanded s (feedOf (otherBay b)) .changeover s.feed.lastPlan
        else { s.feed with pending := ⟨false, true⟩, causes := { s.feed.causes with lowCharge := true } }
      fhu := if byOther s b then { s.fhu with switches := pathsTo b (feedOf (otherBay b)) } else s.fhu } := by
  obtain ⟨q, is⟩ : ∃ q, q = s.toPower.putBay b ((s.bay b).polled k s.tmb.uptime) { s.link b with activity := .idle }
      (s.toFront.sendEvent (packHot b k.temperature)) := ⟨_, rfl⟩
  have feed : q.feed = s.feed := by rw [is, Power.putBay_feed]
  have fhu : q.fhu = s.fhu := by rw [is, Power.putBay_fhu]
  have judged : s.toPower.pollGood s.loads b k = q.seekChangeover s.loads b := by
    rw [s.toPower.pollGood_eq, s.toPower.takePoll_put, Power.putBay_judgePoll_feed kind,
      Power.putBay_judgeFeed_well (r := (s.bay b).polled k s.tmb.uptime) (x := x) feeding well cold fresh, show s.toPower.putBay b _ _ _ = q from is.symm]
    exact Power.polledFeed_low (feed ▸ kind) low
  have sought := Power.seekChangeover_sought (s := s) (p := q) (b := b) feed kind (by rw [is, Power.putBay_bay_other]) fhu
    (by rw [is, Power.putBay_tmb]; exact (s.toFront.sendEvent_notes _).tmb) none_flies none_pends
  rw [judged, sought]
  split
  · rw [is]
  · rw [is, ← fhu, is]

/-- A poll of the feed bay that finds its last reason, THERMAL, gone. -/
theorem State.polled_cools (last : x = ⟨false, true, false⟩) (high : 3 < k.soc) (well : ¬ k.faulty = true) (cool : k.temperature < 550) :
    s.toPower.pollGood s.loads b k = { s.toPower.putBay b { (s.bay b).polled k s.tmb.uptime with state := .feeding noFaults }
        { s.link b with activity := .idle } (s.toFront.sendEvent (packHot b k.temperature)) with
      feed := { s.feed with pending := { s.feed.pending with faulted := false }, causes := { s.feed.causes with faulted := false } }
      fhu := { s.fhu with dueInFlight := { s.fhu.dueInFlight with faulted := false } } } := by
  subst last
  rw [s.toPower.pollGood_eq, s.toPower.takePoll_put, Power.putBay_judgePoll_feed kind, Power.putBay_judgeFeed_cools (r := (s.bay b).polled k s.tmb.uptime) feeding well cool]
  exact Power.polledFeed_high kind high

end

/-- The third failed poll of the feed bay (R9, R12). -/
theorem Power.pollBad_feed {s : State} {b : Bay} {x : FaultSet} (kind : s.feed.kind = feedOf b) (feeding : (s.bay b).state = .feeding x)
    (third : (s.bay b).failedPolls = 2) (fresh : x.link = false) (none_flies : s.feed.switchover = none) (none_pends : s.feed.pending = ⟨false, false⟩) :
    s.toPower.pollBad s.loads b = { s.toPower.putBay b { s.bay b with state := .feeding { x with link := true }, failedPolls := 3 }
        { s.link b with activity := .idle } (s.toFront.makeRecord (.packFault b .link (s.bay b).serial)) with
      feed := faultSought s b (x.pack || x.thermal), fhu := faultPaths s b (x.pack || x.thermal) } := by
  rw [Power.pollBad_third (p := s.toPower) third]
  unfold Power.linkLost
  rw [Power.putBay_feed, if_pos kind]
  exact Power.putBay_addStanding (y := .link) (x := x) kind none_flies none_pends (by exact feeding) fresh { s.link b with activity := .idle }
    (f := s.toFront) rfl rfl

/-! ## Another bay takes a pending move (R34) -/

theorem FeedRec.low_again {f : FeedRec} (low : f.pending.lowCharge = true) : ({ f with pending := { f.pending with lowCharge := true } } : FeedRec) = f := by
  rw [← low]

theorem Power.reexamine_other {s : State} {p : Power} {b : Bay} (feed : p.feed = s.feed) (fhu : p.fhu = s.fhu) (tmb : p.tmb = s.tmb)
    (kind : s.feed.kind = feedOf b) (none_flies : s.feed.switchover = none) (no_dc : s.feed.dcPresent = false)
    (pends : s.feed.pending ≠ ⟨false, false⟩) (qualifies : (p.bay (otherBay b)).qualifies s.loads = true) : p.reexamine s.loads = { p with
      feed := commanded s (feedOf (otherBay b)) (if s.feed.pending.faulted then .faultMove else .changeover) s.feed.lastPlan
      fhu := { s.fhu with switches := pathsTo b (feedOf (otherBay b)) } } := by
  have starts (u : Purpose) : p.startSwitchover (feedOf (otherBay b)) u = { p with
      feed := commanded s (feedOf (otherBay b)) u s.feed.lastPlan, fhu := { s.fhu with switches := pathsTo b (feedOf (otherBay b)) } } := by
    rw [Power.startSwitchover_eq (b := b) (by rw [feed]; exact kind), fhu, tmb]
    unfold commanded
    rw [feed]
  have fault : p.examineFault s.loads b = p.startSwitchover (feedOf (otherBay b)) .faultMove := by
    unfold Power.examineFault Power.findSource
    dsimp only
    rw [feed, no_dc, if_neg (by decide), if_pos qualifies]
  unfold Power.reexamine
  rw [feed, bay_eq_some.mpr kind]
  dsimp only
  rw [none_flies]
  refine (if_neg (by decide)).trans ?_
  cases faulted : s.feed.pending.faulted
  · have low : s.feed.pending.lowCharge = true := by
      cases low : s.feed.pending.lowCharge
      · exact absurd (congrArg₂ MoveSet.mk faulted low : (⟨s.feed.pending.faulted, s.feed.pending.lowCharge⟩ : MoveSet) = _) pends
      · rfl
    rw [low]
    refine (if_neg (by decide)).trans ((if_pos rfl).trans ?_)
    unfold Power.examineChangeover
    rw [if_pos qualifies]
    exact starts .changeover
  · refine (if_pos rfl).trans ?_
    cases low : s.feed.pending.lowCharge
    · exact (if_neg (by decide)).trans (fault.trans (starts .faultMove))
    · refine (if_pos rfl).trans ?_
      have again : ({ p with feed := { p.feed with pending := { p.feed.pending with lowCharge := true } } } : Power) = p := by
        rw [FeedRec.low_again (by rw [feed]; exact low)]
      unfold Power.examineBoth
      dsimp only
      rw [again, fault, starts]
      exact if_pos rfl


/-- The other bay `o` of the feed bay `b` is identified, qualifies and takes the pending move (R8, R34). -/
theorem Power.identified_taken {s : State} {b : Bay} {k : PackState} (kind : s.feed.kind = feedOf b) (none_flies : s.feed.switchover = none)
    (no_dc : s.feed.dcPresent = false) (pends : s.feed.pending ≠ ⟨false, false⟩) (well : ¬ k.faulty = true) (cold : k.temperature < 600)
    (charged : 5 ≤ k.soc) (strong : s.sfe.power.pSys ≤ ({ s.bay (otherBay b) with packState := some k } : BayRec).power) :
    s.toPower.identified s.loads (otherBay b) k = { s.toPower.putBay (otherBay b) { (s.bay (otherBay b)).filled k with state := .standby }
        ((s.link (otherBay b)).polling s.tmb.uptime) s.toFront with
      feed := commanded s (feedOf (otherBay b)) (if s.feed.pending.faulted then .faultMove else .changeover) s.feed.lastPlan
      fhu := { s.fhu with switches := pathsTo b (feedOf (otherBay b)) } } := by
  have source : s.feed.kind ≠ .reservoir := by rw [kind]; exact feedOf_ne_reservoir b
  obtain ⟨q, is⟩ : ∃ q, q = s.toPower.putBay (otherBay b) { (s.bay (otherBay b)).filled k with state := .standby }
      ((s.link (otherBay b)).polling s.tmb.uptime) s.toFront := ⟨_, rfl⟩
  have feed : q.feed = s.feed := by rw [is, Power.putBay_feed]
  have record : q.bay (otherBay b) = { (s.bay (otherBay b)).filled k with state := .standby } := by rw [is, Power.putBay_bay]
  have qualifies : (q.bay (otherBay b)).qualifies s.loads = true := by
    rw [record]
    unfold BayRec.qualifies BayRec.candidate
    exact Bool.and_eq_true_iff.mpr ⟨Bool.and_eq_true_iff.mpr ⟨rfl, decide_eq_true charged⟩, decide_eq_true strong⟩
  have entered : s.toPower.identified s.loads (otherBay b) k = q.enteredStandby s.loads (otherBay b) := by
    rw [Power.identified_eq, Power.fillPackState_put, if_neg well, if_neg (by omega), Power.putBay_feed, if_neg (fun both => source both.1),
      Power.putBay_setState, Link.under_of_polls rfl, is]
  rw [entered]
  unfold Power.enteredStandby
  rw [record]
  refine (if_pos rfl).trans ?_
  rw [feed, if_neg source, Power.reexamine_other feed (by rw [is, Power.putBay_fhu]) (by rw [is, Power.putBay_tmb]) kind none_flies
    no_dc pends qualifies, is]

/-! ## A confirmed move leaves the bay (R2, R35) -/

theorem leftState_standby {f : FaultSet} (standby : (leftState f).isStandby = true) : f = noFaults := by
  obtain ⟨link, thermal, pack⟩ := f
  revert standby
  cases link <;> cases thermal <;> cases pack <;> decide

theorem Power.movedTo_left {p : Power} {b : Bay} {f : FaultSet} {k : FeedKind} (kind : p.feed.kind = feedOf b) (elsewhere : k ≠ feedOf b)
    (feeding : (p.bay b).state = .feeding f) (v : Bool) (g : Front) :
    (p.movedTo .ordinary v k g).bay b = { p.bay b with state := leftState f } := by
  rw [Power.movedTo_bay, Power.fedRec_lost kind elsewhere, feeding]
  rfl


/-- A confirmed fault move or changeover (R35, step 2). -/
theorem State.confirms_move {s : State} (ready : Ready s) {b : Bay} {f : FaultSet} {w : Switchover} {x : PowerReading} (kind : s.feed.kind = feedOf b)
    (feeding : (s.bay b).state = .feeding f) (flies : s.feed.switchover = some w) (elsewhere : w.target ≠ feedOf b)
    (due : s.timers.powerSense ≤ s.tmb.uptime) (early : s.tmb.uptime < w.deadline) (shows_target : delivers x s.feed.vMin w.target)
    (dc : s.feed.dcPresent = false ∨ w.target = .dc) (no_holdover : s.feed.holdover = none) (faulty : w.target = .reservoir → f ≠ noFaults) :
    ∃ t, exec (.powerSenseSample (some x)) s = .next t ∧ s.Confirmed b w.target x { s.bay b with state := leftState f } t
      ∧ t.inFlight = s.inFlight ∧ keepsOutside passRanges s.mem t.mem := by
  have bay : (s.measuredPower x).bay b = s.bay b := by cases b <;> rfl
  obtain ⟨g, moves, tells, log, up⟩ := Power.moveFeed_moved (p := s.measuredPower x)
    (by rw [show (s.measuredPower x).feed.kind = _ from kind]; exact feedOf_ne_reservoir b) w.target .ordinary true
  have left := Power.movedTo_left (p := s.measuredPower x) (b := b) kind elsewhere (by rw [bay]; exact feeding) true g
  rw [bay] at left
  have self := ((s.measuredPower x).movedTo .ordinary true w.target g).putBay_self b
  rw [left] at self
  have quiet : ((s.measuredPower x).movedTo .ordinary true w.target g).enteredStandby (s.sampled x).loads b
      = (s.measuredPower x).movedTo .ordinary true w.target g := by
    refine Power.enteredStandby_quiet (fun standby => ⟨fun into => ?_, Power.movedFeed_pending _ true _⟩) _
    rw [left] at standby
    exact faulty ((Power.movedFeed_kind _ true _).symm.trans into) (leftState_standby standby)
  have good := (Power.goodSample_confirms no_holdover flies early shows_target (s.sampled x).loads).trans
    (Power.confirmSwitchover_ordinary (p := s.measuredPower x) flies kind (by rw [bay, feeding]; rfl) _)
  rw [moves, quiet, ← self, Power.movedTo_calm (p := s.measuredPower x) dc] at good
  obtain ⟨t, runs, c, goes⟩ := State.confirms ready due kind no_holdover good tells.kin tells.trc up
  exact ⟨t, runs, c, goes.inFlight.trans (by rw [Power.putBay_toFront]; exact tells.list),
    goes.kept_plain (by rw [Power.putBay_toFront]; exact tells.keptPass)⟩

/-! ## The statement -/

/-- Settles O17. -/
theorem feedPackFindingsSeekAMove : Obligations.FeedPackFindingsSeekAMove := by
  intro b f s ready kind feeding o bayEvent serial
  refine ⟨fun bytes t0 again reads in_time good => ?_, fun k t0 reads due third fresh none_flies none_pends => ?_,
    fun bytes d t0 again seated reads in_time good none_flies no_dc pends => ?_,
    fun w x flies elsewhere due early shows_target dc no_holdover faulty => ?_⟩
  · intro k polled done
    have runs := State.polled_runs ready reads in_time good
    have well (clear : k.faultFlags &&& 0x0F = 0) : ¬ (decodePackState (s.link b).block2 (bytes.extractLsb' 0 128) none).faulty = true :=
      fun faulty => (PackState.faulty_iff _).mp faulty clear
    refine ⟨fun none_flies none_pends high => ⟨fun sick fresh => ?_, fun clear hot fresh => ?_⟩,
      fun clear cold fresh none_flies none_pends low => ?_, fun clear cool last high => ?_⟩
    · obtain ⟨g, t, is, found, logs⟩ := State.polled_finds (x := f) (y := .pack) ready kind feeding none_flies none_pends high fresh rfl
        (fun p => if_pos ((PackState.faulty_iff _).mpr sick))
      exact ⟨t, ⟨runs.trans (congrArg _ is), found.link, found.event⟩, found.bay, found.feed, found.fhu, fun off => found.logged _ (logs off)⟩
    · obtain ⟨g, t, is, found, logs⟩ := State.polled_finds (x := f) (y := .thermal) ready kind feeding none_flies none_pends high fresh
        (Bool.or_true _) (fun p => (if_neg (well clear)).trans (if_pos hot))
      exact ⟨t, ⟨runs.trans (congrArg _ is), found.link, found.event⟩, found.bay, found.feed, found.fhu, fun off => found.logged _ (logs off)⟩
    · have polls := State.polled_low kind feeding none_flies none_pends low (well clear) cold fresh
      have notes := s.toFront.sendEvent_notes (packHot b k.temperature)
      have found := State.after_found ready notes (r := (s.bay b).polled k s.tmb.uptime) (b := b)
        (feed := if byOther s b then commanded s (feedOf (otherBay b)) .changeover s.feed.lastPlan
          else { s.feed with pending := ⟨false, true⟩, causes := { s.feed.causes with lowCharge := true } })
        (.inr (by
          split
          · exact fun same => absurd ((congrArg FeedRec.switchover same).trans none_flies) nofun
          · exact fun same => absurd ((congrArg FeedRec.pending same).trans none_pends) (by simp)))
        { s.link b with activity := .idle } (if byOther s b then { s.fhu with switches := pathsTo b (feedOf (otherBay b)) } else s.fhu)
      refine ⟨_, ⟨runs.trans (congrArg (fun q => Host.Outcome.next (s.after q)) polls), found.link, found.event⟩, found.bay.trans ?_, fun by_other => ⟨?_, ?_⟩,
        fun alone => ⟨?_, ?_, ?_⟩⟩
      · exact congrArg (fun st => ({ (s.bay b).polled k s.tmb.uptime with state := st } : BayRec)) feeding
      · exact found.feed.trans (if_pos by_other)
      · exact found.fhu.trans (if_pos by_other)
      · exact found.fhu.trans (if_neg (by rw [alone]; decide))
      · refine found.line.trans ?_
        rw [if_neg (by rw [alone]; decide)]
        simp [ShutdownCauses.line]
      · exact found.feed.trans (if_neg (by rw [alone]; decide))
    · have polls := State.polled_cools kind feeding last high (well clear) cool
      have notes := s.toFront.sendEvent_notes (packHot b k.temperature)
      have found := State.after_found ready notes (r := { (s.bay b).polled k s.tmb.uptime with state := .feeding noFaults }) (b := b)
        (feed := { s.feed with pending := { s.feed.pending with faulted := false }, causes := { s.feed.causes with faulted := false } })
        (.inl (BayRec.listed_ne_of_state (by rw [feeding, last]; exact fun same => absurd (BayState.feeding.inj same) (by decide))))
        { s.link b with activity := .idle } { s.fhu with dueInFlight := { s.fhu.dueInFlight with faulted := false } }
      exact ⟨_, ⟨runs.trans (congrArg (fun q => Host.Outcome.next (s.after q)) polls), found.link, found.event⟩, found.bay, found.feed, found.fhu⟩
  · have polls := Power.pollBad_feed kind feeding third fresh none_flies none_pends
    have notes := s.toFront.makeRecord_notes (.packFault b .link (s.bay b).serial)
    have found := State.after_found ready notes (r := { s.bay b with state := .feeding { f with link := true }, failedPolls := 3 }) (b := b)
      (feed := faultSought s b (f.pack || f.thermal)) (.inl (BayRec.listed_finding (y := .link) feeding fresh rfl)) { s.link b with activity := .idle }
      (faultPaths s b (f.pack || f.thermal))
    have runs : exec (.packLinkTimeout b) s = .next (s.after (s.toPower.pollBad s.loads b)) := by
      rw [exec_packLinkTimeout, State.powerEvent_after ready.1,
        Power.linkTimeout_due (p := s.toPower) (b := b) (t0 := t0) (by rw [show (s.toPower.link b).activity = _ from reads]; rfl) due,
        Power.badTransaction_again (p := s.toPower) reads]
    refine ⟨_, runs.trans (congrArg (fun q => Host.Outcome.next (s.after q)) polls), found.bay, found.link, found.feed, found.fhu, fun none_starts => ?_,
      found.logged _ (s.toFront.makeRecord_logs _), found.event⟩
    refine found.line.trans ?_
    rw [found.feed] at none_starts
    unfold faultSought commanded at none_starts ⊢
    split at none_starts
    · cases none_starts
    · simp [ShutdownCauses.line]
  · intro k clear cold charged strong
    have well : ¬ k.faulty = true := fun faulty => k.faulty_iff.mp faulty clear
    have taken := Power.identified_taken kind none_flies no_dc pends well cold charged strong
    have goes := State.after_feedGoes ready.2 (b := o) (r := { (s.bay o).filled k with state := .standby })
      (BayRec.listed_ne_of_state (by rw [seated]; nofun)) ((s.link o).polling s.tmb.uptime) s.toFront
      (commanded s (feedOf o) (if s.feed.pending.faulted then .faultMove else .changeover) s.feed.lastPlan)
      { s.fhu with switches := pathsTo b (feedOf o) }
    have runs := (State.identified_runs ready (b := o) reads in_time good).trans (congrArg (fun q => Host.Outcome.next (s.after q)) taken)
    obtain ⟨t, is⟩ : ∃ t, t = s.after { s.toPower.putBay o { (s.bay o).filled k with state := .standby } ((s.link o).polling s.tmb.uptime) s.toFront with
      feed := commanded s (feedOf o) (if s.feed.pending.faulted then .faultMove else .changeover) s.feed.lastPlan
      fhu := { s.fhu with switches := pathsTo b (feedOf o) } } := ⟨_, rfl⟩
    rw [← is] at goes
    have feed : t.feed = _ := congrArg (fun u : State => u.feed) goes.rest
    have fhu : t.fhu = _ := congrArg (fun u : State => u.fhu) goes.rest
    refine ⟨t, runs.trans (congrArg _ is.symm), goes.bay, goes.link, feed, fhu, ?_⟩
    rw [feed, fhu]
    exact goes.bayEvent
  · obtain ⟨t, runs, c, list, kept⟩ := State.confirms_move ready kind feeding flies elsewhere due early shows_target dc no_holdover faulty
    exact ⟨t, runs, c.kind, c.switchover, c.switches, c.pending, c.shutdown, c.holdover, c.bay, c.other, c.sfe, c.timers, c.causes, c.hld, c.mot, c.trc,
      c.plain list, kept⟩


end Sys2Proof.Machine
end

section
/-! PROOF. Exhaustion of a holdover (R46, R48, R56, R60). -/

namespace Sys2Proof.Machine

open Sys2Proof.Safety

/-! ## An entry in a free position -/

theorem freePosition_free {es : List (Option HoldEntry)} {n : Nat} (free : freePosition es = some n) : es[n]? = some none := by
  obtain ⟨inside, empty, -⟩ := List.findIdx?_eq_some_iff_getElem.mp free
  rw [List.getElem?_eq_getElem inside]
  cases entry : es[n] with
  | none => rfl
  | some e => rw [entry] at empty; cases empty

theorem reserveSum_set (e : HoldEntry) : ∀ {es : List (Option HoldEntry)} {n : Nat}, es[n]? = some none →
    reserveSum (es.set n (some e)) = reserveSum es + e.reserve
  | none :: es, 0, _ => Nat.add_comm _ _
  | none :: es, n + 1, free => reserveSum_set e (es := es) (n := n) free
  | some o :: es, n + 1, free => by
    show o.reserve + reserveSum (es.set n (some e)) = o.reserve + reserveSum es + e.reserve
    rw [reserveSum_set e (es := es) (n := n) free, Nat.add_assoc]

theorem tableChanged_set {es : List (Option HoldEntry)} {n : Nat} (free : es[n]? = some none) (e : HoldEntry) :
    tableChanged es (es.set n (some e)) = true := by
  obtain ⟨inside, empty⟩ := List.getElem?_eq_some_iff.mp free
  refine decide_eq_true fun same => ?_
  have entry := congrArg (fun l => l[n]?) same
  simp [tableShape, inside, empty] at entry

theorem targets_set {es : List (Option HoldEntry)} {n : Nat} (free : es[n]? = some none) (e : HoldEntry) (h : HoldTable) :
    ({ h with entries := es.set n (some e) } : HoldTable).targets e.target = true := by
  obtain ⟨inside, -⟩ := List.getElem?_eq_some_iff.mp free
  exact List.any_eq_true.mpr ⟨some e, List.mem_set inside _, decide_eq_true rfl⟩

/-! ## The quiesce line rises, or stays up (R59, R60) -/

/-- The hold table once its entries have become `es`, which target the storage. -/
theorem HoldTable.become_quiet {h : HoldTable} {es : List (Option HoldEntry)} (up : ({ h with entries := es } : HoldTable).quiesce = true) (now : Nat) :
    h.become es now = if h.quiesce then { h with entries := es }
      else if h.ackLine then { h with entries := es, wait := none, outcome := .acked } else ({ h with entries := es } : HoldTable).startWait now := by
  unfold HoldTable.become
  dsimp only
  rw [up]
  cases h.quiesce <;> rfl

/-- A wait runs then. -/
def HoldTable.stillWaits (h : HoldTable) : Bool := if h.quiesce then h.wait.isSome else !h.ackLine

theorem HoldTable.become_waits {h : HoldTable} {es : List (Option HoldEntry)} (up : ({ h with entries := es } : HoldTable).quiesce = true) (now : Nat) :
    (h.become es now).entries = es ∧ (h.become es now).wait.isSome = h.stillWaits
    ∧ (h.stillWaits = false → (h.become es now).outcome = if h.quiesce then h.outcome else .acked) := by
  rw [HoldTable.become_quiet up]
  unfold HoldTable.stillWaits
  cases h.quiesce
  · cases h.ackLine
    · exact ⟨rfl, rfl, nofun⟩
    · exact ⟨rfl, rfl, fun _ => rfl⟩
  · exact ⟨rfl, rfl, fun _ => rfl⟩

/-! ## Exhaustion -/

/-- The ENERGY entry of FHU (R56). -/
def energyEntry (now : Nat) : HoldEntry := ⟨.energy, .storage, 4000, now, none⟩

/-- What the declaration of exhaustion changes (R46). -/
theorem Power.exhaust_put {p : Power} {h : Holdover} {n : Nat} (fresh : positionOf .energy .storage p.hld.entries = none)
    (free : freePosition p.hld.entries = some n) (no_drops : p.drops = []) (none_pends : p.fhu.deferredEnd = none) : ∃ g, p.exhaust h = { p with
      feed := { p.feed with holdover := some { h with exhausted := true }, causes := { p.feed.causes with exhausted := true } }
      hld := p.hld.become (p.hld.entries.set n (some (energyEntry p.tmb.uptime))) p.tmb.uptime, due := { p.due with hold := true }
      fhu := { p.fhu with deferredEnd := if p.hld.stillWaits then some ⟨(p.tmb.uptime - h.start) / 1000, h.planned⟩ else none }, toFront := g }
    ∧ p.toFront.Tells g
    ∧ (p.hld.stillWaits = false → p.toFront.unwatched → p.toFront.Logs g (.holdoverEnd .exhausted ((p.tmb.uptime - h.start) / 1000) h.planned
        (if p.hld.quiesce then p.hld.outcome else .acked)) p.tmb) := by
  obtain ⟨es, is⟩ : ∃ es, es = p.hld.entries.set n (some (energyEntry p.tmb.uptime)) := ⟨_, rfl⟩
  have there := freePosition_free free
  have up : ({ p.hld with entries := es } : HoldTable).quiesce = true := by
    rw [is]
    exact targets_set there (energyEntry p.tmb.uptime) p.hld
  have placed : placeEntry ⟨.energy, .storage, Config.energyReserve, p.tmb.uptime, none⟩ p.hld.entries = es :=
    (placeEntry_new fresh (fun software => absurd software (by simp)) free).trans is.symm
  obtain ⟨f, put, tells, silent⟩ := Power.putTable_eq
    (p := { p with feed := { p.feed with holdover := some { h with exhausted := true } } }) no_drops es
  obtain ⟨-, wait, outcome⟩ := HoldTable.become_waits up p.tmb.uptime
  have changed : tableChanged p.hld.entries es = true := by rw [is]; exact tableChanged_set there _
  have fhu : (if p.hld.waitEnds es then { p.fhu with deferredEnd := none } else p.fhu) = p.fhu := by
    split
    · rw [← none_pends]
    · rfl
  dsimp only at put
  rw [changed, Bool.or_true, fhu] at put
  obtain ⟨log, monitors⟩ := silent (.inr none_pends)
  have sent := f.sendEvent_notes (exhaustedEvent h.planned)
  have form : p.exhaust h = ({ p with
      feed := { p.feed with holdover := some { h with exhausted := true }, causes := { p.feed.causes with exhausted := true } }
      hld := p.hld.become es p.tmb.uptime, due := { p.due with hold := true }
      toFront := f.sendEvent (exhaustedEvent h.planned) } : Power).recordExhaustion h := by
    unfold Power.exhaust Power.placeEnergy
    dsimp only
    rw [placed, put]
  rw [form, ← is]
  have time : (f.sendEvent (exhaustedEvent h.planned)).tmb = p.tmb := sent.tmb.trans tells.kin.tmb
  unfold Power.recordExhaustion
  dsimp only
  rw [wait, time]
  cases waits : p.hld.stillWaits
  · have record := (f.sendEvent (exhaustedEvent h.planned)).makeRecord_notes
      (.holdoverEnd .exhausted ((p.tmb.uptime - h.start) / 1000) h.planned (p.hld.become es p.tmb.uptime).outcome)
    refine ⟨_, ?_, (tells.trans sent.tells).trans record.tells, fun _ off => ?_⟩
    · rw [if_neg (by decide), if_neg (by decide), ← none_pends]
      rfl
    · rw [← outcome waits]
      have logs := (f.sendEvent (exhaustedEvent h.planned)).makeRecord_logs
        (.holdoverEnd .exhausted ((p.tmb.uptime - h.start) / 1000) h.planned (p.hld.become es p.tmb.uptime).outcome)
      have quiet : f.sendEvent (exhaustedEvent h.planned) = f :=
        Front.sendEvent_unwatched (fun m mem => off m (monitors ▸ mem)) _
      rw [time, quiet] at logs
      rw [quiet]
      exact logs.earlier log
  · exact ⟨_, rfl, tells.trans sent.tells, nofun⟩

/-- Settles O19. -/
theorem exhaustionHoldsStorageAndAsksForShutdown : Obligations.ExhaustionHoldsStorageAndAsksForShutdown := by
  intro h x s ready kind runs none_flies due measured
  have judged (l : Loads) : s.toPower.goodSample l x = (if !h.exhausted && decide (energyOf s x ≤ s.feed.eShut)
      then (s.measuredPower x).exhaust h else s.measuredPower x).judgeSwitchover l x := by
    unfold Power.goodSample Power.judgeExhaustion
    rw [s.recompute_eq, show (s.measuredPower x).feed.holdover = some h from runs]
    rfl
  refine ⟨fun n fresh_holdover spent fresh free no_drops none_pends => ?_, fun none_declared charger => ?_⟩
  · intro d waits
    obtain ⟨g, ends, tells, logs⟩ := Power.exhaust_put (p := s.measuredPower x) (h := h) fresh free no_drops none_pends
    have good := judged (s.sampled x).loads
    rw [fresh_holdover, decide_eq_true spent, if_pos (by rfl), ends, Power.judgeSwitchover_none (by exact none_flies)] at good
    obtain ⟨q, is⟩ : ∃ q, q = s.toPower.goodSample (s.sampled x).loads x := ⟨_, rfl⟩
    have own := is.trans good
    obtain ⟨t, next, goes⟩ := s.sample_goes ready due is.symm (by rw [own]; exact tells.kin) (by rw [own]; rfl)
      (by rw [own]; simp [PassCauses.any])
    obtain ⟨tfeed, tfhu⟩ := goes.pass.apart (by
      rw [show ((s.sensed x).toBlocks.withPower q).feed.kind = .reservoir by
        rw [show ((s.sensed x).toBlocks.withPower q).feed = q.feed from rfl, own]
        exact kind]
      rfl)
    obtain ⟨entries, -, -⟩ := HoldTable.become_waits (h := s.hld) (es := s.hld.entries.set n (some (energyEntry s.tmb.uptime)))
      (targets_set (freePosition_free free) (energyEntry s.tmb.uptime) s.hld) s.tmb.uptime
    have hld : t.hld = s.hld.become (s.hld.entries.set n (some (energyEntry s.tmb.uptime))) s.tmb.uptime := goes.hld.trans (by rw [own]; rfl)
    have feed : t.feed = { measured with holdover := some { h with exhausted := true }, causes := { s.feed.causes with exhausted := true } } :=
      tfeed.trans (by show q.feed = _; rw [own]; rfl)
    have pins : t.pins = derivePins t.toBlocks := congrArg State.pins goes.event.1
    refine ⟨t, next, feed, ?_, ?_, by rw [hld, entries]; rfl, ?_, ?_, ?_, fun ended off => goes.logged ?_, goes.sfe, goes.timers, goes.bayA.trans (by rw [own]; rfl),
      goes.bayB.trans (by rw [own]; rfl), goes.mot, goes.passEvent (by rw [own]; exact tells.list), goes.kept_plain (by rw [own]; exact tells.keptPass)⟩
    · rw [pins]
      show t.feed.causes.line = true
      rw [feed]
      simp [ShutdownCauses.line]
    · rw [pins]
      show t.hld.quiesce = true
      unfold HoldTable.quiesce
      rw [hld]
      have up := targets_set (freePosition_free free) (energyEntry s.tmb.uptime) (s.hld.become (s.hld.entries.set n (some (energyEntry s.tmb.uptime))) s.tmb.uptime)
      rw [← entries] at up
      exact up
    · unfold HoldTable.rProt
      rw [hld, entries, reserveSum_set _ (freePosition_free free)]
      rfl
    · rw [goes.causes, own]
    · rw [tfhu]
      show q.fhu.deferredEnd = _
      rw [own]
      rfl
    · rw [own]
      exact logs ended off
  · refine s.measured ready charger due ?_
    have declared : (!h.exhausted && decide (energyOf s x ≤ s.feed.eShut)) = false := by
      rcases none_declared with spent | more
      · rw [spent]; rfl
      · rw [decide_eq_false (by omega), Bool.and_false]
    rw [judged, declared, if_neg (by decide), Power.judgeSwitchover_none (by exact none_flies), s.recompute_eq]

end Sys2Proof.Machine
end

section
/-! PROOF. Entries of the hold table go at their deadlines (R54, R57, R101, R114, R117). -/

namespace Sys2Proof.Machine

open Sys2Proof.Safety

/-! ## A removal with calm bays -/

/-- The bays stand where a changed latch demand does nothing (R58). -/
def Power.calmBays (p : Power) : Prop := ∀ b, (∀ r, (p.bay b).state ≠ .releaseWait r) ∧ ∀ u, (p.bay b).state ≠ .opened u

theorem Power.reactToDemand_calm {p : Power} {b : Bay} (none_waits : ∀ r, (p.bay b).state ≠ .releaseWait r)
    (none_open : ∀ u, (p.bay b).state ≠ .opened u) (l : Loads) : p.reactToDemand l b = p := by
  unfold Power.reactToDemand
  split
  · exact absurd ‹_› (none_open _)
  · exact absurd ‹_› (none_waits _)
  · rfl

theorem Power.changeTable_calm {p : Power} {es : List (Option HoldEntry)} (calm : (p.putTable es).calmBays) (l : Loads) :
    p.changeTable l es = p.putTable es := by
  unfold Power.changeTable
  rw [Power.reactToDemand_calm (calm .A).1 (calm .A).2, Power.reactToDemand_calm (calm .B).1 (calm .B).2]

theorem removeEntries_ne {gone : HoldEntry → Bool} {es : List (Option HoldEntry)} (one_goes : (es.any fun o => o.any gone) = true) :
    removeEntries gone es ≠ es := fun same => tableShape_removed one_goes (congrArg tableShape same)

theorem Power.removeHolds_calm {p : Power} (calm : p.calmBays) (no_drops : p.drops = []) {gone : HoldEntry → Bool}
    (one_goes : (p.hld.entries.any fun o => o.any gone) = true) (l : Loads) : ∃ fhu f, p.removeHolds l gone = { p with
      hld := p.hld.lowered (removeEntries gone p.hld.entries), due := { p.due with hold := true }, fhu := fhu, toFront := f }
    ∧ p.toFront.Tells f := by
  obtain ⟨fhu, f, put, tells, -, -⟩ := Power.putTable_removed no_drops gone
  have changed : tableChanged p.hld.entries (removeEntries gone p.hld.entries) = true := decide_eq_true (tableShape_removed one_goes)
  rw [changed, Bool.or_true] at put
  refine ⟨fhu, f, ?_, tells⟩
  have calm' : (p.putTable (removeEntries gone p.hld.entries)).calmBays := by
    rw [put]
    intro b
    cases b
    · exact calm .A
    · exact calm .B
  unfold Power.removeHolds
  dsimp only
  rw [if_neg (removeEntries_ne one_goes), Power.changeTable_calm calm', put]

/-- The entries that stay. -/
theorem removeEntries_filter (gone : HoldEntry → Bool) (es : List (Option HoldEntry)) :
    removeEntries gone es = es.map fun o => o.filter fun e => !gone e := by
  refine List.map_congr_left fun o _ => ?_
  cases o with
  | none => rfl
  | some e => cases going : gone e <;> simp [going, Option.filter]

theorem reserveSum_removed (gone : HoldEntry → Bool) : ∀ es : List (Option HoldEntry), reserveSum (removeEntries gone es) ≤ reserveSum es
  | [] => Nat.le_refl _
  | none :: es => reserveSum_removed gone es
  | some e :: es => by
    have rest := reserveSum_removed gone es
    unfold removeEntries at rest ⊢
    rw [List.map_cons]
    dsimp only
    split
    · exact Nat.le_trans rest (Nat.le_add_left _ _)
    · exact Nat.add_le_add_left rest _

/-! ## The event of a removal -/

/-- What a removal leaves, `m` MOT's record at its event and `es` the entries that stay. -/
structure State.Lowers (s : State) (m : MotionRec) (es : List (Option HoldEntry)) (t : State) : Prop where
  hld : t.hld = s.hld.lowered es
  mot : t.mot = m
  causes : t.bud.causes = ⟨false, false, true, false, false⟩
  bayA : t.bayA = s.bayA
  bayB : t.bayB = s.bayB
  trc : t.trc = s.trc
  rProt : t.bud.rProt = reserveSum es
  duty : t.blc.liveDuty = s.blc.liveDuty
  event : PassEvent s t
  kept : keepsOutside passRanges s.mem t.mem
  sfe : t.sfe = s.sfe
  timers : t.timers = s.timers

theorem State.lowers {s : State} (ready : Ready s) (m : MotionRec) (no_drops : s.drops = []) (calm : s.toPower.calmBays) {gone : HoldEntry → Bool}
    (one_goes : (s.hld.entries.any fun o => o.any gone) = true) : s.Lowers m (removeEntries gone s.hld.entries)
      (s.withBlocks ((({ s.toBlocks with mot := m } : Blocks).withPower (s.toPower.removeHolds s.loads gone)).settled s.toBlocks)) := by
  obtain ⟨fhu, f, removed, tells⟩ := Power.removeHolds_calm (p := s.toPower) calm no_drops one_goes s.loads
  obtain ⟨q, is⟩ : ∃ q, q = s.toPower.removeHolds s.loads gone := ⟨_, rfl⟩
  rw [← is]
  have own := is.trans removed
  have due : q.due = ⟨false, false, true, false, false⟩ := by
    rw [own]
    show ({ s.due with hold := true } : PassCauses) = _
    rw [ready.2]
    rfl
  have goes : ({ s with mot := m } : State).Goes q _ := State.goes_of_passed (s := { s with mot := m }) ready (by rw [own]; exact tells.kin) (by rw [own])
    (Blocks.settled_passed (x := ({ s.toBlocks with mot := m } : Blocks).withPower q) (by show q.due.any = true; rw [due]; rfl) s.toBlocks)
  refine ⟨goes.hld.trans (by rw [own]), goes.mot, goes.causes.trans due, goes.bayA.trans (by rw [own]), goes.bayB.trans (by rw [own]),
    goes.trc.trans (by rw [own]; exact tells.trc), ?_, goes.liveDuty_kept (by rw [due]), goes.passEvent (by rw [own]; exact tells.list),
    goes.kept_plain (by rw [own]; exact tells.keptPass), goes.sfe, goes.timers⟩
  refine (congrArg BudgetRec.rProt goes.pass.bud).trans ?_
  show q.hld.rProt = _
  rw [own]
  rfl

/-! ## The rows -/

/-- An entry whose expiry is found stands (R54). -/
theorem HoldTable.expires_stands {h : HoldTable} {g : Target} {d : Nat} (expires : h.expiryOf g = some d) :
    (h.entries.any fun o => o.any (isSoftwareOn g)) = true := by
  unfold HoldTable.expiryOf at expires
  cases found : h.software.find? fun e => decide (e.target = g) with
  | none => rw [found] at expires; cases expires
  | some e =>
    have target : e.target = g := by simpa using List.find?_some found
    have member := List.mem_of_find?_eq_some found
    obtain ⟨o, mem, own⟩ := List.mem_filterMap.mp member
    refine List.any_eq_true.mpr ⟨o, mem, ?_⟩
    cases o with
    | none => cases own
    | some e' =>
      by_cases software : e'.holder = .software
      · have same : some e' = some e := (if_pos software).symm.trans own
        cases same
        simp [isSoftwareOn, software, target]
      · exact absurd ((if_neg software).symm.trans own) nofun

theorem positionOf_removed {es : List (Option HoldEntry)} (g : Target) : positionOf .software g (removeEntries (isSoftwareOn g) es) = none := by
  refine positionOf_absent fun o mem pair => ?_
  obtain ⟨o', -, own⟩ := List.mem_map.mp mem
  cases o' with
  | none => cases own
  | some e =>
    cases going : isSoftwareOn g e
    · have same : some e = some o := by simpa only [going, Bool.false_eq_true, if_false] using own
      cases same
      rw [isSoftwareOn, decide_eq_true pair.1, decide_eq_true pair.2] at going
      cases going
    · simp only [going, if_true] at own
      cases own

theorem motion_stands {es : List (Option HoldEntry)} (stands : ∃ e, some e ∈ es ∧ e.holder = .motion) :
    (es.any fun o => o.any fun e => decide (e.holder = .motion)) = true := by
  obtain ⟨e, mem, holder⟩ := stands
  exact List.any_eq_true.mpr ⟨some e, mem, decide_eq_true holder⟩

theorem removeMotion_eq (es : List (Option HoldEntry)) : removeEntries (fun e => decide (e.holder = .motion)) es
    = es.map fun o => o.filter fun e => decide (e.holder ≠ .motion) := by
  rw [removeEntries_filter]
  simp only [decide_not]

/-- Settles O21. -/
theorem holdsAreRemovedAtTheirDeadlines : Obligations.HoldsAreRemovedAtTheirDeadlines := by
  refine ⟨fun g d s ready expires due no_drops none_waits none_open => ?_, fun c d s ready due row stands no_drops none_waits none_open => ?_⟩
  · have lowers := s.lowers ready s.mot no_drops (fun b => ⟨none_waits b, none_open b⟩) (HoldTable.expires_stands expires)
    refine ⟨_, ?_, (congrArg HoldTable.entries lowers.hld).trans (removeEntries_filter _ _), ?_, ?_, lowers.causes, lowers.rProt.trans ?_, ?_, lowers.bayA,
      lowers.bayB, lowers.mot, lowers.duty, lowers.event, lowers.kept⟩
    · rw [exec_holdExpiry, s.whilePowered_on _ ready.1, expires, Blocks.whenDue_due _ d _ due]
      rfl
    · rw [lowers.hld]
      exact positionOf_removed g
    · rw [lowers.hld]
      exact reserveSum_removed _ _
    · unfold HoldTable.rProt
      rw [lowers.hld]
      rfl
    · rfl
  · rcases row with ⟨rfl, settles⟩ | ⟨rfl, lifts⟩
    · have lowers := s.lowers ready { s.mot with state := .normal, settleRun := 0 } no_drops (fun b => ⟨none_waits b, none_open b⟩) (motion_stands stands)
      refine ⟨_, ?_, (congrArg HoldTable.entries lowers.hld).trans (removeMotion_eq _), lowers.mot, lowers.causes, lowers.bayA, lowers.bayB, lowers.trc,
        lowers.duty, lowers.event, lowers.kept⟩
      rw [exec_settleDeadline, s.whilePowered_on _ ready.1, settles, show (MotionState.settle d).settleDeadline = some d from rfl,
        Blocks.whenDue_due _ d _ due]
      rfl
    · have lowers := s.lowers ready { s.mot with liftDeadline := none } no_drops (fun b => ⟨none_waits b, none_open b⟩) (motion_stands stands)
      refine ⟨_, ?_, (congrArg HoldTable.entries lowers.hld).trans (removeMotion_eq _), lowers.mot, lowers.causes, lowers.bayA, lowers.bayB, lowers.trc,
        lowers.duty, lowers.event, lowers.kept⟩
      rw [exec_liftDeadline, s.whilePowered_on _ ready.1, lifts, Blocks.whenDue_due _ d _ due]
      rfl

end Sys2Proof.Machine
end

section
/-! PROOF. Records of falls with their trace link, and the end of the acknowledgement wait (R46, R60, R116, R127). -/

namespace Sys2Proof.Machine

open Sys2Proof.Safety

/-! ## Records of falls -/

/-- Between `f` and `g` records have been made and the trace linked. -/
structure Front.Links (f g : Front) : Prop where
  shape : ∃ (mem : Mem) (summary : Word) (log : LogRec) (monitors : List Monitor) (gen linked : Word), g = { f with
    mem := mem, summary := summary, log := { log with effRead := f.log.effRead }, monitors := monitors
    gens := { f.gens with monitor := gen }, trc := { f.trc with linked := linked } }
  logs : f.LogGrows g
  raised : f.Raises g
  kept : keepsOutside ((0x2000, 0x2040) :: recordRanges) f.mem g.mem

namespace Front.Links

theorem trans {f g h : Front} (a : f.Links g) (b : g.Links h) : f.Links h := by
  obtain ⟨m, s, l, ms, v, k, own⟩ := a.shape
  obtain ⟨m', s', l', ms', v', k', own'⟩ := b.shape
  refine ⟨⟨m', s', l', ms', v', k', ?_⟩, a.logs.trans b.logs, a.raised.trans b.raised, keepsOutside_trans a.kept b.kept⟩
  rw [own', own]

theorem refl (f : Front) : f.Links f := ⟨⟨_, _, _, _, _, _, rfl⟩, .refl f, .refl f, keepsOutside_refl _ _⟩

theorem foldl {α : Type} {next : Front → α → Front} (each : ∀ (f : Front) (a : α), f.Links (next f a)) (as : List α) (f : Front) :
    f.Links (as.foldl next f) := by
  induction as generalizing f with
  | nil => exact .refl f
  | cons a as ih => exact (each f a).trans (ih _)

theorem tmb {f g : Front} (a : f.Links g) : g.tmb = f.tmb := by
  obtain ⟨m, s, l, ms, v, k, own⟩ := a.shape
  rw [own]

end Front.Links

theorem Front.Notes.links {f g : Front} (h : f.Notes g) : f.Links g := by
  obtain ⟨m, s, l, ms, v, own⟩ := h.step.fields
  exact ⟨⟨m, s, l, ms, v, f.trc.linked, own⟩, h.logs, h.raised, keepsOutside_mono h.step.kept fun _ => List.mem_cons_of_mem _⟩

theorem Front.append_notes (f : Front) (r : LogRecord) : f.Notes (f.append r).front := ⟨f.append_step r, f.append_logGrows r, f.append_raises r⟩

theorem Front.linkTrace_links (f : Front) (st : TraceStatus) (n s : Option Word) : f.Links (f.linkTrace st n s) := by
  unfold Front.linkTrace
  split
  · split
    case isTrue =>
      have kept := f.putTrace_keepsOutside { f.trc with linked := ‹Word› }
      exact ⟨⟨_, _, _, _, _, _, rfl⟩, .of_beside rfl kept (by simp), .of_same rfl, keepsOutside_mono kept (by simp)⟩
    case isFalse => exact .refl f
  · exact .refl f

theorem Front.linkTrace_log (f : Front) (st : TraceStatus) (n s : Option Word) : (f.linkTrace st n s).log = f.log ∧ (f.linkTrace st n s).monitors = f.monitors := by
  unfold Front.linkTrace
  split
  · split <;> exact ⟨rfl, rfl⟩
  · exact ⟨rfl, rfl⟩

theorem Front.makeFallRecord_links (f : Front) (r : LogRecord) (st : TraceStatus) (n : Option Word) : f.Links (f.makeFallRecord r st n) :=
  ((f.append_notes r).links.trans (Front.linkTrace_links _ _ _ _)).trans (Front.sendEvent_notes _ _).links

theorem Front.makeFallRecord_logs (f : Front) (r : LogRecord) (st : TraceStatus) (n : Option Word) : f.Logs (f.makeFallRecord r st n) r f.tmb :=
  (f.append_logs r).later ((Front.linkTrace_links _ _ _ _).logs.trans (Front.sendEvent_logGrows _ _))

theorem Front.writeDrop_links (f : Front) (d : DropData) (o : AckOutcome) (a b : BayState) : f.Links (f.writeDrop d o a b) :=
  (f.makeFallRecord_links _ _ _).trans (Front.sendEvent_notes _ _).links

theorem Front.writeDrop_logs (f : Front) (d : DropData) (o : AckOutcome) (a b : BayState) : f.Logs (f.writeDrop d o a b) (.drop d o a b) f.tmb :=
  (f.makeFallRecord_logs _ _ _).later (Front.sendEvent_logGrows _ _)

/-! ## A run of records with room for all -/

/-- The log once one more record has been written. -/
def LogRec.next (l : LogRec) : LogRec := { l with writeIndex := l.writeIndex + 1 }

theorem Front.append_room {f : Front} (room : f.log.full = false) (r : LogRecord) :
    (f.append r).front.log = f.log.next ∧ (f.append r).front.monitors = f.monitors := by
  rw [f.append_of_room r room]
  refine ⟨(f.writeRecord_entry r).1, ?_⟩
  unfold Front.writeRecord Front.raiseIfFull
  split <;> rfl

theorem Front.writeDrop_room {f : Front} (off : f.unwatched) (room : f.log.full = false) (d : DropData) (o : AckOutcome) (a b : BayState) :
    (f.writeDrop d o a b).log = f.log.next ∧ (f.writeDrop d o a b).monitors = f.monitors := by
  obtain ⟨log, monitors⟩ := Front.append_room room (.drop d o a b)
  obtain ⟨linked, linked_monitors⟩ := (f.append (.drop d o a b)).front.linkTrace_log d.traceStatus d.traceSerial (f.append (.drop d o a b)).seq
  have quiet : ((f.append (.drop d o a b)).front.linkTrace d.traceStatus d.traceSerial (f.append (.drop d o a b)).seq).unwatched := fun m mem =>
    off m (by rw [← monitors, ← linked_monitors]; exact mem)
  unfold Front.writeDrop Front.makeFallRecord
  dsimp only
  rw [Front.sendEvent_unwatched quiet, Front.sendEvent_unwatched quiet]
  exact ⟨linked.trans log, linked_monitors.trans monitors⟩

theorem Front.makeRecord_room {f : Front} (off : f.unwatched) (room : f.log.full = false) (r : LogRecord) :
    (f.makeRecord r).log = f.log.next := by
  rw [Front.makeRecord_unwatched off]
  exact (Front.append_room room r).1

theorem LogRec.room_of_free {l : LogRec} {n : Nat} (free : n + 1 ≤ l.free) : l.full = false ∧ n ≤ l.next.free := by
  unfold LogRec.free at free
  have few : (l.writeIndex - l.effRead).toNat < 64 := by
    have : Config.logEntries = 64 := rfl
    omega
  refine ⟨Bool.eq_false_iff.mpr fun full => Nat.not_le.mpr few (l.full_iff.mp full), ?_⟩
  unfold LogRec.free LogRec.next
  dsimp only
  rw [unread_succ few]
  omega

/-- The entry of `r` written with the log as `f` had it stands in `g`. -/
theorem Front.Logs.placed {f g : Front} {r : LogRecord} {time : Timebase} (logs : f.Logs g r time) (room : f.log.full = false) :
    g.entryAt f.log.writeIndex = r.bytes f.log.writeIndex time := (logs.written room).2.2

/-- What the deferred records write. -/
def Front.writeAll (f : Front) (ds : List DropData) (o : AckOutcome) (a b : BayState) : Front := ds.foldl (fun g d => g.writeDrop d o a b) f

theorem Front.writeAll_links (f : Front) (ds : List DropData) (o : AckOutcome) (a b : BayState) : f.Links (f.writeAll ds o a b) :=
  .foldl (fun g d => g.writeDrop_links d o a b) ds f

theorem word_succ_add (w : Word) (n : Nat) : w + 1 + BitVec.ofNat 32 n = w + BitVec.ofNat 32 (n + 1) := by
  rw [BitVec.ofNat_add, BitVec.add_assoc, BitVec.add_comm (1 : Word)]
  rfl

theorem word_add_zero (w : Word) : w + BitVec.ofNat 32 0 = w := BitVec.add_zero w

/-- The log once `n` more records have been written. -/
def LogRec.advanced (l : LogRec) (n : Nat) : LogRec := { l with writeIndex := l.writeIndex + BitVec.ofNat 32 n }

theorem LogRec.advanced_zero (l : LogRec) : l.advanced 0 = l := by
  unfold LogRec.advanced
  rw [word_add_zero]

theorem LogRec.next_advanced (l : LogRec) (n : Nat) : l.next.advanced n = l.advanced (n + 1) := by
  unfold LogRec.advanced LogRec.next
  dsimp only
  rw [word_succ_add]

/-- With room for all, each record stands in its entry (R149). -/
structure Front.Written (f g : Front) (rs : List LogRecord) : Prop where
  log : g.log = f.log.advanced rs.length
  monitors : g.monitors = f.monitors
  placed : ∀ n x, rs[n]? = some x → ∀ h, g.LogGrows h →
    h.entryAt (f.log.writeIndex + BitVec.ofNat 32 n) = x.bytes (f.log.writeIndex + BitVec.ofNat 32 n) f.tmb

theorem Front.Written.none (f : Front) : f.Written f [] := ⟨f.log.advanced_zero.symm, rfl, by simp⟩

theorem Front.Written.cons {f g h : Front} {r : LogRecord} {rs : List LogRecord} (room : f.log.full = false)
    (logs : f.Logs g r f.tmb) (log : g.log = f.log.next) (monitors : g.monitors = f.monitors) (time : g.tmb = f.tmb)
    (grows : g.LogGrows h) (rest : g.Written h rs) : f.Written h (r :: rs) := by
  refine ⟨?_, rest.monitors.trans monitors, fun n x there k later => ?_⟩
  · rw [rest.log, log, LogRec.next_advanced, List.length_cons]
  · cases n with
    | zero =>
      cases there
      have stands := (logs.later (grows.trans later)).placed room
      rw [word_add_zero]
      exact stands
    | succ n =>
      have stands := rest.placed n x there k later
      rw [log, time] at stands
      unfold LogRec.next at stands
      dsimp only at stands
      rwa [word_succ_add] at stands

theorem Front.noteEnd_written {f : Front} (off : f.unwatched) (o : AckOutcome) (pending : Option DeferredEnd) (room : pending.isSome → f.log.full = false) :
    f.Written (f.noteEnd pending o) (pending.map fun e => LogRecord.holdoverEnd .exhausted e.duration e.planned o).toList := by
  cases pending with
  | none => exact .none f
  | some e =>
    have made := Front.makeRecord_unwatched off (.holdoverEnd .exhausted e.duration e.planned o)
    obtain ⟨log, monitors⟩ := Front.append_room (room rfl) (.holdoverEnd .exhausted e.duration e.planned o)
    have logs := f.makeRecord_logs (.holdoverEnd .exhausted e.duration e.planned o)
    rw [← made] at log monitors
    exact .cons (room rfl) logs log monitors (f.makeRecord_notes _).links.tmb (.refl _) (.none _)

/-- The records that an acknowledgement wait held back, in the order they fell due. -/
def heldBack (ds : List DropData) (pending : Option DeferredEnd) (o : AckOutcome) (a b : BayState) : List LogRecord :=
  (ds.map fun d => .drop d o a b) ++ (pending.map fun e => LogRecord.holdoverEnd .exhausted e.duration e.planned o).toList

theorem Front.writeAll_written {o : AckOutcome} {a b : BayState} (pending : Option DeferredEnd) (ds : List DropData) : ∀ (f : Front),
    f.unwatched → (ds.length + if pending.isSome then 1 else 0) ≤ f.log.free →
    f.Written ((f.writeAll ds o a b).noteEnd pending o) (heldBack ds pending o a b) := by
  induction ds with
  | nil =>
    intro f off free
    refine Front.noteEnd_written off o pending fun some => ?_
    rw [some] at free
    exact (LogRec.room_of_free (l := f.log) (n := 0) (by simpa using free)).1
  | cons d ds ih =>
    intro f off free
    obtain ⟨room, left⟩ := LogRec.room_of_free (l := f.log) (n := ds.length + if pending.isSome then 1 else 0)
      (by rw [List.length_cons] at free; omega)
    obtain ⟨log, monitors⟩ := Front.writeDrop_room off room d o a b
    have logs := f.writeDrop_logs d o a b
    have time := (f.writeDrop_links d o a b).tmb
    have all : f.writeAll (d :: ds) o a b = (f.writeDrop d o a b).writeAll ds o a b := by
      unfold Front.writeAll
      rw [List.foldl_cons]
    rw [all]
    generalize f.writeDrop d o a b = g at log monitors logs time
    have grows := (g.writeAll_links ds o a b).logs.trans (Front.noteEnd_notes _ pending o).logs
    refine .cons room logs log monitors time grows (ih g (fun m mem => off m (monitors ▸ mem)) ?_)
    rw [log]
    exact left

/-! ## The end of the wait (R46, R60, R116) -/

/-- The front end after the wait has ended with the table `table`. -/
def Power.waitOver (p : Power) (table : HoldTable) : Front :=
  ((p.toFront.publish .mirror (mirrorPage table)).writeAll p.drops table.outcome p.bayA.state p.bayB.state).noteEnd p.fhu.deferredEnd table.outcome

theorem Power.endWait_writes (p : Power) (o : AckOutcome) : p.endWait o = { p with
    hld := { p.hld with wait := none, outcome := o }, drops := [], fhu := { p.fhu with deferredEnd := none }
    toFront := p.waitOver { p.hld with wait := none, outcome := o } } := by
  unfold Power.endWait
  rw [Power.writeDeferredEnd_eq]
  rfl

theorem Power.waitOver_links (p : Power) (table : HoldTable) : (p.toFront.publish .mirror (mirrorPage table)).Links (p.waitOver table) :=
  (Front.writeAll_links _ _ _ _ _).trans (Front.noteEnd_notes _ _ _).links

/-- What the end of a wait leaves behind, the table now `table`. -/
structure State.WaitOver (s : State) (table : HoldTable) (t : State) : Prop where
  shape : t = { s with
    hld := table, drops := [], fhu := { s.fhu with deferredEnd := none }, trc := { s.trc with linked := t.trc.linked }
    mem := t.mem, summary := t.summary, log := { t.log with effRead := s.log.effRead }, monitors := t.monitors
    gens := { s.gens with mirror := s.gens.mirror + 2, monitor := t.gens.monitor }, pins := derivePins t.toBlocks }
  front : t.toFront = s.waitOver table

theorem State.endsWait {s : State} (h : Ready s) (charger : ChargerSettled s.toPower) (table : HoldTable) {q : Power}
    (ended : q = { s.toPower with
      hld := table, drops := [], fhu := { s.fhu with deferredEnd := none }, toFront := s.toPower.waitOver table }) :
    s.WaitOver table (s.after q) := by
  obtain ⟨m, su, l, ms, g, k, own⟩ := (s.toPower.waitOver_links table).shape
  have same : (s.toBlocks.withPower q).settled s.toBlocks = s.toBlocks.withPower q := by
    rw [ended]
    refine Blocks.settled_of_same ?_ ?_ rfl (energyChanged_of_same rfl rfl rfl rfl fun _ => rfl)
    · exact h.2
    · exact charger
  unfold State.after
  rw [same, ended]
  refine ⟨?_, rfl⟩
  generalize s.toPower.waitOver table = front at own ⊢
  rw [own]
  rfl

namespace State.WaitOver

variable {s t : State} {table : HoldTable}

theorem kept (it : s.WaitOver table t) : keepsOutside ((0x2000, 0x2040) :: pageRange .mirror :: recordRanges) s.mem t.mem := by
  have mem : t.mem = (s.waitOver table).mem := congrArg Front.mem it.front
  rw [mem]
  exact keepsOutside_trans (keepsOutside_mono (s.toFront.publish_frame .mirror (mirrorPage table)).1 (by simp))
    (keepsOutside_mono (s.toPower.waitOver_links table).kept (by simp +contextual))

theorem nothing_owed (it : s.WaitOver table t) (none_owed : s.drops.length + (if s.fhu.deferredEnd.isSome then 1 else 0) = 0) :
    t.log = s.log ∧ t.trc = s.trc ∧ t.summary = s.summary ∧ t.monitors = s.monitors
      ∧ t.gens.monitor = s.gens.monitor ∧ keepsOutside [pageRange .mirror] s.mem t.mem := by
  have no_drops : s.drops = [] := List.eq_nil_of_length_eq_zero (by omega)
  have no_end : s.fhu.deferredEnd = none := by
    cases some : s.fhu.deferredEnd with
    | none => rfl
    | some e => simp [some] at none_owed
  have front : t.toFront = s.toFront.publish .mirror (mirrorPage table) := by
    rw [it.front]
    unfold Power.waitOver
    rw [no_drops, no_end]
    rfl
  refine ⟨(congrArg Front.log front :), (congrArg Front.trc front :), (congrArg Front.summary front :), (congrArg Front.monitors front :),
    congrArg (fun f => f.gens.monitor) front, ?_⟩
  rw [congrArg Front.mem front]
  exact (s.toFront.publish_frame .mirror (mirrorPage table)).1

theorem placed (it : s.WaitOver table t) (off : monitorsOff s)
    (room : s.drops.length + (if s.fhu.deferredEnd.isSome then 1 else 0) ≤ s.log.free) :
    s.toFront.Written t.toFront (heldBack s.drops s.fhu.deferredEnd table.outcome s.bayA.state s.bayB.state) := by
  have written := Front.writeAll_written (o := table.outcome) (a := s.bayA.state) (b := s.bayB.state) s.fhu.deferredEnd s.drops
    (s.toFront.publish .mirror (mirrorPage table)) off room
  rw [it.front]
  exact ⟨written.log, written.monitors, written.placed⟩

end State.WaitOver

theorem heldBack_drop {ds : List DropData} {n : Nat} {d : DropData} (there : ds[n]? = some d) (pending : Option DeferredEnd) (o : AckOutcome)
    (a b : BayState) : (heldBack ds pending o a b)[n]? = some (.drop d o a b) := by
  have few : n < ds.length := (List.getElem?_eq_some_iff.mp there).1
  unfold heldBack
  rw [List.getElem?_append_left (by rwa [List.length_map]), List.getElem?_map, there]
  rfl

theorem heldBack_end (ds : List DropData) (e : DeferredEnd) (o : AckOutcome) (a b : BayState) :
    (heldBack ds (some e) o a b)[ds.length]? = some (.holdoverEnd .exhausted e.duration e.planned o) := by
  unfold heldBack
  rw [List.getElem?_append_right (by simp), List.length_map, Nat.sub_self]
  rfl

theorem heldBack_length (ds : List DropData) (pending : Option DeferredEnd) (o : AckOutcome) (a b : BayState) :
    (heldBack ds pending o a b).length = ds.length + if pending.isSome then 1 else 0 := by
  unfold heldBack
  rw [List.length_append, List.length_map]
  cases pending <;> rfl

/-- Settles O22: the deferred records are written one after the other, each into the entry that the write index named at its turn, and the
two ends of the wait differ in their outcome alone. -/
theorem acknowledgementEndsTheWait : Obligations.AcknowledgementEndsTheWait := by
  unfold Obligations.AcknowledgementEndsTheWait
  intro d s h charger waits owed placed ended
  have over_ends (table : HoldTable) (t : State) (it : s.WaitOver table t) : ended table t := by
    refine ⟨it.shape, it.kept, it.nothing_owed, fun off room => ?_⟩
    have written := it.placed off room
    have at_ (n : Nat) (r : LogRecord)
        (there : (heldBack s.drops s.fhu.deferredEnd table.outcome s.bayA.state s.bayB.state)[n]? = some r) : placed t n r :=
      written.placed n r there _ (.refl _)
    refine ⟨?_, ?_, fun n x there => at_ n _ (heldBack_drop there _ _ _ _), fun e pends => at_ _ _ ?_⟩
    · have log : t.log.writeIndex = s.log.writeIndex + BitVec.ofNat 32 _ := congrArg LogRec.writeIndex written.log
      rw [log, heldBack_length]
    · exact (congrArg LogRec.missed written.log :)
    · rw [pends]
      exact heldBack_end s.drops e _ _ _
  refine ⟨⟨_, ?_, over_ends _ _ (State.endsWait h charger { s.hld with ackLine := true, wait := none, outcome := .acked } rfl)⟩, ?_, fun due => ⟨_, ?_, over_ends _ _
    (State.endsWait h charger { s.hld with wait := none, outcome := .notAcked } rfl)⟩⟩
  · rw [exec_storageAcknowledge, State.powerEvent_after h.1]
    unfold Power.setAckLine
    rw [show (true && s.hld.wait.isSome) = true by rw [waits]; rfl, if_pos rfl, Power.endWait_writes]
    rfl
  · refine ⟨s.after { s.toPower with hld := { s.hld with ackLine := false } }, ?_, ?_⟩
    · rw [exec_storageAcknowledge, State.powerEvent_after h.1]
      rfl
    · have same : (s.toBlocks.withPower { s.toPower with hld := { s.hld with ackLine := false } }).settled s.toBlocks
          = s.toBlocks.withPower { s.toPower with hld := { s.hld with ackLine := false } } :=
        Blocks.settled_of_same h.2 charger rfl (energyChanged_of_same rfl rfl rfl rfl fun _ => rfl)
      unfold State.after
      rw [same]
      rfl
  · rw [exec_ackDeadline, s.whilePowered_on _ h.1, waits, s.toBlocks.whenDue_due d _ due]
    have eq := Power.endWait_writes s.toPower .notAcked
    show Host.Outcome.next (s.after (s.toPower.endWait .notAcked)) = _
    rw [eq]

end Sys2Proof.Machine
end

section
/-! PROOF. The stages of the periodic budget pass (R63 to R74). -/

namespace Sys2Proof.Machine

open Sys2Proof.Safety

/-- d_therm with the loss of the thermistor (R65, R71). -/
theorem thermalDuty_lost (lost : Prop) [Decidable lost] (t : Int) : (if lost then 512 else thermalDuty t)
    = (if lost ∨ 750 ≤ t then 512 else if t < 650 then 1024 else 1024 - (t - 650).toNat * 512 / 100) := by
  unfold thermalDuty
  by_cases h : lost
  · simp [h]
  · by_cases cold : t < 650
    · have : ¬ 750 ≤ t := by omega
      simp [h, cold, this]
    · by_cases hot : t < 750
      · have : ¬ 750 ≤ t := by omega
        simp [h, cold, hot, this]
      · have : 750 ≤ t := by omega
        simp [h, cold, hot, this]

theorem Blocks.feedFactors_bay {x : Blocks} {b : Bay} (feeds : x.feed.kind = feedOf b) : x.feedFactors = some (factorsOf (x.bay b)) := by
  unfold Blocks.feedFactors
  rw [feeds]
  cases b <;> rfl

theorem Blocks.feedCapacity_bay {x : Blocks} {b : Bay} {i : Identity} (feeds : x.feed.kind = feedOf b) (known : (x.bay b).identity = some i) :
    x.feedCapacity = i.packMax * (factorsOf (x.bay b)).1 * (factorsOf (x.bay b)).2 / 10000 := by
  unfold Blocks.feedCapacity
  rw [feeds]
  cases b
  · show packPower ((x.bayA.identity.map _).getD 0) _ _ = _
    rw [show x.bayA.identity = some i from known]
    rfl
  · show packPower ((x.bayB.identity.map _).getD 0) _ _ = _
    rw [show x.bayB.identity = some i from known]
    rfl

theorem Blocks.feedFactors_apart {x : Blocks} (apart : x.feed.kind.bay = none) : x.feedFactors = none := by
  unfold Blocks.feedFactors
  rw [apart]
  rfl

theorem Blocks.feedCapacity_dc {x : Blocks} (dc : x.feed.kind = .dc) : x.feedCapacity = min x.feed.pAdapter (x.sfe.power.vDc * 6500 / 1000) := by
  unfold Blocks.feedCapacity
  rw [dc]
  rfl

theorem Blocks.feedCapacity_reservoir {x : Blocks} (reservoir : x.feed.kind = .reservoir) : x.feedCapacity = x.feed.pResLimit := by
  unfold Blocks.feedCapacity
  rw [reservoir]

/-- The part as the periodic timer leaves it to the pass. -/
def State.periodic (s : State) : State := { s with timers := { s.timers with pass := s.timers.pass + 100 } }

/-- Settles O24. -/
theorem periodicPassFollowsTheStages : Obligations.PeriodicPassFollowsTheStages := by
  unfold Obligations.PeriodicPassFollowsTheStages
  intro s h charger due none_pends
  obtain ⟨q, is⟩ : ∃ q : Power, q = { s.toPower with due := ⟨true, false, false, false, false⟩ } := ⟨_, rfl⟩
  have triggers : q.due = ⟨true, false, false, false, false⟩ := by rw [is]
  have seen : s.toBlocks.duePeriodic = s.periodic.toBlocks.withPower q := by
    rw [is]
    unfold Blocks.duePeriodic
    rw [h.2]
    rfl
  have goes : s.periodic.Goes q (s.periodic.withBlocks ((s.periodic.toBlocks.withPower q).settled s.toBlocks)) :=
    State.goes_of_passed (s := s.periodic) h (by rw [is]; exact .refl _) (by rw [is]; rfl)
      (Blocks.settled_passed (x := s.periodic.toBlocks.withPower q) (by show q.due.any = true; rw [triggers]; rfl) _)
  have next : exec .periodicTimer s = .next (s.periodic.withBlocks ((s.periodic.toBlocks.withPower q).settled s.toBlocks)) := by
    rw [exec_periodicTimer, s.whilePowered_on _ h.1, s.toBlocks.whenDue_due _ _ due, Blocks.runEvent_eq, seen]
    rfl
  refine ⟨_, next, ?_⟩
  clear next
  generalize s.periodic.withBlocks ((s.periodic.toBlocks.withPower q).settled s.toBlocks) = t at goes ⊢
  have still : q.feed.pending = ⟨false, false⟩ := by rw [is]; exact none_pends
  have bud : t.bud = s.toBlocks.computePass ⟨true, false, false, false, false⟩ := by
    rw [goes.pass.bud, is]
    rfl
  have assigned : t.assignment = s.assignment := by
    rw [goes.pass.shape]
    refine Eq.trans ?_ charger.symm
    rw [is]
    rfl
  have event : PassEvent s t := goes.passEvent (by rw [is]; rfl)
  refine ⟨goes.timers, by rw [bud]; rfl, by rw [bud]; rfl, fun dc => ?_, fun reservoir => ?_, fun b i k feeds known state => ?_,
    by rw [bud]; rfl, by rw [bud]; rfl, by rw [bud]; rfl, by rw [bud]; rfl, ?_, by rw [bud]; rfl, ?_, by rw [bud]; rfl, by rw [bud]; rfl, by rw [bud]; rfl,
    ?_, by rw [bud]; rfl, ?_, goes.liveDuty_kept (by rw [triggers]), by rw [goes.feed still, is], by rw [goes.fhu still, is], by rw [goes.hld, is],
    by rw [goes.bayA, is], by rw [goes.bayB, is], assigned, goes.mot, by rw [goes.trc, is], goes.sfe, event, ?_⟩
  · rw [bud]
    exact ⟨Blocks.feedCapacity_dc dc, Blocks.feedFactors_apart (congrArg FeedKind.bay dc)⟩
  · rw [bud]
    exact ⟨Blocks.feedCapacity_reservoir reservoir, Blocks.feedFactors_apart (congrArg FeedKind.bay reservoir)⟩
  · have factors : factorsOf (s.toBlocks.bay b) = if (s.bay b).state.standing.link then (70, 50) else (tFactor k.temperature, sFactor k.soc) := by
      unfold factorsOf
      rw [show (s.toBlocks.bay b).packState = some k from state]
    rw [← factors, bud]
    exact ⟨Blocks.feedFactors_bay feeds, Blocks.feedCapacity_bay feeds known⟩
  · rw [bud]
    unfold Blocks.computePass allowance
    simp only [decide_eq_true_eq]
  · rw [bud, ← thermalDuty_lost]
    unfold Blocks.computePass
    simp only [decide_eq_true_eq]
  · rw [bud]
    exact decide_eq_true_iff
  · rw [bud]
    unfold Blocks.computePass chargerLimit backlightTerm
    simp only [Bool.and_eq_true, Bool.not_eq_true', decide_eq_true_eq, decide_eq_false_iff_not]
  · exact goes.kept_plain (by rw [is]; exact keepsOutside_refl _ _)

end Sys2Proof.Machine
end

section
/-! PROOF. The pending curve adopted at an application point (R85, R92, R93). -/

namespace Sys2Proof.Machine

open Sys2Proof.Safety

/-- The occasions of an application point, with the application mode that each leaves (R92). -/
theorem exec_point {i : Instr} {m : AppMode} {s : State} (on : s.powered = true)
    (occasion : i = .frameStart ∧ m = .frame (s.tmb.uptime + 100)
      ∨ (∃ n, s.blc.appMode = .freeRun n ∧ n ≤ s.tmb.uptime ∧ i = .freeRunPoint ∧ m = .freeRun (n + 16))
      ∨ (∃ d, s.blc.appMode = .frame d ∧ d ≤ s.tmb.uptime ∧ i = .frameWatchDeadline ∧ m = .freeRun (d + 16))) :
    exec i s = .next (s.withBlocks (s.toBlocks.applyPoint.withAppMode m)) := by
  obtain ⟨rfl, rfl⟩ | ⟨n, mode, due, rfl, rfl⟩ | ⟨d, mode, due, rfl, rfl⟩ := occasion
  · rw [exec_frameStart, s.whilePowered_on _ on]
  · rw [exec_freeRunPoint, s.whilePowered_on _ on, mode, AppMode.nextPoint_freeRun, Blocks.whenDue_due _ _ _ due, mode]
    rfl
  · rw [exec_frameWatchDeadline, s.whilePowered_on _ on, mode, AppMode.watchDeadline_frame, Blocks.whenDue_due _ _ _ due, mode]
    rfl

theorem Front.entryOf_slot {f : Front} {i : Fin 32} {e : InFlight} (entry : f.entryOf i = some e) : e.slot = i := by
  simpa using List.find?_some (p := fun x : InFlight => decide (x.slot = i)) entry

/-- The completion of an entry in flight, field by field (R162). -/
theorem Front.complete_ends {f : Front} {i : Fin 32} {e : InFlight} (entry : f.entryOf i = some e) (c : Completion) :
    (∃ mem, f.complete i c = { f with
      mem := mem, inFlight := f.inFlight.filter (fun x => decide (x.slot ≠ i)), summary := doneSummary f.summary ⟨i, e.notify, e.tag⟩ })
    ∧ keepsOutside [slotRange i] f.mem (f.complete i c).mem
    ∧ answeredFlags (f.complete i c).mem ⟨i, e.notify, e.tag⟩ e.kind (resultFlags c.clamped c.transferFailed) c.code c.data := by
  have answers := Front.complete_answers entry c
  rw [show postingOf e = ⟨i, e.notify, e.tag⟩ by rw [← Front.entryOf_slot entry]; rfl] at answers
  refine ⟨?_, (f.complete_frame i c).2.1, answers⟩
  rw [f.complete_of_flying i c e entry]
  exact ⟨_, rfl⟩

theorem Blocks.applyPoint_with_curve {x : Blocks} {c : PendingCurve} (pends : x.blc.pendingCurve = some c) {l : LightRec}
    (adopted : l = LightRec.retarget { x.blc with curve := c.points, curveVersion := x.blc.curveVersion + 1, pendingCurve := none }) :
    x.applyPoint = { x with
      blc := l.stepDuty
      toFront := x.toFront.complete c.slot
        (.adopted c.clamped (leBytes 2 (x.blc.curveVersion + 1).toNat ++ [BitVec.ofNat 8 c.points.length])) } := by
  unfold Blocks.applyPoint Blocks.adoptCurve
  rw [pends, adopted]
  rfl

/-- Settles O27. -/
theorem pendingCurveIsAdoptedAtAPoint : Obligations.PendingCurveIsAdoptedAtAPoint := by
  unfold Obligations.PendingCurveIsAdoptedAtAPoint
  intro c e i m s on pends entry occasion p v cut live
  obtain ⟨l, adopted⟩ : ∃ l : LightRec, l = LightRec.retarget { s.blc with curve := c.points, curveVersion := v, pendingCurve := none } := ⟨_, rfl⟩
  have point := Blocks.applyPoint_with_curve (x := s.toBlocks) pends adopted
  obtain ⟨⟨mem, own⟩, kept, answers⟩ := Front.complete_ends entry (.adopted c.clamped (leBytes 2 v.toNat ++ [BitVec.ofNat 8 c.points.length]))
  generalize s.toFront.complete c.slot (.adopted c.clamped (leBytes 2 v.toNat ++ [BitVec.ofNat 8 c.points.length])) = f at point own kept answers
  have blc : l.stepDuty = { l with liveDuty := live } := by
    rw [LightRec.stepDuty_eq, adopted]
    rfl
  refine ⟨s.withBlocks { s.toBlocks with blc := { l with liveDuty := live, appMode := m }, toFront := f }, ?_, ?_, ?_, ?_, ?_, ?_, ?_, ?_, ?_, kept⟩
  · rw [exec_point on occasion, point, blc]
    rfl
  · rw [adopted]; rfl
  · rw [adopted]; rfl
  · rw [adopted]; rfl
  · rw [adopted]; rfl
  · rw [adopted]; rfl
  · rw [adopted]; rfl
  · unfold answered
    rw [← resultFlags_clamped]
    exact answers
  · rw [own, adopted]
    rfl

end Sys2Proof.Machine
end

section
/-! PROOF. MOT's intake of a sample: its arithmetic, the orientation window, the ring and a filling trace (R100, R103, R121, R124). -/

namespace Sys2Proof.Machine

open Sys2Proof.Safety

/-! ## A sample's arithmetic -/

theorem clampAxis_inRange {v : Int} (inside : axisInRange v = true) : clampAxis v = v := by
  unfold axisInRange at inside
  rw [Bool.and_eq_true, decide_eq_true_eq, decide_eq_true_eq] at inside
  unfold clampAxis clampInt
  omega

theorem Axes.m2_eq (x y z : Int) : (⟨x, y, z⟩ : Axes).m2 = x.natAbs ^ 2 + y.natAbs ^ 2 + z.natAbs ^ 2 := by
  unfold Axes.m2
  rw [sq, sq, sq]

theorem saturatedAxis_eq (v : Int) : saturatedAxis v = decide (v.natAbs = 16000) := by
  unfold saturatedAxis
  rw [← Bool.decide_or]
  exact decide_eq_decide.mpr (by omega)

theorem Axes.saturated_eq (x y z : Int) :
    (⟨x, y, z⟩ : Axes).saturated = decide (x.natAbs = 16000 ∨ y.natAbs = 16000 ∨ z.natAbs = 16000) := by
  unfold Axes.saturated
  rw [saturatedAxis_eq, saturatedAxis_eq, saturatedAxis_eq, Bool.or_assoc, ← Bool.decide_or, ← Bool.decide_or]

theorem sumAxis_eq (f : Axes → Int) (w : List Axes) : sumAxis f w = (w.map f).sum := by
  induction w with
  | nil => rfl
  | cons a w ih => rw [sumAxis, ih, List.map_cons, List.sum_cons]

theorem MotionConfig.weightless_iff (c : MotionConfig) (m2 : Nat) : c.weightless m2 = decide (m2 < c.tFf ^ 2) := by
  unfold MotionConfig.weightless
  rw [sq]

theorem MotionConfig.impact_iff (c : MotionConfig) (m2 : Nat) : c.impact m2 = decide (c.tImp ^ 2 < m2) := by
  unfold MotionConfig.impact
  rw [sq]

theorem MotionConfig.inBand_iff (c : MotionConfig) (m2 : Nat) : c.inBand m2 = decide (c.bandLow ^ 2 ≤ m2 ∧ m2 ≤ c.bandHigh ^ 2) := by
  unfold MotionConfig.inBand
  rw [sq, sq, Bool.decide_and]

/-! ## The window, the ring -/

theorem MotionRec.orient_eq (m : MotionRec) (a : Axes) : m.orient a = { m with
    window := (a :: m.window).take 16
    averages := (m.orient a).averages
    orientation := if ((a :: m.window).take 16).length = 16 then dominantAxis (m.orient a).averages else .unknown } := by
  have few : ((a :: m.window).take 16).length ≤ 16 := by rw [List.length_take]; omega
  unfold MotionRec.orient
  dsimp only
  split
  · rw [if_neg (by omega)]
  · rw [if_pos (by omega)]

/-- The averages stand at 0 until the window is full (R103). -/
theorem MotionRec.orient_averages (m : MotionRec) (a : Axes) : (m.orient a).averages =
    if ((a :: m.window).take 16).length = 16 then windowAverages ((a :: m.window).take 16) else ⟨0, 0, 0⟩ := by
  have few : ((a :: m.window).take 16).length ≤ 16 := by rw [List.length_take]; omega
  unfold MotionRec.orient
  dsimp only
  split
  · rw [if_neg (by omega)]
  · rw [if_pos (by omega)]

theorem MotionRec.history_eq (m : MotionRec) (a : Axes) : m.history a =
    ({ m with
      group := if m.index.toNat % 4 = 3 then none else joinGroup m.group m.index a.m2
      ring := (match (m.history a).2 with
        | none => m.ring
        | some e => (e :: m.ring).take 256) },
      if m.index.toNat % 4 = 3 then (joinGroup m.group m.index a.m2).map (ringEntry a) else none) := by
  unfold MotionRec.history
  cases joinGroup m.group m.index a.m2 with
  | none => simp
  | some g =>
    by_cases last : m.index.toNat % 4 = 3
    · simp [last]
    · simp [last]

section Joined

variable (s : State) (a : Axes)

/-- What a sample leaves in MOT's record before the runs are counted. -/
theorem joined_fields : (joined s a).1 = { s.mot with
    index := s.mot.index + 1, lastSample := some ⟨a, a.saturated, a.m2⟩, watchDeadline := s.tmb.uptime + 10
    window := (joined s a).1.window, averages := (joined s a).1.averages, orientation := (joined s a).1.orientation
    ring := (joined s a).1.ring, group := (joined s a).1.group } := by
  unfold joined
  rw [MotionRec.history_eq, MotionRec.orient_eq]
  rfl

theorem joined_window : (joined s a).1.window = (a :: s.mot.window).take 16 := by
  unfold joined
  rw [MotionRec.history_eq, MotionRec.orient_eq]
  rfl

theorem joined_averages : (joined s a).1.averages =
    if ((a :: s.mot.window).take 16).length = 16 then windowAverages ((a :: s.mot.window).take 16) else ⟨0, 0, 0⟩ := by
  unfold joined
  rw [MotionRec.history_eq]
  exact MotionRec.orient_averages _ _

theorem joined_orientation : (joined s a).1.orientation =
    if ((a :: s.mot.window).take 16).length = 16 then dominantAxis (joined s a).1.averages else .unknown := by
  unfold joined
  rw [MotionRec.history_eq, MotionRec.orient_eq]
  rfl

/-- The group of four once the sample has joined it (R121). -/
def joinedGroup : Option Nat := joinGroup s.mot.group (s.mot.index + 1) a.m2

theorem joined_group : (joined s a).1.group = if (s.mot.index + 1).toNat % 4 = 3 then none else joinedGroup s a := by
  unfold joined
  rw [MotionRec.history_eq, MotionRec.orient_eq]
  rfl

theorem joined_entry : (joined s a).2 = if (s.mot.index + 1).toNat % 4 = 3 then (joinedGroup s a).map (ringEntry a) else none := by
  unfold joined
  rw [MotionRec.history_eq, MotionRec.orient_eq]
  rfl

theorem joined_ring : (joined s a).1.ring = (match (joined s a).2 with
    | none => s.mot.ring
    | some e => (e :: s.mot.ring).take 256) := by
  have own : (joined s a).1.ring = (match (joined s a).2 with
    | none => ((s.mot.take a s.tmb.uptime).orient a).ring
    | some e => (e :: ((s.mot.take a s.tmb.uptime).orient a).ring).take 256) :=
    congrArg (fun p => p.1.ring) (MotionRec.history_eq ((s.mot.take a s.tmb.uptime).orient a) a)
  rw [own, MotionRec.orient_eq]
  rfl

theorem joined_ring_few (few : s.mot.ring.length ≤ 256) : (joined s a).1.ring.length ≤ 256 := by
  rw [joined_ring]
  cases (joined s a).2 with
  | none => exact few
  | some e => exact List.length_take_le _ _

theorem joined_state : (joined s a).1.state = s.mot.state := by rw [joined_fields]
theorem joined_config : (joined s a).1.config = s.mot.config := by rw [joined_fields]
theorem joined_index : (joined s a).1.index = s.mot.index + 1 := by rw [joined_fields]
theorem joined_freeFall : (joined s a).1.freeFall = s.mot.freeFall := by rw [joined_fields]
theorem joined_caught : (joined s a).1.caught = s.mot.caught := by rw [joined_fields]
theorem joined_settleRun : (joined s a).1.settleRun = s.mot.settleRun := by rw [joined_fields]

end Joined

/-! ## The trace -/

theorem length_traceEntryBytes (e : RingEntry) : (traceEntryBytes e).length = 8 := by
  simp [traceEntryBytes, axesBytes, w16, leSigned]

/-- A filling capture takes an entry at its next position; the 1,016th completes it (R124). -/
theorem Front.appendTrace_filling {f : Front} (filling : f.trc.state = .filling) (room : f.trc.written < 1016) (e : RingEntry) :
    ∃ mem, f.appendTrace e = { f with
      mem := mem
      trc := if f.trc.written + 1 < 1016 then { f.trc with written := f.trc.written + 1 }
        else { f.trc with state := .ready, written := 1016, endCause := .complete }
      summary := if f.trc.written + 1 < 1016 then f.summary else f.summary ||| 0x20 }
    ∧ readBytes mem (0x2040 + 8 * f.trc.written) 8 = traceEntryBytes e
    ∧ readBytes mem 0x2000 64 = traceHeader (f.appendTrace e).trc
    ∧ keepsOutside [(0x2000, 0x2040), (0x2040 + 8 * f.trc.written, 0x2048 + 8 * f.trc.written)] f.mem mem := by
  obtain ⟨g, written⟩ : ∃ g, g = f.write (traceEntryAt f.trc.written) (traceEntryBytes e) := ⟨_, rfl⟩
  have put (t : TraceRec) : readBytes (g.putTrace t).mem (0x2040 + 8 * f.trc.written) 8 = traceEntryBytes e
      ∧ keepsOutside [(0x2000, 0x2040), (0x2040 + 8 * f.trc.written, 0x2048 + 8 * f.trc.written)] f.mem (g.putTrace t).mem := by
    have back := readBytes_writeBytes_self f.mem (0x2040 + 8 * f.trc.written) (traceEntryBytes e)
      (by rw [length_traceEntryBytes]; show _ ≤ 16384; omega)
    have first : keepsOutside [(0x2000, 0x2040), (0x2040 + 8 * f.trc.written, 0x2048 + 8 * f.trc.written)] f.mem g.mem := by
      rw [written]
      refine keepsOutside_writeBytes f.mem _ _ (0x2040 + 8 * f.trc.written, 0x2048 + 8 * f.trc.written) (by simp) (Nat.le_refl _) ?_
      rw [length_traceEntryBytes]
      unfold traceEntryAt
      dsimp only
      omega
    have header := g.putTrace_keepsOutside t
    refine ⟨?_, keepsOutside_trans first (keepsOutside_mono header (by simp))⟩
    rw [readBytes_of_keepsOutside header _ _ (by simp), written]
    rwa [length_traceEntryBytes] at back
  unfold Front.appendTrace
  rw [if_pos filling]
  dsimp only
  rw [← written]
  by_cases more : f.trc.written + 1 < 1016
  · rw [if_pos more, if_pos more, if_pos more]
    refine ⟨_, ?_, (put { f.trc with written := f.trc.written + 1 }).1, g.putTrace_header _, (put _).2⟩
    rw [written]; rfl
  · rw [if_neg more, if_neg more, if_neg more]
    have trc : g.trc = f.trc := by rw [written]; rfl
    unfold Front.finishCapture
    rw [trc]
    refine ⟨_, ?_, (put { f.trc with state := .ready, written := 1016, endCause := .complete }).1, g.putTrace_header _, (put _).2⟩
    rw [written]; rfl

theorem Front.appendTrace_idle {f : Front} (idle : f.trc.state ≠ .filling) (e : RingEntry) : f.appendTrace e = f := if_neg idle

/-- A sample's entry changes nothing outside the trace. -/
theorem traced_fields (s : State) (a : Axes) (room : s.trc.state = .filling → s.trc.written < 1016) :
    (∃ (mem : Mem) (summary : Word) (trc : TraceRec), traced s a = { s.toFront with mem := mem, summary := summary, trc := trc })
    ∧ s.toFront.Raises (traced s a)
    ∧ keepsOutside (if s.trc.state = .filling then [(0x2000, 0x2040), (0x2040 + 8 * s.trc.written, 0x2048 + 8 * s.trc.written)] else [])
        s.mem (traced s a).mem := by
  unfold traced
  cases (joined s a).2 with
  | none => exact ⟨⟨_, _, _, rfl⟩, .refl _, keepsOutside_refl _ _⟩
  | some e =>
    dsimp only
    by_cases filling : s.trc.state = .filling
    · obtain ⟨mem, own, -, -, kept⟩ := Front.appendTrace_filling filling (room filling) e
      rw [if_pos filling, own]
      refine ⟨⟨_, _, _, rfl⟩, ?_, kept⟩
      by_cases more : s.trc.written + 1 < 1016
      · exact .of_same (if_pos more)
      · exact ⟨0x20, if_neg more⟩
    · rw [Front.appendTrace_idle filling]
      exact ⟨⟨_, _, _, rfl⟩, .refl _, keepsOutside_refl _ _⟩

/-! ## The event of a sample -/

/-- The blocks once a sample has joined and its run has been counted; its transition is still to be judged (R100, steps 1 to 4). -/
def State.counted (s : State) (a : Axes) : Blocks :=
  (s.toBlocks.withFront (traced s a)).withMot ((joined s a).1.countRuns a.m2 s.mot.orientation)

theorem Blocks.takeSample_counted {s : State} (valid : s.mot.health = .valid) (a : Axes) :
    s.toBlocks.takeSample a = (s.counted a).judgeSample a a.saturated := by
  unfold Blocks.takeSample Blocks.judgedSample
  dsimp only
  rw [if_pos (show s.toBlocks.mot.health = .valid from valid)]
  unfold State.counted traced joined
  cases h : (((s.mot.take a s.tmb.uptime).orient a).history a).2 with
  | none =>
    have h' : (((s.toBlocks.withMot (s.toBlocks.mot.take a s.toBlocks.tmb.uptime)).mot.orient a).history a).2 = none := h
    rw [h']
    rfl
  | some e =>
    have h' : (((s.toBlocks.withMot (s.toBlocks.mot.take a s.toBlocks.tmb.uptime)).mot.orient a).history a).2 = some e := h
    rw [h']
    rfl

theorem exec_sample {x y z : Int} {s : State} (on : s.powered = true) (hx : axisInRange x = true) (hy : axisInRange y = true)
    (hz : axisInRange z = true) (valid : s.mot.health = .valid) : exec (.accelSample x y z) s =
      .next (s.withBlocks (((s.counted ⟨x, y, z⟩).judgeSample ⟨x, y, z⟩ (⟨x, y, z⟩ : Axes).saturated).settled s.toBlocks)) := by
  rw [exec_accelSample, s.whilePowered_on _ on, clampAxis_inRange hx, clampAxis_inRange hy, clampAxis_inRange hz, Blocks.runEvent_eq,
    Blocks.takeSample_counted valid]

/-- An event of MOT that raises no trigger: nothing follows but the motion page, where the motion state has changed (R120). -/
theorem Blocks.settled_motion {x old : Blocks} (none_due : x.due = noCauses) (charger : ChargerSettled x.toPower)
    (energy : energyChanged old x = false) :
    x.settled old = if motionCode old.mot.state = motionCode x.mot.state then x else x.publishMotion := by
  rw [Blocks.settled_of_no_pass none_due, x.toPower.reassign_of_settled charger]
  unfold Blocks.publishChanges
  have quiet : energyChanged old x.publishMotion = false := energy
  by_cases same : motionCode old.mot.state = motionCode x.mot.state
  · rw [if_pos same, if_pos (show motionCode old.mot.state = motionCode (x.withPower x.toPower).mot.state from same)]
    exact if_neg (Bool.eq_false_iff.mp energy)
  · rw [if_neg same, if_neg (show ¬ motionCode old.mot.state = motionCode (x.withPower x.toPower).mot.state from same)]
    exact if_neg (Bool.eq_false_iff.mp quiet)

/-- The blocks after changes of MOT's record, the host's side and the deferred records. -/
def State.moved (s : State) (m : MotionRec) (f : Front) (drops : List DropData) : Blocks := { s.toBlocks with mot := m, toFront := f, drops := drops }

section Moved

variable {s : State} (ready : Ready s) (charger : ChargerSettled s.toPower) (m : MotionRec) (f : Front) (drops : List DropData)

include ready charger

theorem State.moved_settled : (s.moved m f drops).settled s.toBlocks =
    if motionCode s.mot.state = motionCode m.state then s.moved m f drops else (s.moved m f drops).publishMotion :=
  Blocks.settled_motion (x := s.moved m f drops) ready.2 charger (energyChanged_of_same rfl rfl rfl rfl fun _ => rfl)

/-- The motion state stays: no page follows. -/
theorem State.moved_stays (same : motionCode s.mot.state = motionCode m.state) : (s.moved m f drops).settled s.toBlocks = s.moved m f drops := by
  rw [State.moved_settled ready charger, if_pos same]

/-- The motion state changes: the motion page follows. -/
theorem State.moved_turns (turned : motionCode s.mot.state ≠ motionCode m.state) :
    (s.moved m f drops).settled s.toBlocks = s.moved m (f.publish .motion (motionPage m)) drops := by
  rw [State.moved_settled ready charger, if_neg turned]
  rfl

end Moved

theorem State.counted_moved (s : State) (a : Axes) :
    s.counted a = s.moved ((joined s a).1.countRuns a.m2 s.mot.orientation) (traced s a) s.drops := rfl

end Sys2Proof.Machine
end

section
/-! PROOF. A sample in NORMAL that confirms nothing (R100, R103, R105, R121, R124). -/

namespace Sys2Proof.Machine

open Sys2Proof.Safety

/-! ## Runs -/

theorem FreeFallRun.step_hit (s : State) : s.mot.freeFall.step true (s.mot.index + 1) s.mot.orientation = fallRun s := rfl

theorem FreeFallRun.step_miss (r : FreeFallRun) (idx : Word) (o : Orientation) : r.step false idx o = ⟨0, 0, .unknown⟩ := rfl

theorem fallRun_count (s : State) : (fallRun s).count = min 160 (s.mot.freeFall.count + 1) := by
  unfold fallRun
  split
  · rename_i none_runs
    rw [none_runs]
    rfl
  · rfl

/-- The free-fall run once a sample of NORMAL or SETTLE has been counted (R105). -/
def countedFall (s : State) (m2 : Nat) : FreeFallRun := if m2 < s.mot.config.tFf ^ 2 then fallRun s else ⟨0, 0, .unknown⟩

theorem countedFall_eq (s : State) (m2 : Nat) :
    s.mot.freeFall.step (s.mot.config.weightless m2) (s.mot.index + 1) s.mot.orientation = countedFall s m2 := by
  unfold countedFall
  rw [MotionConfig.weightless_iff]
  by_cases hit : m2 < s.mot.config.tFf ^ 2
  · rw [decide_eq_true hit, if_pos hit, FreeFallRun.step_hit]
  · rw [decide_eq_false hit, if_neg hit, FreeFallRun.step_miss]

theorem MotionRec.countRuns_normal {m : MotionRec} (normal : m.state = .normal) (m2 : Nat) (before : Orientation) :
    m.countRuns m2 before = { m with freeFall := m.freeFall.step (m.config.weightless m2) m.index before } := by
  cases m
  cases normal
  rfl

theorem joined_countedFall (s : State) (a : Axes) :
    (joined s a).1.freeFall.step ((joined s a).1.config.weightless a.m2) (joined s a).1.index s.mot.orientation = countedFall s a.m2 := by
  rw [joined_freeFall, joined_config, joined_index, countedFall_eq]

theorem countRuns_normal {s : State} (normal : s.mot.state = .normal) (a : Axes) :
    (joined s a).1.countRuns a.m2 s.mot.orientation = { (joined s a).1 with freeFall := countedFall s a.m2 } := by
  rw [MotionRec.countRuns_normal ((joined_state s a).trans normal), joined_countedFall]


theorem countedFall_few {s : State} {m2 : Nat} (positive : 0 < s.mot.config.nFf)
    (few : m2 < s.mot.config.tFf ^ 2 → s.mot.freeFall.count + 1 < s.mot.config.nFf) : (countedFall s m2).count < s.mot.config.nFf := by
  unfold countedFall
  by_cases hit : m2 < s.mot.config.tFf ^ 2
  · rw [if_pos hit, fallRun_count]
    exact Nat.lt_of_le_of_lt (Nat.min_le_right _ _) (few hit)
  · rw [if_neg hit]
    exact positive

/-! ## The transitions of each state (Table 6-6) -/

section Judged

variable {x : Blocks} {a : Axes} (sat : Bool)

theorem Blocks.judgeSample_falling {e : Episode} (falling : x.mot.state = .falling e) : x.judgeSample a sat =
    if x.mot.config.impact a.m2 then x.impactFall e a sat
    else if x.mot.config.nFf ≤ x.mot.caught.count then x.endFall e false (fallTime (x.mot.caught.first - e.fallStart).toNat)
    else if 2400 ≤ (x.mot.index - e.fallStart).toNat then x.endFall e true 1500
    else x := by
  unfold Blocks.judgeSample
  dsimp only
  rw [falling]

theorem Blocks.judgeSample_drop {e : Episode} {w : ImpactWindow} (drop : x.mot.state = .impactDrop e w) : x.judgeSample a sat =
    if 32 ≤ w.counted + 1 then (x.endDrop e (w.add a sat)).enterSettle
    else x.withMot { x.mot with state := .impactDrop e (w.add a sat) } := by
  unfold Blocks.judgeSample
  dsimp only
  rw [drop]
  rfl

theorem Blocks.judgeSample_shock {ret : ReturnState} {w : ImpactWindow} (shock : x.mot.state = .impactShock ret w) : x.judgeSample a sat =
    if 32 ≤ w.counted + 1 then (x.endShock ret (w.add a sat)).returnShock ret
    else x.withMot { x.mot with state := .impactShock ret (w.add a sat) } := by
  unfold Blocks.judgeSample
  dsimp only
  rw [shock]
  rfl

theorem Blocks.judgeSample_normal (normal : x.mot.state = .normal) : x.judgeSample a sat =
    if x.mot.config.impact a.m2 then x.openShock .normal a sat
    else if x.mot.config.nFf ≤ x.mot.freeFall.count then x.confirmFall
    else x := by
  unfold Blocks.judgeSample
  dsimp only
  rw [normal]

theorem Blocks.judgeSample_settle {d : Nat} (settle : x.mot.state = .settle d) : x.judgeSample a sat =
    if x.mot.config.impact a.m2 then x.openShock .settle a sat
    else if x.mot.config.nFf ≤ x.mot.freeFall.count then x.confirmFall
    else if x.mot.config.tSettle ≤ x.mot.settleRun then x.completeSettle
    else x := by
  unfold Blocks.judgeSample
  dsimp only
  rw [settle]

end Judged

/-- A sample in NORMAL that neither opens a window nor confirms a fall. -/
theorem judgeSample_quiet {x : Blocks} (normal : x.mot.state = .normal) {a : Axes} (calm : x.mot.config.impact a.m2 = false)
    (few : x.mot.freeFall.count < x.mot.config.nFf) (sat : Bool) : x.judgeSample a sat = x := by
  rw [Blocks.judgeSample_normal sat normal, calm, if_neg Bool.false_ne_true, if_neg (Nat.not_le.mpr few)]

theorem ringed_match (o : Option RingEntry) (ring : List RingEntry) : (o.elim ring fun e => (e :: ring).take 256) = (match o with
    | none => ring
    | some e => (e :: ring).take 256) := by cases o <;> rfl

theorem joined_ring_elim (s : State) (a : Axes) : (joined s a).1.ring = (joined s a).2.elim s.mot.ring fun e => (e :: s.mot.ring).take 256 :=
  (joined_ring s a).trans (ringed_match _ _).symm

/-- MOT's record once a sample has joined window and ring, in the terms of the sample (R100, R103, R121). -/
theorem joined_stands {s : State} {a avg : Axes} {group : Option Nat} {entry : Option RingEntry} (averages : (joined s a).1.averages = avg)
    (opened : joinedGroup s a = group) (completed : (joined s a).2 = entry) : (joined s a).1 = { s.mot with
      index := s.mot.index + 1, lastSample := some ⟨a, a.saturated, a.m2⟩, watchDeadline := s.tmb.uptime + 10
      window := (a :: s.mot.window).take 16, averages := avg
      orientation := if ((a :: s.mot.window).take 16).length = 16 then dominantAxis avg else .unknown
      ring := entry.elim s.mot.ring fun e => (e :: s.mot.ring).take 256
      group := if (s.mot.index + 1).toNat % 4 = 3 then none else group } := by
  subst averages opened completed
  rw [← joined_ring_elim, ← joined_group, ← joined_orientation, ← joined_window]
  exact joined_fields s a

/-- A full window's averages, axis by axis. -/
theorem windowAverages_full {w : List Axes} {avg : Axes}
    (is : avg = ⟨if w.length = 16 then Int.tdiv (w.map Axes.x).sum 16 else 0, if w.length = 16 then Int.tdiv (w.map Axes.y).sum 16 else 0,
      if w.length = 16 then Int.tdiv (w.map Axes.z).sum 16 else 0⟩) :
    (if w.length = 16 then windowAverages w else ⟨0, 0, 0⟩) = avg := by
  rw [is]
  by_cases full : w.length = 16
  · simp only [if_pos full, windowAverages, sumAxis_eq]
  · simp only [if_neg full]

/-- A sample's entry goes to a capture that is filling (R124). -/
theorem traced_some {s : State} {a : Axes} {e : RingEntry} (completed : (joined s a).2 = some e) : traced s a = s.toFront.appendTrace e := by
  unfold traced
  rw [completed]

theorem traced_none {s : State} {a : Axes} (idle : (joined s a).2 = none ∨ s.trc.state ≠ .filling) : traced s a = s.toFront := by
  unfold traced
  cases joins : (joined s a).2 with
  | none => rfl
  | some e => exact Front.appendTrace_idle (idle.resolve_left (by rw [joins]; nofun)) e

/-- Settles O28. -/
theorem quietSampleIsTaken : Obligations.QuietSampleIsTaken := by
  unfold Obligations.QuietSampleIsTaken
  intro x y z s ready charger normal valid hx hy hz a m2 calm positive few idx w mean avg group entry
  have size : a.m2 = m2 := Axes.m2_eq x y z
  obtain ⟨m, is⟩ : ∃ m : MotionRec, m = { (joined s a).1 with freeFall := countedFall s m2 } := ⟨_, rfl⟩
  have counted : s.counted a = s.moved m (traced s a) s.drops := by
    rw [State.counted_moved, countRuns_normal normal, is, size]
  have state : m.state = .normal := by
    rw [is]
    exact (joined_state s a).trans normal
  have judged : (s.counted a).judgeSample a a.saturated = s.moved m (traced s a) s.drops := by
    rw [counted]
    refine judgeSample_quiet state ?_ ?_ _
    · show m.config.impact a.m2 = false
      rw [is, size, MotionConfig.impact_iff]
      show decide ((joined s a).1.config.tImp ^ 2 < m2) = false
      rw [joined_config, decide_eq_false (Nat.not_lt.mpr calm)]
    · show m.freeFall.count < m.config.nFf
      rw [is]
      show (countedFall s m2).count < (joined s a).1.config.nFf
      rw [joined_config]
      exact countedFall_few positive few
  have next : exec (.accelSample x y z) s = .next (s.withBlocks (s.moved m (traced s a) s.drops)) := by
    rw [exec_sample ready.1 hx hy hz valid, judged, State.moved_stays ready charger]
    rw [state, normal]
  have opened : joinedGroup s a = group := by
    unfold joinedGroup joinGroup
    rw [size]
  have completed : (joined s a).2 = entry := by
    rw [joined_entry, opened]
    rfl
  have averages : (joined s a).1.averages = avg := (joined_averages s a).trans (windowAverages_full rfl)
  have mot := is
  rw [joined_stands averages opened completed, Axes.saturated_eq, size] at mot
  refine ⟨_, next, ?_, fun heavy => ?_, fun light => ?_, fun none_joins => ?_, fun e joins filling room => ?_⟩
  · refine mot.trans ?_
    have free : m.freeFall = countedFall s m2 := by rw [is]
    rw [← free, ringed_match]
    rfl
  · show m.freeFall.count = 0
    rw [is]
    show (countedFall s m2).count = 0
    unfold countedFall
    rw [if_neg (Nat.not_lt.mpr heavy)]
  · show m.freeFall = _
    rw [is]
    exact if_pos light
  · rw [traced_none (by rw [completed]; exact none_joins)]
    rfl
  · rw [traced_some (completed.trans joins)]
    obtain ⟨mem, own, back, header, kept⟩ := Front.appendTrace_filling (f := s.toFront) filling room e
    rw [own] at header ⊢
    exact ⟨back, rfl, rfl, header, kept⟩

end Sys2Proof.Machine
end

section
/-! PROOF. The loss of the accelerometer and its return (R101, R102, R125). -/

namespace Sys2Proof.Machine

open Sys2Proof.Safety

/-! ## What MOT's events write on the host's side -/

/-- Between `f` and `g` records have been made and the trace has changed. -/
structure Front.Fares (f g : Front) : Prop where
  shape : ∃ (mem : Mem) (summary : Word) (log : LogRec) (monitors : List Monitor) (gen : Word) (trc : TraceRec), g = { f with
    mem := mem, summary := summary, log := { log with effRead := f.log.effRead }, monitors := monitors
    gens := { f.gens with monitor := gen }, trc := trc }
  logs : f.LogGrows g
  raised : f.Raises g
  kept : keepsOutside (traceRange :: recordRanges) f.mem g.mem

namespace Front.Fares

theorem trans {f g h : Front} (a : f.Fares g) (b : g.Fares h) : f.Fares h := by
  obtain ⟨m, s, l, ms, v, t, own⟩ := a.shape
  obtain ⟨m', s', l', ms', v', t', own'⟩ := b.shape
  refine ⟨⟨m', s', l', ms', v', t', ?_⟩, a.logs.trans b.logs, a.raised.trans b.raised, keepsOutside_trans a.kept b.kept⟩
  rw [own', own]

theorem refl (f : Front) : f.Fares f := ⟨⟨_, _, _, _, _, _, rfl⟩, .refl f, .refl f, keepsOutside_refl _ _⟩

end Front.Fares

theorem Front.Notes.fares {f g : Front} (h : f.Notes g) : f.Fares g := by
  obtain ⟨m, s, l, ms, v, own⟩ := h.step.fields
  exact ⟨⟨m, s, l, ms, v, f.trc, own⟩, h.logs, h.raised, keepsOutside_mono h.step.kept fun _ => List.mem_cons_of_mem _⟩

/-- A change of the trace alone. -/
theorem Front.fares_of_trace {f : Front} {mem : Mem} {summary : Word} {trc : TraceRec} (raised : ∃ w, summary = f.summary ||| w)
    (kept : keepsOutside [traceRange] f.mem mem) : f.Fares { f with mem := mem, summary := summary, trc := trc } :=
  ⟨⟨_, _, _, _, _, _, rfl⟩, .of_beside rfl kept (by simp [traceRange]), raised, keepsOutside_mono kept (by simp)⟩

theorem keepsOutside_widen {rs : List Range} {r : Range} {m n : Mem} (h : keepsOutside rs m n) (inside : ∀ q ∈ rs, r.1 ≤ q.1 ∧ q.2 ≤ r.2) :
    keepsOutside [r] m n := by
  intro x out
  refine h x fun q mem holds => out r (List.mem_singleton.mpr rfl) ?_
  have := inside q mem
  simp only [Range.holds] at holds ⊢
  omega

theorem Front.Links.fares {f g : Front} (h : f.Links g) : f.Fares g := by
  obtain ⟨m, s, l, ms, v, t, own⟩ := h.shape
  refine ⟨⟨m, s, l, ms, v, _, own⟩, h.logs, h.raised, fun x out => h.kept x fun q mem holds => ?_⟩
  cases mem with
  | head => exact out traceRange List.mem_cons_self (by simp only [Range.holds, traceRange] at holds ⊢; omega)
  | tail _ mem => exact out q (List.mem_cons_of_mem _ mem) holds

theorem traced_fares (s : State) (a : Axes) (room : s.trc.state = .filling → s.trc.written < 1016) : s.toFront.Fares (traced s a) := by
  obtain ⟨⟨mem, summary, trc, own⟩, raised, kept⟩ := traced_fields s a room
  rw [own] at raised kept ⊢
  refine Front.fares_of_trace raised (keepsOutside_widen kept ?_)
  split
  · rename_i filling
    have := room filling
    simp [traceRange]
    omega
  · simp

/-! ## MOT's event -/

/-- An event of MOT that changes the motion state and raises no trigger: MOT's record, the host's side, the deferred records, and the motion
page once (R120). -/
structure State.Turned (s : State) (m : MotionRec) (f : Front) (drops : List DropData) (t : State) : Prop where
  mot   : t.mot = m
  late  : t.drops = drops
  trc   : t.trc = f.trc
  log   : t.log = f.log
  raise : t.summary = f.summary
  logs  : f.LogGrows t.toFront
  page  : keepsOutside [pageRange .motion] f.mem t.mem
  shape : t = { s with
    mot := m, drops := drops, trc := t.trc, mem := t.mem, summary := t.summary, log := { t.log with effRead := s.log.effRead }
    monitors := t.monitors, gens := { s.gens with motion := s.gens.motion + 2, monitor := t.gens.monitor }, pins := derivePins t.toBlocks }
  kept  : keepsOutside (traceRange :: pageRange .motion :: recordRanges) s.mem t.mem

theorem Front.publishMotion_logs (f : Front) (m : MotionRec) : f.LogGrows (f.publish .motion (motionPage m)) :=
  .of_beside rfl (f.publish_frame .motion (motionPage m)).1 (by decide)

theorem State.turns {s : State} (ready : Ready s) (charger : ChargerSettled s.toPower) {m : MotionRec} {f : Front} (fares : s.toFront.Fares f)
    (drops : List DropData) (turned : motionCode s.mot.state ≠ motionCode m.state) :
    s.Turned m f drops (s.withBlocks ((s.moved m f drops).settled s.toBlocks)) := by
  rw [State.moved_turns ready charger m f drops turned]
  have page := (f.publish_frame .motion (motionPage m)).1
  refine ⟨rfl, rfl, rfl, rfl, rfl, f.publishMotion_logs m, page, ?_, ?_⟩
  · obtain ⟨mem, summary, log, monitors, gen, trc, own⟩ := fares.shape
    rw [own]
    rfl
  · exact keepsOutside_trans (keepsOutside_mono fares.kept (by simp +contextual)) (keepsOutside_mono page (by simp))

/-! ## The end of a filling capture (R125) -/

/-- No-data entries, one after the other. -/
def noDataBytes (n : Nat) : List Byte := (List.replicate n noData).flatMap traceEntryBytes

theorem noDataBytes_succ (n : Nat) : noDataBytes (n + 1) = traceEntryBytes noData ++ noDataBytes n := rfl

theorem length_noDataBytes (n : Nat) : (noDataBytes n).length = 8 * n := by
  induction n with
  | zero => rfl
  | succ n ih =>
    rw [noDataBytes_succ, List.length_append, ih, length_traceEntryBytes]
    omega

theorem noDataBytes_entry {n k : Nat} (inside : k < n) : ((noDataBytes n).drop (8 * k)).take 8 = traceEntryBytes noData := by
  induction n generalizing k with
  | zero => exact absurd inside (Nat.not_lt_zero _)
  | succ n ih =>
    rw [noDataBytes_succ]
    cases k with
    | zero => exact List.take_left' (length_traceEntryBytes _)
    | succ k =>
      rw [show 8 * (k + 1) = 8 + 8 * k by omega, ← List.drop_drop, List.drop_left' (length_traceEntryBytes _)]
      exact ih (Nat.lt_of_succ_lt_succ inside)

theorem Front.endCapture_idle {f : Front} (idle : f.trc.state ≠ .filling) : f.endCapture = f := if_neg idle

theorem Front.endCapture_eq {f : Front} (filling : f.trc.state = .filling) : f.endCapture =
    (({ f.write (traceEntryAt f.trc.written) (noDataBytes (1016 - f.trc.written)) with
      summary := f.summary ||| 0x20 } : Front).putTrace { f.trc with state := .ready, written := 1016, endCause := .sensorLost }) := by
  unfold Front.endCapture
  rw [if_pos filling]
  rfl

/-- The rest of a filling capture is written with no-data entries. -/
theorem Front.write_noData (f : Front) (n : Nat) : keepsOutside [traceRange] f.mem (f.write (traceEntryAt n) (noDataBytes (1016 - n))).mem := by
  by_cases few : n ≤ 1016
  · refine keepsOutside_writeBytes f.mem _ _ traceRange (by simp) ?_ ?_
    · simp only [traceRange, traceEntryAt]; omega
    · simp only [traceRange, traceEntryAt, length_noDataBytes]; omega
  · rw [show 1016 - n = 0 by omega]
    exact fun x _ => readByte_writeBytes_outside f.mem _ [] x (by rw [List.length_nil]; omega)

theorem Front.endCapture_fares (f : Front) : f.Fares f.endCapture := by
  by_cases filling : f.trc.state = .filling
  · rw [Front.endCapture_eq filling]
    obtain ⟨g, written⟩ : ∃ g : Front, g = { f.write (traceEntryAt f.trc.written) (noDataBytes (1016 - f.trc.written)) with
      summary := f.summary ||| 0x20 } := ⟨_, rfl⟩
    have kept : keepsOutside [traceRange] f.mem g.mem := by
      rw [written]
      exact f.write_noData f.trc.written
    have header := keepsOutside_widen (g.putTrace_keepsOutside { f.trc with state := .ready, written := 1016, endCause := .sensorLost })
      (r := traceRange) (by simp [traceRange])
    have fares := Front.fares_of_trace (f := f) (summary := f.summary ||| 0x20)
      (trc := { f.trc with state := .ready, written := 1016, endCause := .sensorLost }) ⟨0x20, rfl⟩ (keepsOutside_trans kept header)
    rw [← written]
    have own : g.putTrace { f.trc with state := .ready, written := 1016, endCause := .sensorLost } = { f with
        mem := (g.putTrace { f.trc with state := .ready, written := 1016, endCause := .sensorLost }).mem
        summary := f.summary ||| 0x20, trc := { f.trc with state := .ready, written := 1016, endCause := .sensorLost } } := by
      rw [written]
      rfl
    rw [own]
    exact fares
  · rw [Front.endCapture_idle filling]
    exact .refl f

/-- What a capture that ends at a loss shows (R125). -/
theorem Front.endCapture_shows {f : Front} (filling : f.trc.state = .filling) (few : f.trc.written ≤ 1016) :
    f.endCapture.trc = { f.trc with state := .ready, written := 1016, endCause := .sensorLost } ∧ f.endCapture.summary = f.summary ||| 0x20
    ∧ (∀ e, e < 1016 → readBytes f.endCapture.mem (0x2040 + 8 * e) 8
        = if e < f.trc.written then readBytes f.mem (0x2040 + 8 * e) 8 else traceEntryBytes noData)
    ∧ readBytes f.endCapture.mem 0x2000 64 = traceHeader f.endCapture.trc := by
  rw [Front.endCapture_eq filling]
  obtain ⟨g, written⟩ : ∃ g : Front, g = { f.write (traceEntryAt f.trc.written) (noDataBytes (1016 - f.trc.written)) with
    summary := f.summary ||| 0x20 } := ⟨_, rfl⟩
  rw [← written]
  have summary : g.summary = f.summary ||| 0x20 := by rw [written]
  refine ⟨rfl, summary, fun e inside => ?_, g.putTrace_header _⟩
  rw [readBytes_of_keepsOutside (g.putTrace_keepsOutside _) _ _ (by simp), written]
  by_cases before : e < f.trc.written
  · rw [if_pos before]
    exact readBytes_writeBytes_disjoint _ _ _ _ _ (.inl (by unfold traceEntryAt; omega))
  · rw [if_neg before, ← noDataBytes_entry (n := 1016 - f.trc.written) (k := e - f.trc.written) (by omega)]
    have place : 0x2040 + 8 * e = traceEntryAt f.trc.written + 8 * (e - f.trc.written) := by unfold traceEntryAt; omega
    rw [place]
    refine readBytes_writeBytes_within _ _ _ _ _ ?_ ?_
    · rw [length_noDataBytes]; omega
    · rw [length_noDataBytes]; unfold traceEntryAt; show _ ≤ 16384; omega

/-! ## The loss -/

/-- MOT's record at a loss (R101). -/
def MotionRec.lost (m : MotionRec) (now : Nat) : MotionRec :=
  { m with
    state := .sensorLost, health := .lost, window := [], orientation := .unknown, averages := ⟨0, 0, 0⟩
    freeFall := ⟨0, 0, .unknown⟩, caught := ⟨0, 0⟩, settleRun := 0, ring := [], group := none, liftDeadline := some (now + 5000) }

theorem exec_loses {s : State} (on : s.powered = true) (valid : s.mot.health = .valid) (due : s.mot.watchDeadline ≤ s.tmb.uptime) :
    exec .sampleWatch s = .next (s.withBlocks (s.toBlocks.loseAccel.settled s.toBlocks)) := by
  rw [exec_sampleWatch, s.whilePowered_on _ on, valid, if_neg (by decide), Blocks.whenDue_due _ _ _ due, Blocks.runEvent_eq]

/-- The front end once the loss has been recorded. -/
def State.reported (s : State) : Front := s.toFront.makeRecord (.sensorFault .accel)

theorem loseAccel_normal {s : State} (normal : s.mot.state = .normal) :
    s.toBlocks.loseAccel = s.moved (s.mot.lost s.tmb.uptime) s.reported.endCapture s.drops := by
  unfold Blocks.loseAccel Blocks.endWindowEarly
  rw [show (s.toBlocks.withFront (s.toFront.makeRecord (.sensorFault .accel))).mot.state = .normal from normal]
  rfl

theorem State.reported_trc (s : State) : s.reported.trc = s.trc := by
  obtain ⟨m, su, l, ms, v, own⟩ := (s.toFront.makeRecord_notes (.sensorFault .accel)).step.fields
  unfold State.reported
  rw [own]

theorem recordRanges_below : ∀ r ∈ recordRanges, r.2 ≤ 0x2000 := by decide

theorem flag_up (w : Word) {b : Word} (flag : b ≠ 0) : (w ||| b) &&& b ≠ 0 := by
  have up : (w ||| b) &&& b = b := by
    ext i
    simpa using fun set => .inr set
  rwa [up]

/-- The loss from NORMAL, a capture or none in progress. -/
theorem loss_from_normal {s : State} (ready : Ready s) (charger : ChargerSettled s.toPower) (normal : s.mot.state = .normal)
    (valid : s.mot.health = .valid) (due : s.mot.watchDeadline ≤ s.tmb.uptime) :
    ∃ t, exec .sampleWatch s = .next t ∧ t.mot = s.mot.lost s.tmb.uptime ∧ Logged s.toFront t.toFront (.sensorFault .accel) s.tmb
      ∧ t = { s with
          mot := t.mot, trc := t.trc, mem := t.mem, summary := t.summary, log := { t.log with effRead := s.log.effRead }
          monitors := t.monitors, gens := { s.gens with monitor := t.gens.monitor, motion := s.gens.motion + 2 }
          pins := derivePins t.toBlocks }
      ∧ (¬ s.trc.state = .filling → t.trc = s.trc ∧ keepsOutside (pageRange .motion :: recordRanges) s.mem t.mem)
      ∧ (s.trc.state = .filling → s.trc.written ≤ 1016 →
          t.trc = { s.trc with state := .ready, written := 1016, endCause := .sensorLost } ∧ t.summary &&& 0x20 ≠ 0
          ∧ (∀ e, e < 1016 → readBytes t.mem (0x2040 + 8 * e) 8
              = if e < s.trc.written then readBytes s.mem (0x2040 + 8 * e) 8 else traceEntryBytes noData)
          ∧ readBytes t.mem 0x2000 64 = traceHeader t.trc
          ∧ keepsOutside (traceRange :: pageRange .motion :: recordRanges) s.mem t.mem) := by
  have notes : s.toFront.Notes s.reported := s.toFront.makeRecord_notes _
  have logs : s.toFront.Logs s.reported (.sensorFault .accel) s.tmb := s.toFront.makeRecord_logs _
  have trc := s.reported_trc
  have turns := State.turns ready charger (m := s.mot.lost s.tmb.uptime) (notes.fares.trans s.reported.endCapture_fares) s.drops
    (by rw [normal]; show motionCode .normal ≠ motionCode .sensorLost; decide)
  rw [← loseAccel_normal normal] at turns
  refine ⟨_, exec_loses ready.1 valid due, turns.mot, ?_, ?_, ?_, ?_⟩
  · exact (logs.later (s.reported.endCapture_fares.logs.trans turns.logs)).logged
  · refine turns.shape.trans ?_
    rw [turns.mot]
  · intro idle
    have same : s.reported.endCapture = s.reported := Front.endCapture_idle (by rw [trc]; exact idle)
    refine ⟨by rw [turns.trc, same, trc], ?_⟩
    have page := turns.page
    rw [same] at page
    exact keepsOutside_trans (keepsOutside_mono notes.step.kept (by simp +contextual)) (keepsOutside_mono page (by simp))
  · intro filling few
    obtain ⟨record, summary, entries, header⟩ := Front.endCapture_shows (f := s.reported) (by rw [trc]; exact filling) (by rw [trc]; exact few)
    rw [trc] at record entries
    have page (i k : Nat) (inside : 0x2000 ≤ i) : readBytes (s.withBlocks (s.toBlocks.loseAccel.settled s.toBlocks)).mem i k
        = readBytes s.reported.endCapture.mem i k :=
      readBytes_of_keepsOutside turns.page i k (by simp only [List.mem_singleton, forall_eq, pageRange, PageId.offset]; omega)
    refine ⟨turns.trc.trans record, ?_, fun e inside => ?_, ?_, turns.kept⟩
    · rw [turns.raise, summary]
      exact flag_up _ (by decide)
    · rw [page _ _ (by omega), entries e inside]
      split
      · exact readBytes_of_keepsOutside notes.step.kept _ _ (fun r mem => .inr (Nat.le_trans (recordRanges_below r mem) (by omega)))
      · rfl
    · rw [page _ _ (Nat.le_refl _), header, turns.trc]

/-! ## The return -/

theorem Power.removeHolds_none {p : Power} {gone : HoldEntry → Bool} (none_goes : (p.hld.entries.any fun o => o.any gone) = false) (l : Loads) :
    p.removeHolds l gone = p := if_pos (removeEntries_same none_goes)

theorem motion_absent {es : List (Option HoldEntry)} (absent : ∀ e, some e ∈ es → e.holder ≠ .motion) :
    (es.any fun o => o.any fun e => decide (e.holder = .motion)) = false := by
  rw [List.any_eq_false]
  intro o mem
  cases o with
  | none => exact Bool.false_ne_true
  | some e => simpa using absent e mem

theorem Blocks.liftMotion_none {x : Blocks} (absent : ∀ e, some e ∈ x.hld.entries → e.holder ≠ .motion) : x.liftMotion = x := by
  unfold Blocks.liftMotion
  rw [Power.removeHolds_none (motion_absent absent)]
  rfl

/-- MOT's record at the sample that ends a loss (R102). -/
def State.returned (s : State) (a : Axes) : MotionRec :=
  { (s.mot.take a s.tmb.uptime).clearRuns with
    health := .valid, state := .normal, window := [a], orientation := .unknown, averages := ⟨0, 0, 0⟩, liftDeadline := none, group := none }

theorem Blocks.takeSample_returns {s : State} (lost : s.mot.health ≠ .valid) (absent : ∀ e, some e ∈ s.hld.entries → e.holder ≠ .motion) (a : Axes) :
    s.toBlocks.takeSample a = s.moved (s.returned a) s.toFront s.drops := by
  unfold Blocks.takeSample
  dsimp only
  rw [if_neg lost]
  exact Blocks.liftMotion_none absent

/-- Settles O31. -/
theorem sampleWatchDeclaresTheLoss : Obligations.SampleWatchDeclaresTheLoss := by
  refine ⟨fun s ready charger normal valid due => loss_from_normal ready charger normal valid due,
    fun x y z s ready charger lost hx hy hz absent => ?_⟩
  have next : exec (.accelSample x y z) s = .next (s.withBlocks ((s.moved (s.returned ⟨x, y, z⟩) s.toFront s.drops).settled s.toBlocks)) := by
    rw [exec_accelSample, s.whilePowered_on _ ready.1, clampAxis_inRange hx, clampAxis_inRange hy, clampAxis_inRange hz, Blocks.runEvent_eq,
      Blocks.takeSample_returns lost absent]
  refine ⟨_, next, ?_⟩
  clear next
  rw [State.moved_settled ready charger]
  split
  · exact ⟨rfl, rfl, rfl, rfl, rfl, rfl, keepsOutside_refl _ _⟩
  · exact ⟨rfl, rfl, rfl, rfl, rfl, rfl, (s.toFront.publish_frame .motion _).1⟩

end Sys2Proof.Machine
end

section
/-! PROOF. Falls, impacts and shocks, sample by sample (R105 to R116, R127). -/

namespace Sys2Proof.Machine

open Sys2Proof.Safety

/-! ## The peak (R110) -/

theorem sqrtBits_spec {n : Nat} : ∀ (bit r : Nat), r * r ≤ n → n < (r + 2 ^ bit) * (r + 2 ^ bit) →
    sqrtBits n bit r * sqrtBits n bit r ≤ n ∧ n < (sqrtBits n bit r + 1) * (sqrtBits n bit r + 1)
  | 0, _, low, high => ⟨low, high⟩
  | bit + 1, r, low, high => by
    unfold sqrtBits
    split
    · rename_i fits
      refine sqrtBits_spec bit _ fits ?_
      rwa [Nat.add_assoc, ← Nat.two_mul, ← Nat.pow_succ']
    · rename_i beyond
      exact sqrtBits_spec bit r low (Nat.lt_of_not_le beyond)

theorem floorSqrt_spec {n : Nat} (small : n < 2 ^ 32) : floorSqrt n * floorSqrt n ≤ n ∧ n < (floorSqrt n + 1) * (floorSqrt n + 1) :=
  sqrtBits_spec 16 0 (Nat.zero_le n) (by simpa using small)

/-! ## Entering a motion state -/

theorem MotionRec.countRuns_cleared (m : MotionRec) (m2 : Nat) (before : Orientation) (st : MotionState) :
    { (m.countRuns m2 before).clearRuns with state := st } = { m.clearRuns with state := st } := by
  obtain ⟨state⟩ := m
  cases state <;> rfl

theorem MotionRec.countRuns_keeps (m : MotionRec) (m2 : Nat) (before : Orientation) :
    (m.countRuns m2 before).state = m.state ∧ (m.countRuns m2 before).config = m.config ∧ (m.countRuns m2 before).index = m.index := by
  obtain ⟨state⟩ := m
  cases state <;> exact ⟨rfl, rfl, rfl⟩

section Counted

variable (s : State) (a : Axes)

theorem State.counted_state : (s.counted a).mot.state = s.mot.state :=
  (MotionRec.countRuns_keeps _ _ _).1.trans (joined_state s a)

theorem State.counted_config : (s.counted a).mot.config = s.mot.config :=
  (MotionRec.countRuns_keeps _ _ _).2.1.trans (joined_config s a)

theorem State.counted_index : (s.counted a).mot.index = s.mot.index + 1 :=
  (MotionRec.countRuns_keeps _ _ _).2.2.trans (joined_index s a)

/-- A motion state entered, the runs at 0 (R105). -/
theorem State.counted_enters (st : MotionState) : (s.counted a).enterMotion st = s.moved (motionIn s a st) (traced s a) s.drops := by
  have cleared := MotionRec.countRuns_cleared (joined s a).1 a.m2 s.mot.orientation st
  unfold Blocks.enterMotion
  rw [show { (s.counted a).mot.clearRuns with state := st } = motionIn s a st from cleared]
  rfl

end Counted

/-! ## What a sample leaves -/

/-- A sample that makes no record: MOT's record, a filling trace, and the motion page, `page` on (R120). -/
def State.Silent (s : State) (a : Axes) (m : MotionRec) (drops : List DropData) (page : Nat) (t : State) : Prop :=
  t = { s with
    mot := m, drops := drops, trc := (traced s a).trc, mem := t.mem, summary := (traced s a).summary
    gens := { s.gens with motion := s.gens.motion + BitVec.ofNat 32 page }, pins := derivePins t.toBlocks }
  ∧ keepsOutside [traceRange, pageRange .motion] s.mem t.mem

/-- A sample that makes one record. -/
def State.Recorded (s : State) (m : MotionRec) (r : LogRecord) (t : State) : Prop :=
  Logged s.toFront t.toFront r s.tmb
  ∧ t = { s with
    mot := m, trc := t.trc, mem := t.mem, summary := t.summary, log := { t.log with effRead := s.log.effRead }
    monitors := t.monitors, gens := { s.gens with motion := s.gens.motion + 2, monitor := t.gens.monitor }
    pins := derivePins t.toBlocks }
  ∧ keepsOutside (traceRange :: pageRange .motion :: recordRanges) s.mem t.mem

theorem traced_kept {s : State} (room : s.trc.state = .filling → s.trc.written < 1016) (a : Axes) :
    keepsOutside [traceRange] s.mem (traced s a).mem := by
  refine keepsOutside_widen (traced_fields s a room).2.2 ?_
  split
  · rename_i filling
    have := room filling
    simp [traceRange]
    omega
  · simp

section Leaves

variable {s : State} (ready : Ready s) (charger : ChargerSettled s.toPower) (room : s.trc.state = .filling → s.trc.written < 1016)

include ready charger room

theorem State.silent_stays (a : Axes) {m : MotionRec} (drops : List DropData) (same : motionCode s.mot.state = motionCode m.state) :
    s.Silent a m drops 0 (s.withBlocks ((s.moved m (traced s a) drops).settled s.toBlocks)) := by
  rw [State.moved_stays ready charger m (traced s a) drops same]
  refine ⟨?_, keepsOutside_mono (traced_kept room a) (by simp)⟩
  obtain ⟨⟨mem, summary, trc, own⟩, -, -⟩ := traced_fields s a room
  rw [own, word_add_zero]
  rfl

theorem State.silent_turns (a : Axes) {m : MotionRec} (drops : List DropData) (turned : motionCode s.mot.state ≠ motionCode m.state) :
    s.Silent a m drops 2 (s.withBlocks ((s.moved m (traced s a) drops).settled s.toBlocks)) := by
  rw [State.moved_turns ready charger m (traced s a) drops turned]
  refine ⟨?_, keepsOutside_trans (keepsOutside_mono (traced_kept room a) (by simp))
    (keepsOutside_mono ((traced s a).publish_frame .motion (motionPage m)).1 (by simp))⟩
  obtain ⟨⟨mem, summary, trc, own⟩, -, -⟩ := traced_fields s a room
  rw [own]
  rfl

/-- One record made over the trace's own change. -/
theorem State.recorded_turns (a : Axes) {m : MotionRec} {f : Front} {r : LogRecord} (fares : (traced s a).Fares f)
    (logs : (traced s a).Logs f r (traced s a).tmb) (turned : motionCode s.mot.state ≠ motionCode m.state) :
    s.Recorded m r (s.withBlocks ((s.moved m f s.drops).settled s.toBlocks))
    ∧ (s.withBlocks ((s.moved m f s.drops).settled s.toBlocks)).trc = f.trc := by
  have turns := State.turns ready charger (m := m) ((traced_fares s a room).trans fares) s.drops turned
  obtain ⟨⟨mem, summary, trc, own⟩, -, -⟩ := traced_fields s a room
  have log : (traced s a).log = s.log := by rw [own]
  have tmb : (traced s a).tmb = s.tmb := by rw [own]
  rw [tmb] at logs
  exact ⟨⟨((logs.later turns.logs).earlier log).logged, turns.shape, turns.kept⟩, turns.trc⟩

end Leaves

/-! ## The link of a trace (R127) -/

/-- The trace record once a record of a fall has been written at the index that the log had. -/
def linkedTrace (f : Front) (status : TraceStatus) (serial : Option Word) : TraceRec :=
  if status = .captured ∧ f.log.full = false ∧ f.trc.state ≠ .free ∧ serial = some f.trc.serial
  then { f.trc with linked := f.log.writeIndex } else f.trc

theorem Front.Notes.trc {f g : Front} (h : f.Notes g) : g.trc = f.trc := by
  obtain ⟨m, s, l, ms, v, own⟩ := h.step.fields
  rw [own]

theorem Front.linkTrace_trc (f : Front) (status : TraceStatus) (serial : Option Word) (q : Option Word) : (f.linkTrace status serial q).trc =
    if status = .captured ∧ f.trc.state ≠ .free ∧ serial = some f.trc.serial then { f.trc with linked := q.getD f.trc.linked } else f.trc := by
  unfold Front.linkTrace
  cases status <;> cases q
  case captured.some q =>
    by_cases link : f.trc.state ≠ .free ∧ serial = some f.trc.serial
    · rw [if_pos ⟨rfl, link⟩]
      exact congrArg Front.trc (if_pos link)
    · rw [if_neg fun all => link all.2]
      exact congrArg Front.trc (if_neg link)
  case captured.none =>
    show f.trc = _
    split <;> rfl
  all_goals rfl

theorem Front.append_seq (f : Front) (r : LogRecord) : (f.append r).seq = if f.log.full then none else some f.log.writeIndex := by
  cases full : f.log.full
  · rw [f.append_of_room r full]; rfl
  · rw [f.append_of_full r full]; rfl

theorem Front.makeFallRecord_trc (f : Front) (r : LogRecord) (status : TraceStatus) (serial : Option Word) :
    (f.makeFallRecord r status serial).trc = linkedTrace f status serial := by
  unfold Front.makeFallRecord linkedTrace
  dsimp only
  rw [(Front.sendEvent_notes _ _).trc, Front.linkTrace_trc, (f.append_notes r).trc, Front.append_seq]
  cases f.log.full
  · simp
  · simp

end Sys2Proof.Machine
end

section
/-! PROOF. Falls, impacts and shocks: what each state makes of a sample (R107 to R116). -/

namespace Sys2Proof.Machine

open Sys2Proof.Safety

section Sampled

variable {s : State} {a : Axes}

/-! ## FALLING -/

theorem counted_impact : (s.counted a).mot.config.impact a.m2 = decide (s.mot.config.tImp ^ 2 < a.m2) := by
  rw [State.counted_config, MotionConfig.impact_iff]

/-- The impact of a fall (R107, R112). -/
theorem judged_impact {e : Episode} (falling : s.mot.state = .falling e) (hit : s.mot.config.tImp ^ 2 < a.m2) (sat : Bool) {ms h : Nat}
    (time : ms = fallTime (s.mot.index + 1 - e.fallStart).toNat) (height : h = fallHeight ms) :
    (s.counted a).judgeSample a sat = s.moved
      { motionIn s a (.impactDrop { e with fallMs := ms, height := h } (openWindow (s.mot.index + 1) a sat)) with lastFallMs := ms, lastHeight := h }
      (traced s a) s.drops := by
  rw [Blocks.judgeSample_falling sat ((s.counted_state a).trans falling), counted_impact, decide_eq_true hit, if_pos rfl]
  unfold Blocks.impactFall
  dsimp only
  rw [State.counted_index, State.counted_enters, ← time, ← height]
  rfl

theorem MotionRec.countRuns_falling {m : MotionRec} {e : Episode} (falling : m.state = .falling e) (m2 : Nat) (before : Orientation) :
    m.countRuns m2 before = { m with caught := m.caught.step (!m.config.weightless m2 && !m.config.impact m2) m.index } := by
  cases m
  cases falling
  rfl

/-- The caught run once a sample of FALLING has been counted (R105). -/
def countedCatch (s : State) (m2 : Nat) : CaughtRun :=
  s.mot.caught.step (!decide (m2 < s.mot.config.tFf ^ 2) && !decide (s.mot.config.tImp ^ 2 < m2)) (s.mot.index + 1)

theorem counted_falling {e : Episode} (falling : s.mot.state = .falling e) :
    s.counted a = s.moved { (joined s a).1 with caught := countedCatch s a.m2 } (traced s a) s.drops := by
  have run : (joined s a).1.caught.step (!(joined s a).1.config.weightless a.m2 && !(joined s a).1.config.impact a.m2) (joined s a).1.index
      = countedCatch s a.m2 := by
    rw [joined_caught, joined_config, joined_index, MotionConfig.weightless_iff, MotionConfig.impact_iff]
    rfl
  rw [State.counted_moved, MotionRec.countRuns_falling ((joined_state s a).trans falling), run]

theorem traced_tmb (s : State) (a : Axes) : (traced s a).tmb = s.tmb := by
  unfold traced
  split
  · rfl
  · unfold Front.appendTrace Front.finishCapture
    split
    · dsimp only
      split <;> rfl
    · rfl

/-- SETTLE entered after a change of the host's side that leaves the time (R113). -/
theorem counted_settles {f : Front} (time : f.tmb = s.tmb) (drops : List DropData) (last : MotionRec → MotionRec)
    (aside : ∀ (m : MotionRec) (st : MotionState), { (last m).clearRuns with state := st } = last { m.clearRuns with state := st }) :
    (s.moved (last (s.counted a).mot) f drops).enterSettle = s.moved (last (motionIn s a (.settle (s.tmb.uptime + 5000)))) f drops := by
  have cleared := MotionRec.countRuns_cleared (joined s a).1 a.m2 s.mot.orientation (.settle (s.tmb.uptime + 5000))
  unfold Blocks.enterSettle Blocks.enterMotion
  show s.moved { (last (s.counted a).mot).clearRuns with state := .settle (f.tmb.uptime + 5000) } f drops = _
  rw [time, aside, show { (s.counted a).mot.clearRuns with state := .settle (s.tmb.uptime + 5000) }
    = motionIn s a (.settle (s.tmb.uptime + 5000)) from cleared]

/-- The end of a fall without impact (R108). -/
theorem judged_ends {e : Episode} (long : Bool) (ms : Nat) : (s.counted a).endFall e long ms = s.moved
      { motionIn s a (.settle (s.tmb.uptime + 5000)) with lastFallMs := ms, lastHeight := 0 }
      ((traced s a).makeFallRecord (.fallNoImpact long ms e.traceStatus e.traceSerial) e.traceStatus e.traceSerial) s.drops := by
  have time := ((traced s a).makeFallRecord_links (.fallNoImpact long ms e.traceStatus e.traceSerial) e.traceStatus e.traceSerial).tmb.trans
    (traced_tmb s a)
  have settles := counted_settles (a := a) time s.drops id fun _ _ => rfl
  unfold Blocks.endFall
  dsimp only
  exact congrArg (fun x : Blocks => x.withMot { x.mot with lastFallMs := ms, lastHeight := 0 }) settles

/-! ## Windows -/

theorem MotionRec.countRuns_window {m : MotionRec} (window : motionCode m.state = 2) (m2 : Nat) (before : Orientation) :
    m.countRuns m2 before = m := by
  obtain ⟨state⟩ := m
  cases state
  case impactDrop => rfl
  case impactShock => rfl
  all_goals exact absurd window (by simp [motionCode])

theorem counted_window (window : motionCode s.mot.state = 2) : s.counted a = s.moved (joined s a).1 (traced s a) s.drops := by
  rw [State.counted_moved, MotionRec.countRuns_window (by rw [joined_state]; exact window)]

/-- A DROP window's last sample, with no acknowledgement wait (R110, R111). -/
theorem judged_drops {e : Episode} {w : ImpactWindow} {i : LastImpact} (last : i = w.result) (idle : s.hld.wait = none) :
    ((s.counted a).endDrop e w).enterSettle = s.moved { motionIn s a (.settle (s.tmb.uptime + 5000)) with lastImpact := i }
      ((traced s a).writeDrop (dropData e i) s.hld.outcome s.bayA.state s.bayB.state) s.drops := by
  have time := ((traced s a).writeDrop_links (dropData e i) s.hld.outcome s.bayA.state s.bayB.state).tmb.trans (traced_tmb s a)
  have settles := counted_settles (a := a) time s.drops (fun m => { m with lastImpact := i }) fun _ _ => rfl
  have made : (s.counted a).toPower.makeDrop (dropData e i) = { (s.counted a).toPower with
      toFront := (traced s a).writeDrop (dropData e i) s.hld.outcome s.bayA.state s.bayB.state } :=
    if_neg (by show ¬ s.hld.wait.isSome = true; rw [idle]; exact Bool.false_ne_true)
  unfold Blocks.endDrop
  rw [← last, made]
  exact settles

/-- A DROP window's last sample during an acknowledgement wait (R116). -/
theorem judged_defers {e : Episode} {w : ImpactWindow} {i : LastImpact} (last : i = w.result) (waits : s.hld.wait.isSome = true) :
    ((s.counted a).endDrop e w).enterSettle = s.moved { motionIn s a (.settle (s.tmb.uptime + 5000)) with lastImpact := i }
      (traced s a) (s.drops ++ [dropData e i]) := by
  have settles := counted_settles (a := a) (traced_tmb s a) (s.drops ++ [dropData e i]) (fun m => { m with lastImpact := i }) fun _ _ => rfl
  have made : (s.counted a).toPower.makeDrop (dropData e i) = { (s.counted a).toPower with drops := s.drops ++ [dropData e i] } := if_pos waits
  unfold Blocks.endDrop
  rw [← last, made]
  exact settles

/-- A SHOCK window's last sample (R110, R111). -/
theorem judged_shock (ret : ReturnState) {w : ImpactWindow} {i : LastImpact} (last : i = w.result) :
    ((s.counted a).endShock ret w).returnShock ret = s.moved
      { motionIn s a (if ret = .normal then .normal else .settle (s.tmb.uptime + 5000)) with lastImpact := i }
      ((traced s a).makeTied (.shock i.peak i.saturated i.axis ret) ⟨.shock, shockBand i, some i.peak⟩) s.drops := by
  obtain ⟨g, is⟩ : ∃ g, g = (traced s a).makeTied (.shock i.peak i.saturated i.axis ret) ⟨.shock, shockBand i, some i.peak⟩ := ⟨_, rfl⟩
  have time : g.tmb = s.tmb := by
    rw [is]
    exact ((traced s a).makeTied_notes _ _).links.tmb.trans (traced_tmb s a)
  have ended : (s.counted a).endShock ret w = s.moved { (s.counted a).mot with lastImpact := i } g s.drops := by
    unfold Blocks.endShock
    rw [← last, is]
    rfl
  rw [ended, ← is]
  clear is ended
  cases ret with
  | normal =>
    have cleared := MotionRec.countRuns_cleared (joined s a).1 a.m2 s.mot.orientation .normal
    exact congrArg (fun m : MotionRec => s.moved { m with lastImpact := i } g s.drops) cleared
  | settle => exact counted_settles (a := a) time s.drops (fun m => { m with lastImpact := i }) fun _ _ => rfl

/-! ## SETTLE, and a shock from outside a fall -/

/-- A shock opens its window (R109). -/
theorem judged_opens {ret : ReturnState} (row : s.mot.state = .normal ∧ ret = .normal ∨ (∃ d, s.mot.state = .settle d) ∧ ret = .settle)
    (hit : s.mot.config.tImp ^ 2 < a.m2) (sat : Bool) : (s.counted a).judgeSample a sat =
      s.moved (motionIn s a (.impactShock ret (openWindow (s.mot.index + 1) a sat))) (traced s a) s.drops := by
  have opens (ret : ReturnState) : (s.counted a).openShock ret a sat
      = s.moved (motionIn s a (.impactShock ret (openWindow (s.mot.index + 1) a sat))) (traced s a) s.drops := by
    unfold Blocks.openShock
    rw [State.counted_index, State.counted_enters]
  obtain ⟨normal, rfl⟩ | ⟨⟨d, settle⟩, rfl⟩ := row
  · rw [Blocks.judgeSample_normal sat ((s.counted_state a).trans normal), counted_impact, decide_eq_true hit, if_pos rfl, opens]
  · rw [Blocks.judgeSample_settle sat ((s.counted_state a).trans settle), counted_impact, decide_eq_true hit, if_pos rfl, opens]

theorem MotionRec.countRuns_settle {m : MotionRec} {d : Nat} (settle : m.state = .settle d) (m2 : Nat) (before : Orientation) :
    m.countRuns m2 before = { m with
      freeFall := m.freeFall.step (m.config.weightless m2) m.index before, settleRun := settleStep m.settleRun (m.config.inBand m2) } := by
  cases m
  cases settle
  rfl

/-- The settle run once a sample of SETTLE has been counted (R105). -/
def countedSettle (s : State) (m2 : Nat) : Nat :=
  if s.mot.config.bandLow ^ 2 ≤ m2 ∧ m2 ≤ s.mot.config.bandHigh ^ 2 then min 3200 (s.mot.settleRun + 1) else 0

theorem counted_settle {d : Nat} (settle : s.mot.state = .settle d) : s.counted a =
    s.moved { (joined s a).1 with freeFall := countedFall s a.m2, settleRun := countedSettle s a.m2 } (traced s a) s.drops := by
  have run : settleStep (joined s a).1.settleRun ((joined s a).1.config.inBand a.m2) = countedSettle s a.m2 := by
    unfold settleStep countedSettle
    rw [joined_settleRun, joined_config, MotionConfig.inBand_iff]
    simp only [decide_eq_true_eq]
  rw [State.counted_moved, MotionRec.countRuns_settle ((joined_state s a).trans settle), joined_countedFall, run]

end Sampled

end Sys2Proof.Machine
end

section
/-! PROOF. Falls, impacts and shocks: the samples and what each leaves (R107 to R116). -/

namespace Sys2Proof.Machine

open Sys2Proof.Safety

/-- A sample of a known accelerometer arrives between two events. -/
structure State.Sampled (s : State) (a : Axes) : Prop where
  ready   : Ready s
  charger : ChargerSettled s.toPower
  valid   : s.mot.health = .valid
  inX     : axisInRange a.x = true
  inY     : axisInRange a.y = true
  inZ     : axisInRange a.z = true
  room    : s.trc.state = .filling → s.trc.written < 1016

namespace State.Sampled

variable {s : State} {a : Axes} (h : s.Sampled a)

include h

theorem next {y : Blocks} (judged : (s.counted a).judgeSample a a.saturated = y) :
    exec (.accelSample a.x a.y a.z) s = .next (s.withBlocks (y.settled s.toBlocks)) := by
  rw [exec_sample h.ready.1 h.inX h.inY h.inZ h.valid, ← judged]

theorem stays {m : MotionRec} {drops : List DropData} (judged : (s.counted a).judgeSample a a.saturated = s.moved m (traced s a) drops)
    (same : motionCode s.mot.state = motionCode m.state) : ∃ t, exec (.accelSample a.x a.y a.z) s = .next t ∧ s.Silent a m drops 0 t :=
  ⟨_, h.next judged, State.silent_stays h.ready h.charger h.room a drops same⟩

theorem turns {m : MotionRec} {drops : List DropData} (judged : (s.counted a).judgeSample a a.saturated = s.moved m (traced s a) drops)
    (turned : motionCode s.mot.state ≠ motionCode m.state) : ∃ t, exec (.accelSample a.x a.y a.z) s = .next t ∧ s.Silent a m drops 2 t :=
  ⟨_, h.next judged, State.silent_turns h.ready h.charger h.room a drops turned⟩

theorem records {m : MotionRec} {f : Front} {r : LogRecord} (judged : (s.counted a).judgeSample a a.saturated = s.moved m f s.drops)
    (fares : (traced s a).Fares f) (logs : (traced s a).Logs f r (traced s a).tmb) (turned : motionCode s.mot.state ≠ motionCode m.state) :
    ∃ t, exec (.accelSample a.x a.y a.z) s = .next t ∧ s.Recorded m r t ∧ t.trc = f.trc :=
  ⟨_, h.next judged, State.recorded_turns h.ready h.charger h.room a fares logs turned⟩

/-! ## FALLING -/

/-- R107, R112. -/
theorem impact {e : Episode} (falling : s.mot.state = .falling e) (hit : s.mot.config.tImp ^ 2 < a.m2) {ms height : Nat}
    (time : ms = fallTime (s.mot.index + 1 - e.fallStart).toNat) (high : height = fallHeight ms) :
    ∃ t, exec (.accelSample a.x a.y a.z) s = .next t ∧ s.Silent a
      { motionIn s a (.impactDrop { e with fallMs := ms, height := height } (openWindow (s.mot.index + 1) a a.saturated)) with
        lastFallMs := ms, lastHeight := height } s.drops 2 t :=
  h.turns (judged_impact falling hit _ time high) (by rw [falling]; show (1 : Byte) ≠ 2; decide)

end State.Sampled

theorem traced_log (s : State) (a : Axes) : (traced s a).log = s.log := by
  unfold traced
  split
  · rfl
  · unfold Front.appendTrace Front.finishCapture
    split
    · dsimp only
      split <;> rfl
    · rfl

theorem countedCatch_light {s : State} {m2 : Nat} (light : m2 < s.mot.config.tFf ^ 2) : countedCatch s m2 = ⟨0, 0⟩ := by
  unfold countedCatch
  rw [decide_eq_true light]
  rfl

theorem countedCatch_heavy {s : State} {m2 : Nat} (heavy : s.mot.config.tFf ^ 2 ≤ m2) (miss : m2 ≤ s.mot.config.tImp ^ 2) :
    countedCatch s m2 = if s.mot.caught.count = 0 then ⟨1, s.mot.index + 1⟩ else { s.mot.caught with count := min 160 (s.mot.caught.count + 1) } := by
  unfold countedCatch
  rw [decide_eq_false (Nat.not_lt.mpr heavy), decide_eq_false (Nat.not_lt.mpr miss)]
  rfl

/-- A caught run that stays short of N_ff. -/
theorem countedCatch_short {s : State} {m2 : Nat} (miss : m2 ≤ s.mot.config.tImp ^ 2) (positive : 0 < s.mot.config.nFf)
    (short : m2 < s.mot.config.tFf ^ 2 ∨ s.mot.caught.count + 1 < s.mot.config.nFf) : (countedCatch s m2).count < s.mot.config.nFf := by
  by_cases light : m2 < s.mot.config.tFf ^ 2
  · rw [countedCatch_light light]
    exact positive
  · have few := short.resolve_left light
    rw [countedCatch_heavy (Nat.not_lt.mp light) miss]
    split
    · show 1 < _
      omega
    · exact Nat.lt_of_le_of_lt (Nat.min_le_right _ _) few

section Falling

variable {s : State} {a : Axes} {e : Episode} (falling : s.mot.state = .falling e) (miss : a.m2 ≤ s.mot.config.tImp ^ 2)

include falling miss

theorem judged_falling (sat : Bool) : (s.counted a).judgeSample a sat =
    if s.mot.config.nFf ≤ (countedCatch s a.m2).count then (s.counted a).endFall e false (fallTime ((countedCatch s a.m2).first - e.fallStart).toNat)
    else if 2400 ≤ (s.mot.index + 1 - e.fallStart).toNat then (s.counted a).endFall e true 1500
    else s.moved { (joined s a).1 with caught := countedCatch s a.m2 } (traced s a) s.drops := by
  have caught : (s.counted a).mot.caught = countedCatch s a.m2 := by rw [counted_falling falling]; rfl
  rw [Blocks.judgeSample_falling sat ((s.counted_state a).trans falling), counted_impact, decide_eq_false (Nat.not_lt.mpr miss), if_neg Bool.false_ne_true,
    State.counted_config, State.counted_index, caught, counted_falling falling]

/-- The caught run is full (R108). -/
theorem judged_caught (sat : Bool) (heavy : s.mot.config.tFf ^ 2 ≤ a.m2) (runs : 0 < s.mot.caught.count) (few : s.mot.caught.count < 160)
    (full : s.mot.config.nFf ≤ s.mot.caught.count + 1) :
    (s.counted a).judgeSample a sat = (s.counted a).endFall e false (fallTime (s.mot.caught.first - e.fallStart).toNat) := by
  have run : countedCatch s a.m2 = { s.mot.caught with count := s.mot.caught.count + 1 } := by
    rw [countedCatch_heavy heavy miss, if_neg (Nat.ne_of_gt runs), Nat.min_eq_right (by omega)]
  rw [judged_falling falling miss, run, if_pos full]

/-- The fall is long (R108). -/
theorem judged_long (sat : Bool) (positive : 0 < s.mot.config.nFf)
    (short : a.m2 < s.mot.config.tFf ^ 2 ∨ s.mot.caught.count + 1 < s.mot.config.nFf) (old : 2400 ≤ (s.mot.index + 1 - e.fallStart).toNat) :
    (s.counted a).judgeSample a sat = (s.counted a).endFall e true 1500 := by
  rw [judged_falling falling miss, if_neg (Nat.not_le.mpr (countedCatch_short miss positive short)), if_pos old]

end Falling

namespace State.Sampled

variable {s : State} {a : Axes} (h : s.Sampled a)

include h

/-- R108, R127. -/
theorem falls {e : Episode} (falling : s.mot.state = .falling e) {long : Bool} {ms : Nat}
    (judged : (s.counted a).judgeSample a a.saturated = (s.counted a).endFall e long ms) :
    ∃ t, exec (.accelSample a.x a.y a.z) s = .next t
      ∧ s.Recorded { motionIn s a (.settle (s.tmb.uptime + 5000)) with lastFallMs := ms, lastHeight := 0 }
          (.fallNoImpact long ms e.traceStatus e.traceSerial) t
      ∧ t.trc = linkedTrace (traced s a) e.traceStatus e.traceSerial := by
  rw [← Front.makeFallRecord_trc _ (.fallNoImpact long ms e.traceStatus e.traceSerial)]
  exact h.records (judged.trans (judged_ends long ms)) (Front.makeFallRecord_links _ _ _ _).fares (Front.makeFallRecord_logs _ _ _ _)
    (by rw [falling]; show (1 : Byte) ≠ 3; decide)

/-- The fall goes on (R105). -/
theorem fallsOn {e : Episode} (falling : s.mot.state = .falling e) (miss : a.m2 ≤ s.mot.config.tImp ^ 2) (positive : 0 < s.mot.config.nFf)
    (short : a.m2 < s.mot.config.tFf ^ 2 ∨ s.mot.caught.count + 1 < s.mot.config.nFf) (young : (s.mot.index + 1 - e.fallStart).toNat < 2400) :
    ∃ t, exec (.accelSample a.x a.y a.z) s = .next t ∧ s.Silent a { (joined s a).1 with caught := countedCatch s a.m2 } s.drops 0 t := by
  refine h.stays ?_ (congrArg motionCode (joined_state s a).symm)
  rw [judged_falling falling miss, if_neg (Nat.not_le.mpr (countedCatch_short miss positive short)), if_neg (Nat.not_le.mpr young)]

/-! ## Windows -/

/-- R110. -/
theorem dropGoesOn {e : Episode} {w : ImpactWindow} (drop : s.mot.state = .impactDrop e w) (more : w.counted + 1 < 32) :
    ∃ t, exec (.accelSample a.x a.y a.z) s = .next t
      ∧ s.Silent a { (joined s a).1 with state := .impactDrop e (w.add a a.saturated) } s.drops 0 t := by
  refine h.stays ?_ (by rw [drop]; rfl)
  rw [Blocks.judgeSample_drop _ ((s.counted_state a).trans drop), if_neg (Nat.not_le.mpr more), counted_window (by rw [drop]; rfl)]
  rfl

/-- R110. -/
theorem shockGoesOn {ret : ReturnState} {w : ImpactWindow} (shock : s.mot.state = .impactShock ret w) (more : w.counted + 1 < 32) :
    ∃ t, exec (.accelSample a.x a.y a.z) s = .next t
      ∧ s.Silent a { (joined s a).1 with state := .impactShock ret (w.add a a.saturated) } s.drops 0 t := by
  refine h.stays ?_ (by rw [shock]; rfl)
  rw [Blocks.judgeSample_shock _ ((s.counted_state a).trans shock), if_neg (Nat.not_le.mpr more), counted_window (by rw [shock]; rfl)]
  rfl

/-- R111, R127. -/
theorem dropEnds {e : Episode} {w : ImpactWindow} (drop : s.mot.state = .impactDrop e w) (last : 32 ≤ w.counted + 1) (idle : s.hld.wait = none)
    {i : LastImpact} (impact : i = (w.add a a.saturated).result) :
    ∃ t, exec (.accelSample a.x a.y a.z) s = .next t
      ∧ s.Recorded { motionIn s a (.settle (s.tmb.uptime + 5000)) with lastImpact := i }
          (.drop (dropData e i) s.hld.outcome s.bayA.state s.bayB.state) t
      ∧ t.trc = linkedTrace (traced s a) e.traceStatus e.traceSerial := by
  have trc : ((traced s a).writeDrop (dropData e i) s.hld.outcome s.bayA.state s.bayB.state).trc = linkedTrace (traced s a) e.traceStatus e.traceSerial :=
    (Front.sendEvent_notes _ _).trc.trans (Front.makeFallRecord_trc _ _ _ _)
  rw [← trc]
  refine h.records ?_ (Front.writeDrop_links _ _ _ _ _).fares (Front.writeDrop_logs _ _ _ _ _) (by rw [drop]; show (2 : Byte) ≠ 3; decide)
  rw [Blocks.judgeSample_drop _ ((s.counted_state a).trans drop), if_pos last, judged_drops impact idle]

/-- R116. -/
theorem dropDefers {e : Episode} {w : ImpactWindow} (drop : s.mot.state = .impactDrop e w) (last : 32 ≤ w.counted + 1)
    (waits : s.hld.wait.isSome = true) {i : LastImpact} (impact : i = (w.add a a.saturated).result) :
    ∃ t, exec (.accelSample a.x a.y a.z) s = .next t
      ∧ s.Silent a { motionIn s a (.settle (s.tmb.uptime + 5000)) with lastImpact := i } (s.drops ++ [dropData e i]) 2 t := by
  refine h.turns ?_ (by rw [drop]; show (2 : Byte) ≠ 3; decide)
  rw [Blocks.judgeSample_drop _ ((s.counted_state a).trans drop), if_pos last, judged_defers impact waits]

/-- R111. -/
theorem shockEnds {ret : ReturnState} {w : ImpactWindow} (shock : s.mot.state = .impactShock ret w) (last : 32 ≤ w.counted + 1)
    {i : LastImpact} (impact : i = (w.add a a.saturated).result) :
    ∃ t, exec (.accelSample a.x a.y a.z) s = .next t
      ∧ s.Recorded { motionIn s a (if ret = .normal then .normal else .settle (s.tmb.uptime + 5000)) with lastImpact := i }
          (.shock i.peak i.saturated i.axis ret) t
      ∧ t.trc = (traced s a).trc := by
  have notes := (traced s a).makeTied_notes (.shock i.peak i.saturated i.axis ret) ⟨.shock, shockBand i, some i.peak⟩
  rw [← notes.trc]
  refine h.records ?_ notes.fares (Front.makeTied_logs _ _ _) ?_
  · rw [Blocks.judgeSample_shock _ ((s.counted_state a).trans shock), if_pos last, judged_shock ret impact]
  · rw [shock]
    cases ret
    · show (2 : Byte) ≠ 0
      decide
    · show (2 : Byte) ≠ 3
      decide

end State.Sampled

end Sys2Proof.Machine
end

section
/-! PROOF. The settle (R105, R113) and a window that a loss ends early (R101, R110). -/

namespace Sys2Proof.Machine

open Sys2Proof.Safety

/-! ## SETTLE -/

section Settling

variable {s : State} {a : Axes}

theorem judged_settle {d : Nat} (settle : s.mot.state = .settle d) (calm : a.m2 ≤ s.mot.config.tImp ^ 2) (positive : 0 < s.mot.config.nFf)
    (few : a.m2 < s.mot.config.tFf ^ 2 → s.mot.freeFall.count + 1 < s.mot.config.nFf) (sat : Bool) : (s.counted a).judgeSample a sat =
    if s.mot.config.tSettle ≤ countedSettle s a.m2 then (s.counted a).completeSettle
    else s.moved { (joined s a).1 with freeFall := countedFall s a.m2, settleRun := countedSettle s a.m2 } (traced s a) s.drops := by
  have counted := counted_settle (a := a) settle
  have fall : (s.counted a).mot.freeFall = countedFall s a.m2 := by rw [counted]; rfl
  have run : (s.counted a).mot.settleRun = countedSettle s a.m2 := by rw [counted]; rfl
  rw [Blocks.judgeSample_settle sat ((s.counted_state a).trans settle), counted_impact, decide_eq_false (Nat.not_lt.mpr calm), if_neg Bool.false_ne_true,
    State.counted_config, fall, run, if_neg (Nat.not_le.mpr (countedFall_few positive few)), counted]

end Settling

namespace State.Sampled

variable {s : State} {a : Axes} (h : s.Sampled a)

include h

/-- A shock opens its window (R109). -/
theorem opens {ret : ReturnState} (row : s.mot.state = .normal ∧ ret = .normal ∨ (∃ d, s.mot.state = .settle d) ∧ ret = .settle)
    (hit : s.mot.config.tImp ^ 2 < a.m2) : ∃ t, exec (.accelSample a.x a.y a.z) s = .next t
      ∧ s.Silent a (motionIn s a (.impactShock ret (openWindow (s.mot.index + 1) a a.saturated))) s.drops 2 t := by
  refine h.turns (judged_opens row hit _) ?_
  obtain ⟨normal, -⟩ | ⟨⟨d, settle⟩, -⟩ := row
  · rw [normal]
    show (0 : Byte) ≠ 2
    decide
  · rw [settle]
    show (3 : Byte) ≠ 2
    decide

section Settle

variable {d : Nat} (settle : s.mot.state = .settle d) (calm : a.m2 ≤ s.mot.config.tImp ^ 2) (positive : 0 < s.mot.config.nFf)
  (few : a.m2 < s.mot.config.tFf ^ 2 → s.mot.freeFall.count + 1 < s.mot.config.nFf)

include settle calm positive few

/-- The settle goes on (R105). -/
theorem settles (short : countedSettle s a.m2 < s.mot.config.tSettle) : ∃ t, exec (.accelSample a.x a.y a.z) s = .next t
    ∧ s.Silent a { (joined s a).1 with freeFall := countedFall s a.m2, settleRun := countedSettle s a.m2 } s.drops 0 t := by
  refine h.stays ?_ (congrArg motionCode (joined_state s a).symm)
  rw [judged_settle settle calm positive few, if_neg (Nat.not_le.mpr short)]

/-- The settle completes with no hold of MOTION (R113). -/
theorem settled (full : s.mot.config.tSettle ≤ countedSettle s a.m2) (absent : ∀ e, some e ∈ s.hld.entries → e.holder ≠ .motion) :
    ∃ t, exec (.accelSample a.x a.y a.z) s = .next t ∧ s.Silent a (motionIn s a .normal) s.drops 2 t := by
  refine h.turns ?_ (by rw [settle]; show (3 : Byte) ≠ 0; decide)
  rw [judged_settle settle calm positive few, if_pos full]
  unfold Blocks.completeSettle
  rw [State.counted_enters]
  exact Blocks.liftMotion_none absent

/-- The settle completes and the holds of MOTION are lifted (R113, R117). -/
theorem settled_lifts (full : s.mot.config.tSettle ≤ countedSettle s a.m2) (stands : ∃ e, some e ∈ s.hld.entries ∧ e.holder = .motion)
    (no_drops : s.drops = []) (calmBays : s.toPower.calmBays) :
    ∃ t, exec (.accelSample a.x a.y a.z) s = .next t ∧ t.mot = motionIn s a .normal ∧ t.trc = (traced s a).trc
      ∧ t.hld = s.hld.lowered (removeEntries (fun e => decide (e.holder = .motion)) s.hld.entries)
      ∧ t.bud.causes = ⟨false, false, true, false, false⟩ ∧ t.bud.rProt = t.hld.rProt ∧ t.bayA = s.bayA ∧ t.bayB = s.bayB
      ∧ t.sfe = s.sfe ∧ t.timers = s.timers ∧ t.blc.liveDuty = s.blc.liveDuty
      ∧ PassEvent s t ∧ keepsOutside (traceRange :: passRanges) s.mem t.mem := by
  have judged : (s.counted a).judgeSample a a.saturated = (s.moved (motionIn s a .normal) (traced s a) s.drops).liftMotion := by
    rw [judged_settle settle calm positive few, if_pos full]
    unfold Blocks.completeSettle
    rw [State.counted_enters]
  have next := h.next judged
  have kept := traced_kept h.room a
  obtain ⟨⟨mem, summary, trc, own⟩, -, -⟩ := traced_fields s a h.room
  rw [own] at next kept ⊢
  obtain ⟨u, is⟩ : ∃ u : State, u = { s with mem := mem, summary := summary, trc := trc } := ⟨_, rfl⟩
  have lowers := State.lowers (s := u) (by rw [is]; exact h.ready) (motionIn s a .normal) (by rw [is]; exact no_drops) (by rw [is]; exact calmBays)
    (by rw [is]; exact motion_stands stands)
  rw [is] at lowers
  refine ⟨_, next, lowers.mot, lowers.trc, lowers.hld, lowers.causes, ?_, lowers.bayA, lowers.bayB, lowers.sfe, lowers.timers, lowers.duty,
    lowers.event, keepsOutside_trans (keepsOutside_mono kept (by simp)) (keepsOutside_mono lowers.kept fun _ => List.mem_cons_of_mem _)⟩
  exact lowers.rProt.trans (congrArg (fun table : HoldTable => reserveSum table.entries) lowers.hld).symm

end Settle

end State.Sampled

/-! ## A window that a loss ends early -/

/-- What a loss leaves of an impact window whose last impact is `i`. -/
structure State.EndedEarly (s : State) (i : LastImpact) (f : Front) (drops : List DropData) : Prop where
  blocks : (s.toBlocks.withFront s.reported).endWindowEarly = s.moved { s.mot with lastImpact := i } f drops
  fares  : s.reported.Fares f

namespace State.EndedEarly

variable {s : State} {i : LastImpact} {f : Front} {drops : List DropData}

theorem loses (early : s.EndedEarly i f drops) : s.toBlocks.loseAccel = s.moved { s.mot.lost s.tmb.uptime with lastImpact := i } f.endCapture drops := by
  have blocks := early.blocks
  unfold State.reported at blocks
  unfold Blocks.loseAccel
  rw [blocks]
  rfl

/-- The event of the loss. -/
theorem turns (early : s.EndedEarly i f drops) (ready : Ready s) (charger : ChargerSettled s.toPower) (window : motionCode s.mot.state = 2) :
    s.Turned { s.mot.lost s.tmb.uptime with lastImpact := i } f.endCapture drops (s.withBlocks (s.toBlocks.loseAccel.settled s.toBlocks)) := by
  have notes : s.toFront.Notes s.reported := s.toFront.makeRecord_notes _
  rw [early.loses]
  refine State.turns ready charger ((notes.fares.trans early.fares).trans f.endCapture_fares) drops ?_
  rw [window]
  show (2 : Byte) ≠ 4
  decide

/-- The record of the loss comes first (log entry 9). -/
theorem logged {m : MotionRec} {t : State} (early : s.EndedEarly i f drops) (turns : s.Turned m f.endCapture drops t) :
    Logged s.toFront t.toFront (.sensorFault .accel) s.tmb := by
  have logs : s.toFront.Logs s.reported (.sensorFault .accel) s.tmb := s.toFront.makeRecord_logs _
  exact (logs.later ((early.fares.logs.trans f.endCapture_fares.logs).trans turns.logs)).logged

end State.EndedEarly

theorem State.reported_tmb (s : State) : s.reported.tmb = s.tmb := (s.toFront.makeRecord_notes (.sensorFault .accel)).links.tmb

theorem endsEarly_drop {s : State} {e : Episode} {w : ImpactWindow} (drop : s.mot.state = .impactDrop e w) (idle : s.hld.wait = none) :
    s.EndedEarly w.result (s.reported.writeDrop (dropData e w.result) s.hld.outcome s.bayA.state s.bayB.state) s.drops := by
  refine ⟨?_, (Front.writeDrop_links _ _ _ _ _).fares⟩
  have made : (s.toBlocks.withFront s.reported).toPower.makeDrop (dropData e w.result) = { (s.toBlocks.withFront s.reported).toPower with
      toFront := s.reported.writeDrop (dropData e w.result) s.hld.outcome s.bayA.state s.bayB.state } :=
    if_neg (by show ¬ s.hld.wait.isSome = true; rw [idle]; exact Bool.false_ne_true)
  unfold Blocks.endWindowEarly
  rw [show (s.toBlocks.withFront s.reported).mot.state = .impactDrop e w from drop]
  dsimp only
  unfold Blocks.endDrop
  rw [made]
  rfl

theorem endsEarly_defers {s : State} {e : Episode} {w : ImpactWindow} (drop : s.mot.state = .impactDrop e w) (waits : s.hld.wait.isSome = true) :
    s.EndedEarly w.result s.reported (s.drops ++ [dropData e w.result]) := by
  refine ⟨?_, .refl _⟩
  have made : (s.toBlocks.withFront s.reported).toPower.makeDrop (dropData e w.result) = { (s.toBlocks.withFront s.reported).toPower with
      drops := s.drops ++ [dropData e w.result] } := if_pos waits
  unfold Blocks.endWindowEarly
  rw [show (s.toBlocks.withFront s.reported).mot.state = .impactDrop e w from drop]
  dsimp only
  unfold Blocks.endDrop
  rw [made]
  rfl

theorem endsEarly_shock {s : State} {ret : ReturnState} {w : ImpactWindow} {i : LastImpact} (shock : s.mot.state = .impactShock ret w)
    (last : i = w.result) {f : Front} (tied : f = s.reported.makeTied (.shock i.peak i.saturated i.axis ret) ⟨.shock, shockBand i, some i.peak⟩) :
    s.EndedEarly i f s.drops := by
  refine ⟨?_, ?_⟩
  · unfold Blocks.endWindowEarly
    rw [show (s.toBlocks.withFront s.reported).mot.state = .impactShock ret w from shock]
    dsimp only
    unfold Blocks.endShock
    rw [← last, tied]
    rfl
  · rw [tied]
    exact (Front.makeTied_notes _ _ _).fares

/-- Two records, the second placed right after the first. -/
theorem second_placed {s : State} (off : monitorsOff s) (free : 2 ≤ s.log.free) {g : Front} {r : LogRecord} (logs : s.reported.Logs g r s.reported.tmb) :
    g.entryAt (s.log.writeIndex + 1) = r.bytes (s.log.writeIndex + 1) s.tmb := by
  obtain ⟨room, left⟩ := LogRec.room_of_free (l := s.log) (n := 1) free
  have log : s.reported.log = s.log.next := Front.makeRecord_room off room _
  have placed := logs.placed (by rw [log]; exact (LogRec.room_of_free (n := 0) left).1)
  rwa [log, s.reported_tmb] at placed

end Sys2Proof.Machine
end

section
/-! PROOF. Falls, impacts and shocks (R107 to R116). -/

namespace Sys2Proof.Machine

open Sys2Proof.Safety

theorem baysCalm_iff {s : State} (calm : baysCalm s) : s.toPower.calmBays := fun b => ⟨calm.1 b, calm.2 b⟩

/-- A loss from an impact window (R101, R110). -/
theorem loss_from_window {w : ImpactWindow} {s : State} (ready : Ready s) (charger : ChargerSettled s.toPower) (valid : s.mot.health = .valid)
    (due : s.mot.watchDeadline ≤ s.tmb.uptime) (window : (∃ e, s.mot.state = .impactDrop e w) ∨ (∃ ret, s.mot.state = .impactShock ret w)) :
    ∃ t, exec .sampleWatch s = .next t ∧ ∃ f drops, s.Turned { s.mot.lost s.tmb.uptime with lastImpact := w.result } f drops t
      ∧ Logged s.toFront t.toFront (.sensorFault .accel) s.tmb
      ∧ (monitorsOff s → 2 ≤ s.log.free → ∀ ret, s.mot.state = .impactShock ret w →
          t.toFront.entryAt (s.log.writeIndex + 1)
            = (LogRecord.shock w.result.peak w.result.saturated w.result.axis ret).bytes (s.log.writeIndex + 1) s.tmb)
      ∧ (∀ e, s.mot.state = .impactDrop e w → s.hld.wait.isSome = true → drops = s.drops ++ [dropData e w.result]) := by
  refine ⟨_, exec_loses ready.1 valid due, ?_⟩
  obtain ⟨e, drop⟩ | ⟨ret, shock⟩ := window
  · have code : motionCode s.mot.state = 2 := by rw [drop]; rfl
    have no_shock (ret : ReturnState) : s.mot.state ≠ .impactShock ret w := by rw [drop]; nofun
    have same (e' : Episode) (drop' : s.mot.state = .impactDrop e' w) : e' = e := by
      rw [drop] at drop'
      cases drop'
      rfl
    cases wait : s.hld.wait with
    | none =>
      have early := endsEarly_drop drop wait
      have turns := early.turns ready charger code
      exact ⟨_, _, turns, early.logged turns, fun _ _ ret shock => absurd shock (no_shock ret), fun _ _ waits => nomatch waits⟩
    | some d =>
      have early := endsEarly_defers drop (by rw [wait]; rfl)
      have turns := early.turns ready charger code
      exact ⟨_, _, turns, early.logged turns, fun _ _ ret shock => absurd shock (no_shock ret), fun e' drop' _ => by rw [same e' drop']⟩
  · obtain ⟨f, tied⟩ : ∃ f, f = s.reported.makeTied (.shock w.result.peak w.result.saturated w.result.axis ret)
      ⟨.shock, shockBand w.result, some w.result.peak⟩ := ⟨_, rfl⟩
    have early := endsEarly_shock shock rfl tied
    have turns := early.turns ready charger (by rw [shock]; rfl)
    refine ⟨_, _, turns, early.logged turns, fun off free ret' shock' => ?_, fun e drop => absurd drop (by rw [shock]; nofun)⟩
    have logs : s.reported.Logs f (.shock w.result.peak w.result.saturated w.result.axis ret) s.reported.tmb := by
      rw [tied]
      exact Front.makeTied_logs _ _ _
    rw [shock] at shock'
    cases shock'
    exact second_placed off free (logs.later (f.endCapture_fares.logs.trans turns.logs))

/-- The caught run of a fall that goes on (R105). -/
theorem countedCatch_on {s : State} {m2 : Nat} (miss : m2 ≤ s.mot.config.tImp ^ 2) (few : s.mot.config.nFf ≤ 160)
    (short : m2 < s.mot.config.tFf ^ 2 ∨ s.mot.caught.count + 1 < s.mot.config.nFf) :
    countedCatch s m2 = if m2 < s.mot.config.tFf ^ 2 then ⟨0, 0⟩ else if s.mot.caught.count = 0 then ⟨1, s.mot.index + 1⟩
      else { s.mot.caught with count := s.mot.caught.count + 1 } := by
  by_cases light : m2 < s.mot.config.tFf ^ 2
  · rw [if_pos light, countedCatch_light light]
  · have below := short.resolve_left light
    rw [if_neg light, countedCatch_heavy (Nat.not_lt.mp light) miss, Nat.min_eq_right (by omega)]

/-- Settles O30: each state's rows as stated above, the sample's own size and saturation put in. -/
theorem impactsAndFallsAreRecorded : Obligations.ImpactsAndFallsAreRecorded := by
  refine ⟨fun n small => floorSqrt_spec small, fun x y z s ready charger valid range hx hy hz room => ?_, fun w s ready charger valid due window => ?_⟩
  · intro a m2 sat c idx f first more settling silent recorded linked
    have h : s.Sampled a := ⟨ready, charger, valid, hx, hy, hz, room⟩
    have size : a.m2 = m2 := Axes.m2_eq x y z
    have full : a.saturated = sat := Axes.saturated_eq x y z
    have positive : 0 < c.nFf := Nat.lt_of_lt_of_le (by decide) range.2.1.1
    have opened : openWindow idx a a.saturated = first := by
      unfold openWindow
      rw [size, full]
    have added (w : ImpactWindow) : w.add a a.saturated = more w := by
      unfold ImpactWindow.add
      rw [size, full]
    have linked_ (e : Episode) : linkedTrace f e.traceStatus e.traceSerial = linked e := by
      unfold linkedTrace
      rw [show f.log = s.log from traced_log s a]
    refine ⟨?_, ?_, ?_, ?_, fun ret row hit => ?_, ?_⟩
    · intro e falling hit ms height
      obtain ⟨t, next, shape, kept⟩ := h.impact falling (by rw [size]; exact hit) (ms := ms) (height := height) rfl rfl
      rw [opened] at shape
      exact ⟨t, next, shape, kept⟩
    · intro e falling miss ended
      have missed : a.m2 ≤ s.mot.config.tImp ^ 2 := by rw [size]; exact miss
      refine ⟨fun heavy runs few last => ?_, fun short old => ?_, fun short young => ?_⟩
      · obtain ⟨t, next, ⟨logged, shape, kept⟩, trc⟩ := h.falls falling (judged_caught falling missed _ (by rw [size]; exact heavy) runs few last)
        exact ⟨t, ⟨next, logged, shape, kept⟩, trc.trans (linked_ e)⟩
      · obtain ⟨t, next, ⟨logged, shape, kept⟩, trc⟩ := h.falls falling (judged_long falling missed _ positive (by rw [size]; exact short) old)
        exact ⟨t, ⟨next, logged, shape, kept⟩, trc.trans (linked_ e)⟩
      · obtain ⟨t, next, shape, kept⟩ := h.fallsOn falling missed positive (by rw [size]; exact short) young
        rw [size, countedCatch_on miss range.2.1.2 short] at shape
        exact ⟨t, next, shape, kept⟩
    · intro e w drop i d
      refine ⟨fun goes => ?_, fun last idle => ?_, fun last waits => ?_⟩
      · obtain ⟨t, next, shape, kept⟩ := h.dropGoesOn drop goes
        rw [added] at shape
        exact ⟨t, next, shape, kept⟩
      · obtain ⟨t, next, ⟨logged, shape, kept⟩, trc⟩ := h.dropEnds drop last idle (i := i) (by rw [added]; rfl)
        exact ⟨t, ⟨next, logged, shape, kept⟩, trc.trans (linked_ e)⟩
      · obtain ⟨t, next, shape, kept⟩ := h.dropDefers drop last waits (i := i) (by rw [added]; rfl)
        have late : t.drops = s.drops ++ [d] := by rw [shape]; rfl
        refine ⟨t, next, late, ?_, kept⟩
        rw [late]
        exact shape
    · intro ret w shock i
      refine ⟨fun goes => ?_, fun last => ?_⟩
      · obtain ⟨t, next, shape, kept⟩ := h.shockGoesOn shock goes
        rw [added] at shape
        exact ⟨t, next, shape, kept⟩
      · obtain ⟨t, next, ⟨logged, shape, kept⟩, trc⟩ := h.shockEnds shock last (i := i) (by rw [added]; rfl)
        exact ⟨t, ⟨next, logged, shape, kept⟩, trc⟩
    · obtain ⟨t, next, shape, kept⟩ := h.opens row (by rw [size]; exact hit)
      rw [opened] at shape
      exact ⟨t, next, shape, kept⟩
    · intro d settle few calm free run
      have calm_ : a.m2 ≤ s.mot.config.tImp ^ 2 := by rw [size]; exact calm
      have few_ : a.m2 < s.mot.config.tFf ^ 2 → s.mot.freeFall.count + 1 < s.mot.config.nFf := by rw [size]; exact few
      have counted : countedSettle s a.m2 = run := by rw [size]; rfl
      refine ⟨fun short => ?_, fun last absent => ?_, fun last stands no_drops calmBays => ?_⟩
      · obtain ⟨t, next, shape, kept⟩ := h.settles settle calm_ positive few_ (by rw [counted]; exact short)
        rw [counted, size] at shape
        exact ⟨t, next, shape, kept⟩
      · obtain ⟨t, next, shape, kept⟩ := h.settled settle calm_ positive few_ (by rw [counted]; exact last) absent
        exact ⟨t, next, shape, kept⟩
      · obtain ⟨t, next, mot, trc, hld, rest⟩ := h.settled_lifts settle calm_ positive few_ (by rw [counted]; exact last) stands no_drops (baysCalm_iff calmBays)
        exact ⟨t, next, mot, trc, (congrArg HoldTable.entries hld).trans (removeMotion_eq _), rest⟩
  · obtain ⟨t, next, f, drops, turns, logged, placed, late⟩ := loss_from_window ready charger valid due window
    refine ⟨t, next, by rw [turns.mot]; rfl, by rw [turns.mot]; rfl, by rw [turns.mot]; rfl, by rw [turns.mot]; rfl, logged, placed, ?_, ?_, turns.kept⟩
    · exact fun e drop waits => turns.late.trans (late e drop waits)
    · rw [turns.mot, turns.late]
      exact turns.shape

end Sys2Proof.Machine
end

section
/-! PROOF. The table of a confirmed fall, and what the trace makes of it (R51, R55, R123, R126). -/

namespace Sys2Proof.Machine

open Sys2Proof.Safety

/-! ## What a table targets -/

theorem targets_iff {h : HoldTable} {g : Target} : h.targets g = true ↔ ∃ e, some e ∈ h.entries ∧ e.target = g := by
  unfold HoldTable.targets
  rw [List.any_eq_true]
  refine ⟨fun ⟨o, mem, holds⟩ => ?_, fun ⟨e, mem, target⟩ => ⟨some e, mem, decide_eq_true target⟩⟩
  cases o with
  | none => exact absurd holds Bool.false_ne_true
  | some e => exact ⟨e, mem, of_decide_eq_true holds⟩

/-- Tables with the same pairs and reserves target the same. -/
theorem targets_of_shape {es fs : List (Option HoldEntry)} (same : tableShape es = tableShape fs) (h : HoldTable) (g : Target) :
    ({ h with entries := es } : HoldTable).targets g = ({ h with entries := fs } : HoldTable).targets g := by
  have seen (es : List (Option HoldEntry)) : ({ h with entries := es } : HoldTable).targets g
      = (tableShape es).any fun o => o.any fun p => decide (p.2.1 = g) := by
    unfold HoldTable.targets tableShape
    rw [List.any_map]
    refine congrArg es.any (funext fun o => ?_)
    cases o <;> rfl
  rw [seen, seen, same]

/-- What a placement does: nothing, or one position, free or of the same pair, takes the entry. -/
theorem placeEntry_cases (e : HoldEntry) (es : List (Option HoldEntry)) : placeEntry e es = es ∨ ∃ n now,
    placeEntry e es = es.set n (some { e with placedAt := now }) ∧ n < es.length ∧ ∀ x, es[n]? = some (some x) → x.target = e.target := by
  cases stands : positionOf e.holder e.target es with
  | some n =>
    obtain ⟨f, there, pair⟩ := positionOf_some stands
    refine .inr ⟨n, f.placedAt, placeEntry_refreshed stands there, (List.getElem?_eq_some_iff.mp there).1, fun x found => ?_⟩
    rw [there] at found
    cases found
    exact congrArg Prod.snd pair
  | none =>
    unfold placeEntry decidePlacement
    rw [stands]
    dsimp only
    split
    · rename_i n decided
      split at decided
      · cases decided
      · split at decided
        · rename_i free
          cases decided
          refine .inr ⟨n, e.placedAt, rfl, (List.getElem?_eq_some_iff.mp (freePosition_free free)).1, fun x found => ?_⟩
          rw [freePosition_free free] at found
          cases found
        · cases decided
    · rename_i n decided
      split at decided
      · cases decided
      · split at decided <;> cases decided
    · exact .inl rfl

/-- A placement leaves every target that the table had. -/
theorem placeEntry_targets (e : HoldEntry) {es : List (Option HoldEntry)} {g : Target} (stands : ∃ x, some x ∈ es ∧ x.target = g) :
    ∃ x, some x ∈ placeEntry e es ∧ x.target = g := by
  rcases placeEntry_cases e es with same | ⟨n, now, set, inside, own⟩
  · rwa [same]
  · obtain ⟨x, mem, target⟩ := stands
    obtain ⟨m, there⟩ := List.mem_iff_getElem?.mp mem
    rw [set]
    by_cases here : n = m
    · subst here
      exact ⟨{ e with placedAt := now }, List.mem_set inside _, (own x there).symm.trans target⟩
    · exact ⟨x, List.mem_of_getElem? (i := m) (by rw [List.getElem?_set_ne here]; exact there), target⟩

/-! ## The holds of MOTION (R55) -/

/-- The table once MOTION has placed its three holds with these reserves. -/
def motionTable (latch storage now : Nat) (es : List (Option HoldEntry)) : List (Option HoldEntry) :=
  placeEntry ⟨.motion, .storage, storage, now, none⟩ (placeEntry ⟨.motion, .latchB, latch, now, none⟩ (placeEntry ⟨.motion, .latchA, latch, now, none⟩ es))

theorem motionTable_targets (latch storage now : Nat) {es : List (Option HoldEntry)} {g : Target} (stands : ∃ x, some x ∈ es ∧ x.target = g) :
    ∃ x, some x ∈ motionTable latch storage now es ∧ x.target = g :=
  placeEntry_targets _ (placeEntry_targets _ (placeEntry_targets _ stands))

theorem motionTable_empty (latch storage now : Nat) : motionTable latch storage now (List.replicate 16 none)
    = some ⟨.motion, .latchA, latch, now, none⟩ :: some ⟨.motion, .latchB, latch, now, none⟩ :: some ⟨.motion, .storage, storage, now, none⟩
      :: List.replicate 13 none := rfl

/-- An entry of MOTION on `g` as its renewal leaves it. -/
def renewed (g : Target) (reserve : Nat) (e : HoldEntry) : HoldEntry :=
  if e.holder = .motion ∧ e.target = g then { e with reserve := reserve, expiry := none } else e

theorem renewed_pair (g : Target) (reserve : Nat) (e : HoldEntry) : pairOf (renewed g reserve e) = pairOf e := by
  unfold renewed
  split <;> rfl

/-- A renewal in a table of distinct pairs. -/
theorem placeEntry_renews {es : List (Option HoldEntry)} (distinct : (standingPairs es).Nodup) {g : Target} (stands : positionOf .motion g es ≠ none)
    (reserve now : Nat) : placeEntry ⟨.motion, g, reserve, now, none⟩ es = es.map (Option.map (renewed g reserve)) := by
  obtain ⟨n, position⟩ := Option.ne_none_iff_exists'.mp stands
  obtain ⟨f, there, pair⟩ := positionOf_some position
  have inside := (List.getElem?_eq_some_iff.mp there).1
  rw [placeEntry_refreshed (e := ⟨.motion, g, reserve, now, none⟩) position there]
  refine List.ext_getElem? fun k => ?_
  rw [List.getElem?_map]
  by_cases here : n = k
  · subst here
    obtain ⟨holder, target⟩ : f.holder = .motion ∧ f.target = g := by simpa [pairOf] using pair
    rw [List.getElem?_set_self inside, there]
    unfold renewed
    simp [holder, target]
  · rw [List.getElem?_set_ne here]
    cases found : es[k]? with
    | none => rfl
    | some o =>
      cases o with
      | none => rfl
      | some x =>
        have other : ¬ (x.holder = .motion ∧ x.target = g) := fun ⟨holder, target⟩ =>
          here (position_unique distinct there found (by rw [pair]; simp [pairOf, holder, target]))
        simp [renewed, other]

theorem standingPairs_map {u : HoldEntry → HoldEntry} (keeps : ∀ e, pairOf (u e) = pairOf e) (es : List (Option HoldEntry)) :
    standingPairs (es.map (Option.map u)) = standingPairs es := by
  induction es with
  | nil => rfl
  | cons o es ih =>
    unfold standingPairs at ih ⊢
    cases o with
    | none => simpa using ih
    | some e => simpa [keeps] using ih

theorem positionOf_map {u : HoldEntry → HoldEntry} (keeps : ∀ e, pairOf (u e) = pairOf e) (h : Holder) (g : Target) (es : List (Option HoldEntry)) :
    positionOf h g (es.map (Option.map u)) = positionOf h g es := by
  unfold positionOf
  rw [List.findIdx?_map]
  congr 1
  funext o
  cases o with
  | none => rfl
  | some e => exact Bool.eq_iff_iff.mpr (by show isPair h g (some (u e)) = true ↔ _; rw [isPair_some, isPair_some, keeps])

/-- All three holds of MOTION renewed in their positions. -/
theorem motionTable_renews {es : List (Option HoldEntry)} (distinct : (standingPairs es).Nodup) (stands : ∀ g, positionOf .motion g es ≠ none)
    (latch storage now : Nat) : motionTable latch storage now es = es.map fun o => o.map fun e =>
      if e.holder = .motion then { e with reserve := if e.target = .storage then storage else latch, expiry := none } else e := by
  have keeps (g : Target) (reserve : Nat) {fs : List (Option HoldEntry)}
      (h : (standingPairs fs).Nodup ∧ ∀ g, positionOf .motion g fs ≠ none) :
      (standingPairs (fs.map (Option.map (renewed g reserve)))).Nodup ∧ ∀ k, positionOf .motion k (fs.map (Option.map (renewed g reserve))) ≠ none := by
    rw [standingPairs_map (renewed_pair _ _)]
    exact ⟨h.1, fun k => by rw [positionOf_map (renewed_pair _ _)]; exact h.2 k⟩
  have first := keeps .latchA latch ⟨distinct, stands⟩
  have second := keeps .latchB latch first
  unfold motionTable
  rw [placeEntry_renews distinct (stands .latchA), placeEntry_renews first.1 (first.2 .latchB), placeEntry_renews second.1 (second.2 .storage)]
  rw [List.map_map, List.map_map]
  refine List.map_congr_left fun o _ => ?_
  cases o with
  | none => rfl
  | some e =>
    obtain ⟨holder, target, reserve, placed, expiry⟩ := e
    refine congrArg some ?_
    by_cases motion : holder = .motion
    · cases target <;> simp [renewed, motion]
    · simp [renewed, motion]

end Sys2Proof.Machine
end

section
/-! PROOF. What a confirmed fall changes (R106, R115, R117, R123, R126). -/

namespace Sys2Proof.Machine

open Sys2Proof.Safety

/-! ## The trace of a confirmed fall -/

/-- The bytes of the trace that a confirmation writes. -/
def settleArea (on : Bool) (st : TraceState) : List Range :=
  if on = true ∧ st = .free then [(0x2000, 0x2840)] else if on = true ∧ st = .filling then [(0x2000, 0x2040)] else []

theorem length_ringEntries {ring : List RingEntry} (few : ring.length ≤ 256) : (ringEntries ring).length = 256 := by
  unfold ringEntries
  rw [List.length_append, List.length_replicate, List.length_reverse]
  show 256 - ring.length + ring.length = 256
  omega

theorem length_entriesBytes (es : List RingEntry) : (es.flatMap traceEntryBytes).length = 8 * es.length := by
  induction es with
  | nil => rfl
  | cons e es ih =>
    rw [List.flatMap_cons, List.length_append, ih, length_traceEntryBytes, List.length_cons]
    omega

/-- The base of a capture (R123, step 4). -/
theorem captureBase_eq (idx : Word) :
    captureBase idx = idx - BitVec.ofNat 32 (if idx.toNat % 4 = 3 then 3 else idx.toNat % 4 + 4) - 1020 := by
  unfold captureBase
  dsimp only
  refine congrArg (· - (1020 : Word)) (BitVec.eq_of_toNat_eq ?_)
  have := idx.isLt
  rw [BitVec.toNat_ofNat, BitVec.toNat_sub, BitVec.toNat_ofNat]
  split <;> omega

/-- A capture starts (R123). -/
theorem Front.startCapture_shows (f : Front) {ring : List RingEntry} (few : ring.length ≤ 256) (idx start : Word) :
    (∃ mem, f.startCapture ring idx start = { f with
      mem := mem
      trc := ⟨.filling, serialSucc f.trc.serial, 256, captureBase idx, start, f.tmb.uptime, 0, .none, 0xFFFFFFFF⟩ })
    ∧ keepsOutside [(0x2000, 0x2840)] f.mem (f.startCapture ring idx start).mem
    ∧ readBytes (f.startCapture ring idx start).mem 0x2000 64 = traceHeader (f.startCapture ring idx start).trc
    ∧ readBytes (f.startCapture ring idx start).mem 0x2040 2048 = (ringEntries ring).flatMap traceEntryBytes := by
  obtain ⟨g, written⟩ : ∃ g, g = f.write (traceEntryAt 0) ((ringEntries ring).flatMap traceEntryBytes) := ⟨_, rfl⟩
  obtain ⟨t, record⟩ : ∃ t : TraceRec, t = ⟨.filling, serialSucc f.trc.serial, 256, captureBase idx, start, f.tmb.uptime, 0, .none, 0xFFFFFFFF⟩ := ⟨_, rfl⟩
  have form : f.startCapture ring idx start = g.putTrace t := by rw [written, record]; rfl
  have size : ((ringEntries ring).flatMap traceEntryBytes).length = 2048 := by rw [length_entriesBytes, length_ringEntries few]
  have entries := readBytes_writeBytes_self f.mem 0x2040 ((ringEntries ring).flatMap traceEntryBytes) (by rw [size]; decide)
  have first : keepsOutside [(0x2000, 0x2840)] f.mem g.mem := by
    rw [written]
    exact keepsOutside_writeBytes f.mem _ _ (0x2000, 0x2840) (by simp) (by decide) (by rw [size]; decide)
  have header := g.putTrace_keepsOutside t
  rw [form, ← record]
  refine ⟨⟨_, by rw [written]; rfl⟩, keepsOutside_trans first (keepsOutside_widen header (by simp)), g.putTrace_header t, ?_⟩
  rw [readBytes_of_keepsOutside header _ _ (by simp), written]
  rwa [size] at entries

/-- What TRC answers changes the trace alone. -/
theorem Front.settleTrace_fields (f : Front) (on : Bool) {ring : List RingEntry} (few : ring.length ≤ 256) (idx start : Word) :
    (∃ (mem : Mem) (trc : TraceRec), (f.settleTrace on ring idx start).front = { f with mem := mem, trc := trc })
    ∧ keepsOutside (settleArea on f.trc.state) f.mem (f.settleTrace on ring idx start).front.mem := by
  unfold Front.settleTrace settleArea
  cases on
  · exact ⟨⟨_, _, rfl⟩, keepsOutside_refl _ _⟩
  · cases st : f.trc.state
    · obtain ⟨⟨mem, own⟩, kept, -, -⟩ := f.startCapture_shows few idx start
      exact ⟨⟨mem, _, own⟩, kept⟩
    · exact ⟨⟨_, _, rfl⟩, f.putTrace_keepsOutside _⟩
    · exact ⟨⟨_, _, rfl⟩, keepsOutside_refl _ _⟩

/-! ## The confirmation -/

/-- MOT's record once a fall is confirmed (R106). -/
def State.fell (s : State) (a : Axes) (status : TraceStatus) (serial : Option Word) : MotionRec :=
  motionIn s a (.falling ⟨s.mot.freeFall.start, s.feed.kind, s.mot.freeFall.orient,
    ⟨s.mot.config.protect, s.mot.config.protect, s.mot.config.protect⟩, status, serial, 0, 0⟩)

/-- The table once a fall is confirmed (R55). -/
def State.fallTable (s : State) : List (Option HoldEntry) :=
  if s.mot.config.protect then motionTable s.mot.config.latchReserve s.mot.config.storageReserve s.tmb.uptime s.hld.entries else s.hld.entries

/-- The bays and the table once a fall is confirmed, before its flag. -/
def State.fallPlaced (s : State) (a : Axes) : Power :=
  if s.mot.config.protect then ({ s.toPower with toFront := traced s a } : Power).putTable s.fallTable else { s.toPower with toFront := traced s a }

/-- What TRC answers to the fall. -/
def State.fallTrace (s : State) (a : Axes) : TraceAnswer :=
  (((s.fallPlaced a).toFront.raise .fall).sendEvent (plainEvent .fall)).settleTrace s.mot.config.trace (joined s a).1.ring (s.mot.index + 1)
    s.mot.freeFall.start

/-- MOT's three placements (R55), where no bay answers to them. -/
theorem State.moved_places {s : State} {m : MotionRec} {f : Front} (config : m.config = s.mot.config) (time : f.tmb = s.tmb)
    (calm : (({ s.toPower with toFront := f } : Power).putTable
      (motionTable s.mot.config.latchReserve s.mot.config.storageReserve s.tmb.uptime s.hld.entries)).calmBays) :
    (s.moved m f s.drops).placeMotion = ({ s.toBlocks with mot := m } : Blocks).withPower (({ s.toPower with toFront := f } : Power).putTable
      (motionTable s.mot.config.latchReserve s.mot.config.storageReserve s.tmb.uptime s.hld.entries)) := by
  have changed := Power.changeTable_calm calm (s.moved m f s.drops).loads
  have table : motionTable m.config.latchReserve m.config.storageReserve f.tmb.uptime s.hld.entries
      = motionTable s.mot.config.latchReserve s.mot.config.storageReserve s.tmb.uptime s.hld.entries := by rw [config, time]
  unfold Blocks.placeMotion
  dsimp only
  show (s.moved m f s.drops).withPower (Power.changeTable _ _ (motionTable m.config.latchReserve m.config.storageReserve f.tmb.uptime s.hld.entries)) = _
  rw [table]
  exact congrArg _ changed

/-- What a confirmed fall changes. -/
theorem confirmFall_eq {s : State} {a : Axes} (run : (s.counted a).mot.freeFall.start = s.mot.freeFall.start
      ∧ (s.counted a).mot.freeFall.orient = s.mot.freeFall.orient) (ring : (s.counted a).mot.ring = (joined s a).1.ring)
    (calm : (s.fallPlaced a).calmBays) :
    (s.counted a).confirmFall = ({ s.toBlocks with mot := s.fell a (s.fallTrace a).status (s.fallTrace a).serial } : Blocks).withPower
      { s.fallPlaced a with toFront := (s.fallTrace a).front } := by
  unfold Blocks.confirmFall
  dsimp only
  rw [State.counted_enters, run.1, run.2, ring, State.counted_config, State.counted_index]
  unfold State.fallTrace State.fell
  unfold State.fallPlaced State.fallTable at calm ⊢
  cases protect : s.mot.config.protect
  · simp only [Bool.false_eq_true, if_false]
    rfl
  · rw [protect] at calm
    simp only [if_true] at calm ⊢
    rw [State.moved_places (m := motionIn s a _) (joined_config s a) (traced_tmb s a) calm]
    generalize Power.putTable _ _ = q
    rfl

end Sys2Proof.Machine
end

section
/-! PROOF. The sample that confirms a fall (R105, R106, R117). -/

namespace Sys2Proof.Machine

open Sys2Proof.Safety

/-! ## The table of a fall -/

theorem HoldTable.become_same (h : HoldTable) (now : Nat) : h.become h.entries now = h := by
  unfold HoldTable.become
  dsimp only
  cases h.quiesce <;> rfl

theorem HoldTable.waitEnds_same (h : HoldTable) : h.waitEnds h.entries = false := by
  unfold HoldTable.waitEnds
  dsimp only
  cases h.quiesce <;> rfl

theorem HoldTable.become_entries (h : HoldTable) (es : List (Option HoldEntry)) (now : Nat) : (h.become es now).entries = es := by
  unfold HoldTable.become
  dsimp only
  split
  · split <;> rfl
  · split <;> rfl

/-- A table that keeps the quiesce line up where it is up (R59, R60). -/
theorem HoldTable.become_rises {h : HoldTable} {es : List (Option HoldEntry)} (stays : h.quiesce = true → ({ h with entries := es } : HoldTable).quiesce = true)
    (now : Nat) : h.become es now = if !h.quiesce && ({ h with entries := es } : HoldTable).quiesce
      then { h with
        entries := es, wait := if h.ackLine then none else some (now + 50), outcome := if h.ackLine then .acked else .pending }
      else { h with entries := es } := by
  unfold HoldTable.become
  dsimp only
  cases up : h.quiesce
  · cases ({ h with entries := es } : HoldTable).quiesce
    · rfl
    · cases h.ackLine <;> rfl
  · rw [stays up]
    rfl

/-- Where the quiesce line stays as it is nothing rises and no wait ends. -/
theorem HoldTable.become_level {h : HoldTable} {es : List (Option HoldEntry)} (line : ({ h with entries := es } : HoldTable).quiesce = h.quiesce) (now : Nat) :
    h.become es now = { h with entries := es } ∧ h.waitEnds es = false := by
  unfold HoldTable.become HoldTable.waitEnds
  dsimp only
  rw [line]
  cases h.quiesce <;> exact ⟨rfl, rfl⟩

theorem HoldTable.become_shape {h : HoldTable} {es : List (Option HoldEntry)} (same : tableShape es = tableShape h.entries) (now : Nat) :
    h.become es now = { h with entries := es } ∧ h.waitEnds es = false :=
  HoldTable.become_level (targets_of_shape same h .storage) now

theorem State.fallTable_targets (s : State) {g : Target} (stands : s.hld.targets g = true) : ({ s.hld with entries := s.fallTable } : HoldTable).targets g = true := by
  rw [targets_iff] at stands ⊢
  show ∃ e, some e ∈ s.fallTable ∧ e.target = g
  unfold State.fallTable
  split
  · exact motionTable_targets _ _ _ stands
  · exact stands

/-- The bays and the table once a fall is confirmed. -/
theorem State.fallPlaced_eq {s : State} (no_drops : s.drops = []) (a : Axes) : ∃ g, s.fallPlaced a = { s.toPower with
      hld := s.hld.become s.fallTable s.tmb.uptime, due := { s.due with hold := s.due.hold || tableChanged s.hld.entries s.fallTable }
      fhu := if s.hld.waitEnds s.fallTable then { s.fhu with deferredEnd := none } else s.fhu, toFront := g }
    ∧ (traced s a).Tells g := by
  unfold State.fallPlaced
  cases protect : s.mot.config.protect
  · have table : s.fallTable = s.hld.entries := by unfold State.fallTable; rw [protect]; rfl
    refine ⟨traced s a, ?_, .refl _⟩
    rw [table, HoldTable.become_same, HoldTable.waitEnds_same, show tableChanged s.hld.entries s.hld.entries = false from decide_eq_false (by simp),
      Bool.or_false]
    rfl
  · obtain ⟨g, put, tells, -⟩ := Power.putTable_eq (p := { s.toPower with toFront := traced s a }) no_drops s.fallTable
    refine ⟨g, ?_, tells⟩
    rw [← traced_tmb s a]
    exact put

/-- Where the table shows the same pairs and reserves only its page follows. -/
theorem State.fallPlaced_same {s : State} (same : tableShape s.fallTable = tableShape s.hld.entries) (a : Axes) : s.fallPlaced a = { s.toPower with
    hld := { s.hld with entries := s.fallTable }
    toFront := if s.mot.config.protect then (traced s a).publish .mirror (mirrorPage { s.hld with entries := s.fallTable }) else traced s a } := by
  unfold State.fallPlaced
  cases protect : s.mot.config.protect
  · have table : s.fallTable = s.hld.entries := by unfold State.fallTable; rw [protect]; rfl
    rw [table]
    rfl
  · have line : ({ s.hld with entries := s.fallTable } : HoldTable).quiesce = s.hld.quiesce := targets_of_shape same s.hld .storage
    have seen : decide (tableShape s.fallTable ≠ tableShape s.hld.entries) = false := decide_eq_false (by simpa using same)
    simp only [if_true]
    unfold Power.putTable
    dsimp only
    rw [line, seen, Bool.or_false]
    cases s.hld.quiesce <;> rfl

/-! ## The flag, the event and the trace -/

/-- The host's side once the flag is up and the event sent. -/
def State.fallSent (s : State) (a : Axes) : Front := ((s.fallPlaced a).toFront.raise .fall).sendEvent (plainEvent .fall)

theorem State.fallSent_notes (s : State) (a : Axes) : ((s.fallPlaced a).toFront.raise .fall).Notes (s.fallSent a) := Front.sendEvent_notes _ _

theorem State.fallSent_trc (s : State) (a : Axes) : (s.fallSent a).trc = (s.fallPlaced a).toFront.trc := (s.fallSent_notes a).trc

theorem State.fallSent_up (s : State) (a : Axes) : (s.fallSent a).summary &&& 0x10 ≠ 0 :=
  (s.fallSent_notes a).raised.up (flag_up (s.fallPlaced a).toFront.summary (by decide))

/-- From the placed table to the trace's answer. -/
structure Front.Answers (f g : Front) (area : List Range) : Prop where
  shape : ∃ (mem : Mem) (summary : Word) (log : LogRec) (monitors : List Monitor) (gen : Word) (trc : TraceRec), g = { f with
    mem := mem, summary := summary, log := { log with effRead := f.log.effRead }, monitors := monitors
    gens := { f.gens with monitor := gen }, trc := trc }
  up    : g.summary &&& 0x10 ≠ 0
  kept  : keepsOutside (area ++ recordRanges) f.mem g.mem

theorem State.fallTrace_answers (s : State) (a : Axes) (few : s.mot.ring.length ≤ 256) :
    (s.fallPlaced a).toFront.Answers (s.fallTrace a).front (settleArea s.mot.config.trace (s.fallPlaced a).toFront.trc.state) := by
  obtain ⟨m, su, l, ms, v, sent⟩ := (s.fallSent_notes a).step.fields
  obtain ⟨⟨mem, trc, own⟩, kept⟩ := (s.fallSent a).settleTrace_fields s.mot.config.trace (joined_ring_few s a few) (s.mot.index + 1) s.mot.freeFall.start
  have up := s.fallSent_up a
  have records := (s.fallSent_notes a).step.kept
  rw [s.fallSent_trc a] at kept
  have whole := keepsOutside_trans (keepsOutside_mono records fun _ => List.mem_append_right (settleArea s.mot.config.trace (s.fallPlaced a).toFront.trc.state))
    (keepsOutside_mono kept fun _ => List.mem_append_left _)
  refine ⟨⟨mem, su, l, ms, v, trc, ?_⟩, ?_, whole⟩
  · refine own.trans ?_
    rw [sent]
    rfl
  · rw [show (s.fallTrace a).front.summary = (s.fallSent a).summary from (congrArg Front.summary own :)]
    exact up

/-! ## The event -/

section Confirmed

variable {s : State} {a : Axes}

theorem fallRun_runs {s : State} (runs : s.mot.freeFall.count ≠ 0) :
    (fallRun s).start = s.mot.freeFall.start ∧ (fallRun s).orient = s.mot.freeFall.orient := by
  unfold fallRun
  rw [if_neg runs]
  exact ⟨rfl, rfl⟩

/-- What the sample counts in NORMAL and in SETTLE (R105). -/
theorem counted_run (row : s.mot.state = .normal ∨ ∃ d, s.mot.state = .settle d) :
    (s.counted a).mot.freeFall = countedFall s a.m2 ∧ (s.counted a).mot.ring = (joined s a).1.ring := by
  obtain normal | ⟨d, settle⟩ := row
  · rw [State.counted_moved, countRuns_normal normal]
    exact ⟨rfl, rfl⟩
  · rw [counted_settle settle]
    exact ⟨rfl, rfl⟩

/-- The sample that brings the run to N_ff (R106). -/
theorem judged_confirms (row : s.mot.state = .normal ∨ ∃ d, s.mot.state = .settle d) (range : MotionInRange s.mot.config)
    (light : a.m2 < s.mot.config.tFf ^ 2) (full : s.mot.config.nFf ≤ s.mot.freeFall.count + 1) (sat : Bool) :
    (s.counted a).judgeSample a sat = (s.counted a).confirmFall := by
  obtain ⟨⟨-, ff⟩, ⟨-, nff⟩, ⟨imp, -⟩, -⟩ := range
  have calm : ¬ s.mot.config.tImp ^ 2 < a.m2 := by
    have := Nat.pow_le_pow_left (Nat.le_trans ff (Nat.le_trans (by decide : 800 ≤ 1500) imp)) 2
    omega
  have run : s.mot.config.nFf ≤ (s.counted a).mot.freeFall.count := by
    rw [(counted_run row).1]
    unfold countedFall
    rw [if_pos light, fallRun_count]
    exact Nat.le_min.mpr ⟨nff, full⟩
  obtain normal | ⟨d, settle⟩ := row
  · rw [Blocks.judgeSample_normal sat ((s.counted_state a).trans normal), counted_impact, decide_eq_false calm, if_neg Bool.false_ne_true,
      State.counted_config, if_pos run]
  · rw [Blocks.judgeSample_settle sat ((s.counted_state a).trans settle), counted_impact, decide_eq_false calm, if_neg Bool.false_ne_true,
      State.counted_config, if_pos run]

end Confirmed

/-- The bays, the table and the host's side after a confirmed fall. -/
def State.fallPower (s : State) (a : Axes) : Power := { s.fallPlaced a with toFront := (s.fallTrace a).front }

/-- The blocks after a confirmed fall. -/
def State.fallBlocks (s : State) (a : Axes) : Blocks :=
  ({ s.toBlocks with mot := s.fell a (s.fallTrace a).status (s.fallTrace a).serial } : Blocks).withPower (s.fallPower a)

theorem exec_confirms {s : State} {a : Axes} (h : s.Sampled a) (row : s.mot.state = .normal ∨ ∃ d, s.mot.state = .settle d)
    (range : MotionInRange s.mot.config) (light : a.m2 < s.mot.config.tFf ^ 2) (full : s.mot.config.nFf ≤ s.mot.freeFall.count + 1)
    (no_drops : s.drops = []) (calm : s.toPower.calmBays) :
    exec (.accelSample a.x a.y a.z) s = .next (s.withBlocks ((s.fallBlocks a).settled s.toBlocks)) := by
  obtain ⟨run, ring⟩ := counted_run (a := a) row
  have runs : s.mot.freeFall.count ≠ 0 := by
    have := range.2.1.1
    omega
  have started : countedFall s a.m2 = fallRun s := if_pos light
  obtain ⟨g, placed, -⟩ := State.fallPlaced_eq no_drops a
  refine h.next ((judged_confirms row range light full _).trans (confirmFall_eq ?_ ring ?_))
  · rw [run, started]
    exact fallRun_runs runs
  · rw [placed]
    intro b
    cases b
    · exact calm .A
    · exact calm .B

/-! ## What follows the confirmation -/

/-- What holds after a confirmed fall, with a pass or without. -/
structure State.Fallen (s : State) (a : Axes) (t : State) : Prop where
  mot   : t.mot = s.fell a (s.fallTrace a).status (s.fallTrace a).serial
  hld   : t.hld = s.hld.become s.fallTable s.tmb.uptime
  trc   : t.trc = (s.fallTrace a).front.trc
  kept  : keepsOutside eventRanges (s.fallTrace a).front.mem t.mem
  up    : t.summary &&& 0x10 ≠ 0
  feed  : t.feed.kind = s.feed.kind
  bays  : t.bayA = s.bayA ∧ t.bayB = s.bayB
  pins  : t.pins = derivePins t.toBlocks

section Follows

variable {s : State} {a : Axes} (ready : Ready s) (no_drops : s.drops = []) (few : s.mot.ring.length ≤ 256)
  (room : s.trc.state = .filling → s.trc.written < 1016)

include ready no_drops few room

/-- The table's pairs or reserves change: a HOLD pass follows (R57, R63). -/
theorem State.fall_passes (changed : tableShape s.fallTable ≠ tableShape s.hld.entries) {t : State}
    (is : t = s.withBlocks ((s.fallBlocks a).settled s.toBlocks)) : s.Fallen a t
    ∧ t.bud.causes = ⟨false, false, true, false, false⟩ ∧ t.bud.rProt = t.hld.rProt ∧ t.sfe = s.sfe ∧ t.timers = s.timers
    ∧ t.blc.liveDuty = s.blc.liveDuty ∧ PassEvent s t := by
  obtain ⟨g, placed, tells⟩ := State.fallPlaced_eq no_drops a
  have answers := s.fallTrace_answers a few
  have front : (s.fallPlaced a).toFront = g := by rw [placed]
  obtain ⟨⟨mem, summary, trc, traced⟩, -, -⟩ := traced_fields s a room
  have kin : s.toFront.Kin g := by
    refine Front.Kin.trans ?_ tells.kin
    rw [traced]
    exact ⟨rfl, rfl, rfl, rfl, rfl, rfl, rfl⟩
  have list : g.inFlight = s.inFlight := tells.list.trans (by rw [traced])
  rw [front] at answers
  obtain ⟨m, su, l, ms, v, tr, own⟩ := answers.shape
  obtain ⟨F, isF⟩ : ∃ F, F = (s.fallTrace a).front := ⟨_, rfl⟩
  rw [← isF] at own answers
  obtain ⟨q, isq⟩ : ∃ q : Power, q = s.fallPower a := ⟨_, rfl⟩
  have fields : q = { s.toPower with
      hld := s.hld.become s.fallTable s.tmb.uptime, due := ⟨false, false, true, false, false⟩
      fhu := if s.hld.waitEnds s.fallTable then { s.fhu with deferredEnd := none } else s.fhu, toFront := F } := by
    rw [isq, isF]
    unfold State.fallPower
    rw [placed, show tableChanged s.hld.entries s.fallTable = true from decide_eq_true changed, ready.2]
    rfl
  have inner : s.fallBlocks a = ({ s with mot := s.fell a (s.fallTrace a).status (s.fallTrace a).serial } : State).toBlocks.withPower q := by
    rw [isq]
    rfl
  have due : q.due = ⟨false, false, true, false, false⟩ := by rw [fields]
  have goes : ({ s with mot := s.fell a (s.fallTrace a).status (s.fallTrace a).serial } : State).Goes q t := by
    rw [is, inner]
    refine State.goes_of_passed (s := { s with mot := s.fell a (s.fallTrace a).status (s.fallTrace a).serial }) ready ?_ (by rw [fields])
      (Blocks.settled_passed (by show q.due.any = true; rw [due]; rfl) s.toBlocks)
    rw [fields]
    refine kin.trans ?_
    show g.Kin F
    rw [own]
    exact ⟨rfl, rfl, rfl, rfl, rfl, rfl, rfl⟩
  have hld : t.hld = s.hld.become s.fallTable s.tmb.uptime := goes.hld.trans (by rw [fields])
  refine ⟨⟨goes.mot, hld, ?_, ?_, ?_, ?_, ⟨goes.bayA.trans (by rw [fields]), goes.bayB.trans (by rw [fields])⟩, by rw [is]; rfl⟩,
    goes.causes.trans due, ?_, goes.sfe, goes.timers, goes.liveDuty_kept (by rw [due]), goes.passEvent ?_⟩
  · rw [← isF]
    exact goes.trc.trans (by rw [fields])
  · have kept := goes.pass.kept
    rw [fields] at kept
    rw [← isF]
    exact kept
  · have raised := goes.pass.raised
    rw [fields] at raised
    exact Front.Raises.up (f := F) raised answers.up
  · have kind := congrArg FeedRec.kind goes.pass.seeks.feed
    rw [fields] at kind
    exact kind
  · refine (congrArg BudgetRec.rProt goes.pass.bud).trans ?_
    show reserveSum q.hld.entries = reserveSum t.hld.entries
    rw [goes.hld]
  · rw [fields]
    show F.inFlight = s.inFlight
    rw [own]
    exact list

end Follows

end Sys2Proof.Machine
end

section
/-! PROOF. The sample that confirms a fall: the bytes, and the statement (R105, R106, R115, R117, R123, R126). -/

namespace Sys2Proof.Machine

open Sys2Proof.Safety

/-! ## The bytes of the trace -/

/-- The bytes of the trace that the sample may write. -/
def State.fallArea (s : State) : List Range :=
  if s.trc.state = .filling then [(0x2000, 0x2040), (0x2040 + 8 * s.trc.written, 0x2048 + 8 * s.trc.written)]
  else if s.mot.config.trace = true ∧ s.trc.state = .free then [(0x2000, 0x2840)] else []

theorem traced_idle {s : State} {a : Axes} (idle : s.trc.state ≠ .filling) : traced s a = s.toFront := traced_none (.inr idle)

theorem traced_busy {s : State} {a : Axes} (filling : s.trc.state = .filling) (room : s.trc.written < 1016) : (traced s a).trc.state ≠ .free := by
  unfold traced
  cases (joined s a).2 with
  | none =>
    show s.trc.state ≠ .free
    rw [filling]
    decide
  | some e =>
    obtain ⟨mem, own, -⟩ := Front.appendTrace_filling (f := s.toFront) filling room e
    dsimp only
    rw [own]
    dsimp only
    split
    · show s.trc.state ≠ .free
      rw [filling]
      decide
    · show TraceState.ready ≠ .free
      decide

theorem settleArea_inside {s : State} {a : Axes} (room : s.trc.state = .filling → s.trc.written < 1016) :
    ∀ r ∈ settleArea s.mot.config.trace (traced s a).trc.state, r ∈ s.fallArea := by
  unfold State.fallArea settleArea
  by_cases filling : s.trc.state = .filling
  · rw [if_pos filling, if_neg fun free => traced_busy filling (room filling) free.2]
    split <;> simp
  · rw [if_neg filling, traced_idle filling]
    show ∀ r ∈ (if s.mot.config.trace = true ∧ s.trc.state = .free then [(0x2000, 0x2840)]
      else if s.mot.config.trace = true ∧ s.trc.state = .filling then [(0x2000, 0x2040)] else []), _
    split
    · exact fun _ mem => mem
    · rw [if_neg fun both => filling both.2]
      simp

theorem traced_inside {s : State} {a : Axes} (room : s.trc.state = .filling → s.trc.written < 1016) :
    keepsOutside s.fallArea s.mem (traced s a).mem := by
  refine keepsOutside_mono (traced_fields s a room).2.2 fun r mem => ?_
  unfold State.fallArea
  split at mem
  · rename_i filling
    rwa [if_pos filling]
  · cases mem

theorem State.fall_kept {s : State} {a : Axes} (no_drops : s.drops = []) (few : s.mot.ring.length ≤ 256)
    (room : s.trc.state = .filling → s.trc.written < 1016) :
    keepsOutside (s.fallArea ++ pageRange .mirror :: recordRanges) s.mem (s.fallTrace a).front.mem := by
  obtain ⟨g, placed, tells⟩ := State.fallPlaced_eq no_drops a
  have answers := (s.fallTrace_answers a few).kept
  rw [show (s.fallPlaced a).toFront = g by rw [placed], tells.trc] at answers
  refine keepsOutside_trans (keepsOutside_mono (traced_inside room) fun _ mem => List.mem_append_left _ mem)
    (keepsOutside_trans (keepsOutside_mono tells.kept fun _ mem => List.mem_append_right _ mem) (keepsOutside_mono answers fun r mem => ?_))
  rcases List.mem_append.mp mem with area | record
  · exact List.mem_append_left _ (settleArea_inside room r area)
  · exact List.mem_append_right _ (List.mem_cons_of_mem _ record)

/-! ## Without a pass -/

/-- The table's pairs and reserves stay: no pass follows, the motion page alone (R57, R120). -/
theorem State.fall_stays {s : State} {a : Axes} (ready : Ready s) (charger : ChargerSettled s.toPower)
    (row : s.mot.state = .normal ∨ ∃ d, s.mot.state = .settle d) (few : s.mot.ring.length ≤ 256)
    (room : s.trc.state = .filling → s.trc.written < 1016) (same : tableShape s.fallTable = tableShape s.hld.entries) {t : State}
    (is : t = s.withBlocks ((s.fallBlocks a).settled s.toBlocks)) : s.Fallen a t
    ∧ t = { s with
      hld := t.hld, mot := t.mot, trc := t.trc, mem := t.mem, summary := t.summary
      log := { t.log with effRead := s.log.effRead }, monitors := t.monitors
      gens := { s.gens with
        mirror := if s.mot.config.protect then s.gens.mirror + 2 else s.gens.mirror, motion := s.gens.motion + 2, monitor := t.gens.monitor }
      pins := derivePins t.toBlocks }
    ∧ keepsOutside [pageRange .motion] (s.fallTrace a).front.mem t.mem := by
  have placed := State.fallPlaced_same same a
  have answers := s.fallTrace_answers a few
  obtain ⟨F, isF⟩ : ∃ F, F = (s.fallTrace a).front := ⟨_, rfl⟩
  obtain ⟨m, isM⟩ : ∃ m, m = s.fell a (s.fallTrace a).status (s.fallTrace a).serial := ⟨_, rfl⟩
  have blocks : s.fallBlocks a = ({ s with hld := { s.hld with entries := s.fallTable } } : State).moved m F s.drops := by
    unfold State.fallBlocks State.fallPower
    rw [placed, isM, isF]
    rfl
  have code : motionCode s.mot.state ≠ motionCode m.state := by
    rw [isM]
    show motionCode s.mot.state ≠ 1
    obtain normal | ⟨d, settle⟩ := row
    · rw [normal]; decide
    · rw [settle]; show (3 : Byte) ≠ 1; decide
  have settled : (s.fallBlocks a).settled s.toBlocks
      = ({ s with hld := { s.hld with entries := s.fallTable } } : State).moved m (F.publish .motion (motionPage m)) s.drops := by
    obtain ⟨x, isX⟩ : ∃ x, x = ({ s with hld := { s.hld with entries := s.fallTable } } : State).moved m F s.drops := ⟨_, rfl⟩
    have none_due : x.due = noCauses := by rw [isX]; exact ready.2
    have assigned : ChargerSettled x.toPower := by rw [isX]; exact charger
    have energy : energyChanged s.toBlocks x = false := by rw [isX]; exact energyChanged_of_same rfl rfl rfl rfl fun _ => rfl
    have mot : x.mot = m := by rw [isX]; rfl
    rw [blocks, ← isX, Blocks.settled_motion none_due assigned energy, if_neg (by rw [mot]; exact code), isX]
    rfl
  rw [settled] at is
  have page := (F.publish_frame .motion (motionPage m)).1
  obtain ⟨mem, summary, trc, traced⟩ := (traced_fields s a room).1
  obtain ⟨m', su, l, ms, v, tr, own⟩ := answers.shape
  rw [placed, traced, ← isF] at own
  rw [← isF] at answers
  have front : t.toFront = F.publish .motion (motionPage m) := by rw [is]; rfl
  have trc : t.trc = F.trc := (congrArg Front.trc front :)
  have mem : t.mem = (F.publish .motion (motionPage m)).mem := congrArg Front.mem front
  have up : t.summary = F.summary := (congrArg Front.summary front :)
  have hld : t.hld = { s.hld with entries := s.fallTable } := by rw [is]; rfl
  have mot : t.mot = m := by rw [is]; rfl
  have feed : t.feed.kind = s.feed.kind := by rw [is]; rfl
  have bayA : t.bayA = s.bayA := by rw [is]; rfl
  have bayB : t.bayB = s.bayB := by rw [is]; rfl
  have pins : t.pins = derivePins t.toBlocks := by rw [is]; rfl
  rw [← isF]
  refine ⟨⟨mot.trans isM, hld.trans (HoldTable.become_shape same s.tmb.uptime).1.symm, ?_, ?_, ?_, feed, ⟨bayA, bayB⟩, pins⟩, ?_, ?_⟩
  · rw [← isF]
    exact trc
  · rw [← isF, mem]
    exact keepsOutside_mono page (by simp [eventRanges])
  · rw [up]
    exact answers.up
  · rw [is, own]
    cases s.mot.config.protect <;> rfl
  · rw [mem]
    exact page

/-! ## The trace, in the statement's terms -/

section Settled

variable {s : State} {a : Axes} (no_drops : s.drops = [])

include no_drops

theorem State.fallSent_traced : (s.fallSent a).trc = (traced s a).trc ∧ (s.fallSent a).tmb = s.tmb := by
  obtain ⟨g, placed, tells⟩ := State.fallPlaced_eq no_drops a
  have front : (s.fallPlaced a).toFront = g := by rw [placed]
  refine ⟨(s.fallSent_trc a).trans (by rw [front]; exact tells.trc), (s.fallSent_notes a).kin.tmb.trans ?_⟩
  show (s.fallPlaced a).toFront.tmb = s.tmb
  rw [front]
  exact tells.kin.tmb.trans (traced_tmb s a)

theorem State.fallTrace_off (off : s.mot.config.trace = false) :
    (s.fallTrace a).status = .off ∧ (s.fallTrace a).serial = none ∧ (s.fallTrace a).front.trc = (traced s a).trc := by
  have form : s.fallTrace a = ⟨s.fallSent a, .off, none⟩ := by
    unfold State.fallTrace Front.settleTrace
    rw [off]
    rfl
  rw [form]
  exact ⟨rfl, rfl, (State.fallSent_traced no_drops).1⟩

theorem State.fallTrace_busy (on : s.mot.config.trace = true) (ready : (traced s a).trc.state = .ready) :
    (s.fallTrace a).status = .traceBusy ∧ (s.fallTrace a).serial = none ∧ (s.fallTrace a).front.trc = (traced s a).trc := by
  have form : s.fallTrace a = ⟨s.fallSent a, .traceBusy, none⟩ := by
    unfold State.fallTrace Front.settleTrace
    rw [on, show ((s.fallPlaced a).toFront.raise .fall).sendEvent (plainEvent .fall) = s.fallSent a from rfl, (State.fallSent_traced no_drops).1, ready]
    rfl
  rw [form]
  exact ⟨rfl, rfl, (State.fallSent_traced no_drops).1⟩

theorem State.fallTrace_shared (on : s.mot.config.trace = true) (filling : (traced s a).trc.state = .filling) :
    (s.fallTrace a).status = .shared ∧ (s.fallTrace a).serial = some (traced s a).trc.serial
    ∧ (s.fallTrace a).front.trc = { (traced s a).trc with
      sharedFalls := if (traced s a).trc.sharedFalls < 255 then (traced s a).trc.sharedFalls + 1 else (traced s a).trc.sharedFalls }
    ∧ readBytes (s.fallTrace a).front.mem 0x2000 64 = traceHeader (s.fallTrace a).front.trc := by
  have trc := (State.fallSent_traced (a := a) no_drops).1
  have form : s.fallTrace a = ⟨(s.fallSent a).shareCapture, .shared, some (s.fallSent a).trc.serial⟩ := by
    unfold State.fallTrace Front.settleTrace
    rw [on, show ((s.fallPlaced a).toFront.raise .fall).sendEvent (plainEvent .fall) = s.fallSent a from rfl, trc, filling]
    rfl
  rw [form]
  refine ⟨rfl, by rw [trc], ?_, (s.fallSent a).putTrace_header _⟩
  unfold Front.shareCapture
  rw [trc]
  rfl

theorem State.fallTrace_captured (few : s.mot.ring.length ≤ 256) (on : s.mot.config.trace = true) (free : s.trc.state = .free) :
    (s.fallTrace a).status = .captured ∧ (s.fallTrace a).serial = some (serialSucc s.trc.serial)
    ∧ (s.fallTrace a).front.trc = ⟨.filling, serialSucc s.trc.serial, 256, captureBase (s.mot.index + 1), s.mot.freeFall.start, s.tmb.uptime, 0,
      .none, 0xFFFFFFFF⟩
    ∧ readBytes (s.fallTrace a).front.mem 0x2000 64 = traceHeader (s.fallTrace a).front.trc
    ∧ readBytes (s.fallTrace a).front.mem 0x2040 2048 = (ringEntries (joined s a).1.ring).flatMap traceEntryBytes := by
  obtain ⟨trc, tmb⟩ := State.fallSent_traced (a := a) no_drops
  rw [traced_idle (by rw [free]; decide)] at trc
  have form : s.fallTrace a
      = ⟨(s.fallSent a).startCapture (joined s a).1.ring (s.mot.index + 1) s.mot.freeFall.start, .captured, some (serialSucc s.trc.serial)⟩ := by
    unfold State.fallTrace Front.settleTrace
    rw [on, show ((s.fallPlaced a).toFront.raise .fall).sendEvent (plainEvent .fall) = s.fallSent a from rfl, trc, free]
    rfl
  obtain ⟨⟨mem, own⟩, -, header, entries⟩ := (s.fallSent a).startCapture_shows (joined_ring_few s a few) (s.mot.index + 1) s.mot.freeFall.start
  rw [form]
  refine ⟨rfl, rfl, ?_, header, entries⟩
  dsimp only
  rw [own, trc, tmb]

end Settled

end Sys2Proof.Machine
end

section
/-! PROOF. The sample that confirms a fall (R105, R106, R117). -/

namespace Sys2Proof.Machine

open Sys2Proof.Safety

theorem State.fallTable_on {s : State} (protect : s.mot.config.protect = true) :
    s.fallTable = motionTable s.mot.config.latchReserve s.mot.config.storageReserve s.tmb.uptime s.hld.entries := by
  unfold State.fallTable
  rw [protect]
  rfl

/-- With protect on, on an empty table or one that all three holds stand in, every target stands. -/
theorem State.fallTable_up {s : State} (protect : s.mot.config.protect = true)
    (start : s.hld.entries = List.replicate 16 none ∨ ∀ g, positionOf .motion g s.hld.entries ≠ none) (g : Target) :
    ({ s.hld with entries := s.fallTable } : HoldTable).targets g = true := by
  rw [targets_iff]
  show ∃ e, some e ∈ s.fallTable ∧ e.target = g
  rw [State.fallTable_on protect]
  obtain empty | standing := start
  · rw [empty, motionTable_empty]
    cases g
    · exact ⟨_, .head _, rfl⟩
    · exact ⟨_, .tail _ (.head _), rfl⟩
    · exact ⟨_, .tail _ (.tail _ (.head _)), rfl⟩
  · obtain ⟨n, position⟩ := Option.ne_none_iff_exists'.mp (standing g)
    obtain ⟨f, there, pair⟩ := positionOf_some position
    exact motionTable_targets _ _ _ ⟨f, List.mem_of_getElem? there, congrArg Prod.snd pair⟩

namespace State.Fallen

variable {s t : State} {a : Axes} (h : s.Fallen a t)

include h

theorem targets (g : Target) : t.hld.targets g = ({ s.hld with entries := s.fallTable } : HoldTable).targets g := by
  unfold HoldTable.targets
  rw [h.hld, HoldTable.become_entries]

theorem lines (up : ∀ g, ({ s.hld with entries := s.fallTable } : HoldTable).targets g = true) :
    t.pins.quiesce = true ∧ t.pins.latchLockA = true ∧ t.pins.latchLockB = true := by
  rw [h.pins]
  refine ⟨(h.targets .storage).trans (up .storage), ?_, ?_⟩
  · show ((t.bay .A).state.lockDemand || t.hld.targets .latchA) = true
    rw [h.targets, up, Bool.or_true]
  · show ((t.bay .B).state.lockDemand || t.hld.targets .latchB) = true
    rw [h.targets, up, Bool.or_true]

theorem header : readBytes t.mem 0x2000 64 = readBytes (s.fallTrace a).front.mem 0x2000 64 :=
  readBytes_of_keepsOutside h.kept _ _ (by decide)

theorem entries : readBytes t.mem 0x2040 2048 = readBytes (s.fallTrace a).front.mem 0x2040 2048 :=
  readBytes_of_keepsOutside h.kept _ _ (by decide)

theorem answer {status : TraceStatus} {serial : Option Word} (own : (s.fallTrace a).status = status) (number : (s.fallTrace a).serial = serial) :
    t.mot = s.fell a status serial := by
  rw [h.mot, own, number]

end State.Fallen

/-- Settles O29. -/
theorem fallConfirmationPlacesTheHolds : Obligations.FallConfirmationPlacesTheHolds := by
  unfold Obligations.FallConfirmationPlacesTheHolds
  intro x y z s ready charger row valid hx hy hz light range full few room no_drops calm a c now idx f place table seen rises falling area
  have h : s.Sampled a := ⟨ready, charger, valid, hx, hy, hz, room⟩
  obtain ⟨t, is⟩ : ∃ t, t = s.withBlocks ((s.fallBlocks a).settled s.toBlocks) := ⟨_, rfl⟩
  have small : a.m2 < s.mot.config.tFf ^ 2 := by
    rw [show a.m2 = _ from Axes.m2_eq x y z]
    exact light
  have next : exec (.accelSample a.x a.y a.z) s = .next t := by
    rw [is]
    exact exec_confirms h row range small full no_drops (baysCalm_iff calm)
  have fallen : s.Fallen a t := by
    by_cases same : tableShape s.fallTable = tableShape s.hld.entries
    · exact (State.fall_stays ready charger row few room same is).1
    · exact (State.fall_passes ready no_drops few room same is).1
  have written := State.fall_kept (a := a) no_drops few room
  have becomes := fallen.hld.trans (HoldTable.become_rises (fun up => s.fallTable_targets up) s.tmb.uptime)
  refine ⟨t, next, becomes, fun protect empty => ?_, fun protect distinct standing => ?_, fun protect start => ?_, fallen.up, fallen.feed,
    fun off => ?_, fun on free => ?_, fun on filling => ?_, fun on ready_ => ?_, fun changed => ?_, fun same => ?_⟩
  · have is_table : table = motionTable c.latchReserve c.storageReserve now s.hld.entries := State.fallTable_on protect
    have literal := is_table.trans (by rw [empty, motionTable_empty])
    refine ⟨literal, ?_⟩
    show reserveSum t.hld.entries = _
    rw [fallen.hld, HoldTable.become_entries]
    show reserveSum table = _
    rw [literal]
    show c.latchReserve + (c.latchReserve + (c.storageReserve + 0)) = _
    omega
  · exact (State.fallTable_on protect).trans (motionTable_renews distinct.2 standing _ _ _)
  · exact fallen.lines (State.fallTable_up protect start)
  · obtain ⟨status, serial, trc⟩ := State.fallTrace_off (a := a) no_drops off
    exact ⟨fallen.answer status serial, fallen.trc.trans trc⟩
  · obtain ⟨status, serial, trc, header, entries⟩ := State.fallTrace_captured (a := a) no_drops few on free
    have own := fallen.trc.trans trc
    rw [captureBase_eq] at own
    refine ⟨fallen.answer status serial, own, ?_, fallen.entries.trans entries⟩
    rw [fallen.header, header, fallen.trc]
  · obtain ⟨status, serial, trc, header⟩ := State.fallTrace_shared no_drops on filling
    refine ⟨fallen.answer status serial, fallen.trc.trans trc, ?_⟩
    rw [fallen.header, header, fallen.trc]
  · obtain ⟨status, serial, trc⟩ := State.fallTrace_busy no_drops on ready_
    exact ⟨fallen.answer status serial, fallen.trc.trans trc⟩
  · obtain ⟨-, causes, reserve, sfe, timers, duty, event⟩ := State.fall_passes ready no_drops few room changed is
    refine ⟨causes, reserve, fallen.bays.1, fallen.bays.2, sfe, timers, duty, event, ?_⟩
    refine keepsOutside_trans (keepsOutside_mono written fun r mem => ?_) (keepsOutside_mono fallen.kept fun r mem => List.mem_append_right _ ?_)
    · rcases List.mem_append.mp mem with own | rest
      · exact List.mem_append_left _ own
      · refine List.mem_append_right _ ?_
        rcases List.mem_cons.mp rest with rfl | record
        · simp [passRanges]
        · exact recordRanges_pass record
    · rcases List.mem_cons.mp mem with rfl | mem
      · simp [passRanges]
      · rcases List.mem_cons.mp mem with rfl | mem
        · simp [passRanges]
        · rcases List.mem_cons.mp mem with rfl | mem
          · simp [passRanges]
          · exact recordRanges_pass mem
  · obtain ⟨-, shape, page⟩ := State.fall_stays ready charger row few room same is
    refine ⟨shape, keepsOutside_trans (keepsOutside_mono written fun r mem => ?_) (keepsOutside_mono page fun r mem => ?_)⟩
    · rcases List.mem_append.mp mem with own | rest
      · exact List.mem_append_left _ own
      · refine List.mem_append_right _ ?_
        rcases List.mem_cons.mp rest with rfl | record
        · exact List.mem_cons_self
        · exact List.mem_cons_of_mem _ (List.mem_cons_of_mem _ record)
    · rw [List.mem_singleton.mp mem]
      exact List.mem_append_right _ (List.mem_cons_of_mem _ List.mem_cons_self)

end Sys2Proof.Machine
end

section
/-! PROOF. Requests that bring a budget pass; SET_LIGHT_MODE and SET_PANEL (R87 to R90, R164). -/

namespace Sys2Proof.Machine

open Sys2Proof.Safety

/-! ## A request that completes and brings a pass -/

/-- What a request leaves that completes at its take and whose other changes `x` bring a pass; `f` the host's side before the pass. -/
structure State.Served (s : State) (p : Posting) (kind : Byte) (e : Completion) (x : Blocks) (f : Front) (t : State) : Prop where
  pass  : (x.withFront f).Passed t.toBlocks
  front : f = { x.toFront with mem := f.mem, inFlight := s.inFlight, summary := doneSummary x.summary p }
  slot  : keepsOutside [slotRange p.slot] x.mem f.mem
  state : ∃ z, t = s.withBlocks z
  list  : t.inFlight = s.inFlight
  done  : p.notify = true → t.summary &&& 0x01 ≠ 0
  result : answered t.mem p kind e.code e.clamped e.data

theorem doneSummary_up {p : Posting} (notify : p.notify = true) (w : Word) : doneSummary w p &&& 0x01 ≠ 0 := by
  unfold doneSummary
  rw [if_pos notify]
  exact reqDone_up w

theorem exec_serves {c : Instr} {p : Posting} {r : Request} {s : State} (h : Taken s p) (row : requestOf c = some (p, r)) (sendable : c.wellFormed = true)
    {x : Blocks} {e : Completion} (performs : (s.takes p r).perform p.slot r = x.finish p.slot e) (list : x.inFlight = (s.takes p r).inFlight)
    (due : x.due.any = true) (plain : e.transferFailed = false) : ∃ f t, exec c s = .next t ∧ s.Served p r.kind e x f t := by
  obtain ⟨shape, kept, result⟩ := Front.takes_complete h.2.2 r (g := x.toFront) list e
  obtain ⟨f, is⟩ : ∃ f, f = x.toFront.complete p.slot e := ⟨_, rfl⟩
  rw [← is] at shape kept result
  have next : exec c s = .next (s.withBlocks ((x.withFront f).settled (s.toBlocks.withFront (s.toFront.post p r)))) := by
    rw [exec_taken h row sendable, Blocks.runEvent_eq, show (s.toBlocks.withFront (s.toFront.takes p r)).perform p.slot r = x.finish p.slot e from performs, is]
    rfl
  have pass : (x.withFront f).Passed ((x.withFront f).settled (s.toBlocks.withFront (s.toFront.post p r))) := Blocks.settled_passed (x := x.withFront f) due _
  refine ⟨f, _, next, pass, shape, kept, ⟨_, rfl⟩, ?_, fun notify => ?_, ?_⟩
  · refine pass.inFlight.trans ?_
    show f.inFlight = s.inFlight
    rw [shape]
  · refine Front.Raises.up (f := f) pass.raised ?_
    rw [shape]
    exact doneSummary_up notify _
  · rw [plain, resultFlags_clamped] at result
    exact answeredFlags_kept result pass.kept
      (by simp [besideSlots, eventRanges, recordRanges, pageRange, PageId.offset, indexRange, missedRange, logRange])

theorem eventRanges_pass : ∀ r ∈ eventRanges, r ∈ passRanges := by
  intro r mem
  unfold eventRanges at mem
  simp only [List.mem_cons] at mem
  obtain rfl | rfl | rfl | record := mem
  · simp [passRanges]
  · simp [passRanges]
  · simp [passRanges]
  · exact recordRanges_pass record

/-! ## The light settings -/

/-- The blocks once light settings have been adopted; a LIGHT pass is due (R63, R89, R90). -/
def State.relit (s : State) (p : Posting) (r : Request) (l : LightRec) : Blocks := ((s.takes p r).withLight l).dueLight

/-- What the adoption of light settings leaves. -/
structure State.Relit (s : State) (p : Posting) (kind : Byte) (e : Completion) (l : LightRec) (t : State) : Prop where
  blc    : t.blc = { l with pendingDuty := t.bud.dCmd, ceiling := t.bud.ceiling }
  causes : t.bud.causes = ⟨false, false, false, true, false⟩
  target : t.bud.dTarget = t.blc.dTarget
  count  : t.bud.passCount = s.bud.passCount + 1
  result : answered t.mem p kind e.code e.clamped e.data
  slot   : t.lastSlot = p.slot
  list   : t.inFlight = s.inFlight
  done   : p.notify = true → t.summary &&& 0x01 ≠ 0
  rest   : t.bayA = s.bayA ∧ t.bayB = s.bayB ∧ t.hld = s.hld ∧ t.mot = s.mot ∧ t.trc = s.trc ∧ t.sfe = s.sfe ∧ t.tmb = s.tmb
    ∧ t.timers = s.timers ∧ t.feed.kind = s.feed.kind
  kept   : keepsOutside (slotRange p.slot :: passRanges) s.mem t.mem

theorem exec_relights {c : Instr} {p : Posting} {r : Request} {s : State} (h : Taken s p) (row : requestOf c = some (p, r)) (sendable : c.wellFormed = true)
    {l : LightRec} {e : Completion} (performs : (s.takes p r).perform p.slot r = (s.relit p r l).finish p.slot e) (plain : e.transferFailed = false) :
    ∃ t, exec c s = .next t ∧ s.Relit p r.kind e l t := by
  obtain ⟨taken, kept, -⟩ := s.toFront.takes_mem p r
  have due : (s.relit p r l).due = ⟨false, false, false, true, false⟩ := by
    show ({ s.due with light := true } : PassCauses) = _
    rw [h.1.2]
    rfl
  obtain ⟨f, t, next, served⟩ := exec_serves h row sendable performs rfl (by rw [due]; rfl) plain
  have pass := served.pass
  have shape := served.front
  have bud := pass.bud
  have blc := pass.blc
  have tmb : f.tmb = s.tmb := by rw [shape]; show (s.toFront.takes p r).tmb = _; rw [taken]
  have trc : f.trc = s.trc := by rw [shape]; show (s.toFront.takes p r).trc = _; rw [taken]
  have last : f.lastSlot = p.slot := by rw [shape]; show (s.toFront.takes p r).lastSlot = _; rw [taken]
  refine ⟨t, next, ⟨?_, ?_, ?_, ?_, served.result, ?_, served.list, served.done, ⟨pass.bay .A, pass.bay .B, pass.hld, pass.mot, pass.trc.trans trc, pass.sfe, ?_,
    pass.timers, ?_⟩, ?_⟩⟩
  · rw [blc, bud, show ((s.relit p r l).withFront f).due = (s.relit p r l).due from rfl, due]
    rfl
  · exact pass.causes.trans due
  · rw [blc, bud]
    rfl
  · rw [bud]
    rfl
  · rw [pass.shape]
    exact last
  · rw [pass.shape]
    exact tmb
  · exact (congrArg FeedRec.kind pass.seeks.feed :)
  · refine keepsOutside_trans (keepsOutside_mono (keepsOutside_trans kept served.slot) (by simp)) (keepsOutside_mono pass.kept fun r mem => ?_)
    exact List.mem_cons_of_mem _ (eventRanges_pass r mem)

/-! ## The fields -/

theorem modeClamped (mode : Byte) : clampNat 0 1 mode.toNat = if mode.toNat = 0 then 0 else 1 := by
  unfold clampNat
  split <;> omega

theorem requestedNits_if (mode : LightMode) (nc : Nat) (bias : Int) (level : Nat) :
    requestedNits mode nc bias level = if mode = .auto then ((nc : Int) * (100 + bias)).toNat / 100 else level := by
  cases mode <;> rfl

/-- The light record with a mode of its own, the target formed anew (R89). -/
def LightRec.inMode (l : LightRec) (auto : Bool) (v : Int) : LightRec :=
  { l with
    mode := if auto then .auto else .manual, bias := if auto then v else l.bias, manualLevel := if auto then l.manualLevel else v.toNat }.retarget

theorem clampNat_zero (hi n : Nat) : clampNat 0 hi n = min hi n := Nat.zero_max _

/-- Settles O48. -/
theorem lightSettingsAreAdoptedAtTheirPass : Obligations.LightSettingsAreAdoptedAtTheirPass := by
  refine ⟨fun p mode value s h => ?_, fun p nMin nMax pb df su sd ku kd s h => ?_⟩
  · intro auto v raw nb
    have performs : (s.takes p (.setLightMode mode value)).perform p.slot (.setLightMode mode value)
        = (s.relit p (.setLightMode mode value) (s.blc.inMode auto v)).finish p.slot
          (.adopted (decide (1 < mode.toNat) || decide (v ≠ value.toInt)) ([if auto then 0 else 1, 0] ++ leSigned 2 v)) := by
      show Blocks.doSetLightMode _ _ _ _ = _
      unfold Blocks.doSetLightMode
      dsimp only
      by_cases is : mode.toNat = 0
      · have one : auto = true := decide_eq_true is
        have value_ : v = clampInt (-50) 50 value.toInt := if_pos one
        rw [modeClamped, if_pos is, one, value_, is]
        rfl
      · have one : auto = false := decide_eq_false is
        have value_ : v = clampInt 0 3000 value.toInt := if_neg (by rw [one]; exact Bool.false_ne_true)
        have low : anyClamped [(1, mode.toNat)] = decide (1 < mode.toNat) := by
          rw [anyClamped_cons, anyClamped_nil, Bool.or_false]
          exact decide_eq_decide.mpr (by omega)
        rw [modeClamped, if_neg is, one, value_, low]
        rfl
    obtain ⟨t, next, relit⟩ := exec_relights (c := .setLightMode p mode value) h rfl rfl performs rfl
    refine ⟨t, next, ?_, relit.causes, relit.target, relit.count, relit.result, relit.slot, relit.list, relit.done, ?_⟩
    · rw [relit.blc]
      have target : raw = requestedNits (if auto then .auto else .manual) (evalCurve s.blc.curve s.blc.filtered) (if auto then v else s.blc.bias)
          (if auto then s.blc.manualLevel else v.toNat) := by
        show (if auto then _ else _) = _
        cases auto <;> rfl
      show { s.blc.inMode auto v with pendingDuty := t.bud.dCmd, ceiling := t.bud.ceiling } = _
      have bounded : nb = clampNat s.blc.panel.nMin s.blc.panel.nMax (requestedNits (if auto then .auto else .manual)
          (evalCurve s.blc.curve s.blc.filtered) (if auto then v else s.blc.bias) (if auto then s.blc.manualLevel else v.toNat)) :=
        congrArg (fun r => max s.blc.panel.nMin (min s.blc.panel.nMax r)) target
      rw [bounded]
      rfl
    · obtain ⟨bayA, bayB, hld, mot, trc, sfe, tmb, timers, kind⟩ := relit.rest
      exact ⟨bayA, bayB, hld, mot, trc, sfe, tmb, timers, kind, relit.kept⟩
  · intro hi lo inside raw nb
    obtain ⟨n, is⟩ : ∃ n : PanelConfig, n = ⟨lo, hi, max 1000 (min 30000 pb.toNat), min 256 df.toNat, max 1 (min 128 su.toNat), max 1 (min 128 sd.toNat),
        max 1 (min 256 ku.toNat), max 1 (min 256 kd.toNat)⟩ := ⟨_, rfl⟩
    have performs : (s.takes p (.setPanel nMin nMax pb df su sd ku kd)).perform p.slot (.setPanel nMin nMax pb df su sd ku kd)
        = (s.relit p (.setPanel nMin nMax pb df su sd ku kd) { s.blc with panel := n }.retarget).finish p.slot
          (.adopted (!inside) (leBytes 2 lo ++ leBytes 2 hi)) := by
      show Blocks.doSetPanel _ _ _ _ _ _ _ _ _ _ = _
      unfold Blocks.doSetPanel
      dsimp only
      have low : min (clampNat 0 500 nMin.toNat) (clampNat 100 3000 nMax.toNat) = lo := by
        rw [clampNat_zero]
        rfl
      have flags : anyClamped [(lo, nMin.toNat), (clampNat 100 3000 nMax.toNat, nMax.toNat), (clampNat 1000 30000 pb.toNat, pb.toNat),
          (clampNat 0 256 df.toNat, df.toNat), (clampNat 1 128 su.toNat, su.toNat), (clampNat 1 128 sd.toNat, sd.toNat),
          (clampNat 1 256 ku.toNat, ku.toNat), (clampNat 1 256 kd.toNat, kd.toNat)] = !inside := by
        simp only [anyClamped_cons, anyClamped_nil, clamped_iff (show 100 ≤ 3000 by decide), clamped_iff (show 1000 ≤ 30000 by decide),
          clamped_iff (show 0 ≤ 256 by decide), clamped_iff (show 1 ≤ 128 by decide), clamped_iff (show 1 ≤ 256 by decide), inside,
          Bool.not_and, Bool.or_assoc, Bool.or_false]
        have implied : lo = nMin.toNat → inRange 0 500 nMin.toNat = true := fun same => by
          have few : lo ≤ 500 := Nat.le_trans (Nat.min_le_left _ _) (Nat.min_le_left _ _)
          rw [same] at few
          simp [inRange, few]
        by_cases same : lo = nMin.toNat
        · rw [implied same, decide_eq_true same, decide_eq_false (not_not.mpr same)]
          rfl
        · rw [decide_eq_false same, decide_eq_true same]
          simp
      rw [low, flags, is, ← clampNat_zero 256 df.toNat]
      rfl
    obtain ⟨t, next, relit⟩ := exec_relights (c := .setPanel p nMin nMax pb df su sd ku kd) h rfl rfl performs rfl
    have panel : t.blc.panel = n := by rw [relit.blc]; rfl
    refine ⟨t, next, panel.trans is, ?_, ?_, relit.causes, relit.target, relit.result, relit.slot, relit.list, relit.done, ?_⟩
    · rw [panel, relit.blc]
      have bounded : nb = clampNat lo hi (requestedNits s.blc.mode (evalCurve s.blc.curve s.blc.filtered) s.blc.bias s.blc.manualLevel) := by
        rw [requestedNits_if]
        rfl
      rw [bounded, is]
      rfl
    · rw [panel, is]
      unfold PanelInRange within
      dsimp only
      omega
    · obtain ⟨bayA, bayB, hld, mot, trc, sfe, tmb, timers, kind⟩ := relit.rest
      exact ⟨bayA, bayB, hld, mot, trc, sfe, tmb, timers, kind, relit.kept⟩

end Sys2Proof.Machine
end

section
/-! PROOF. Requests that change the hold table (R51, R53, R57, R58). -/

namespace Sys2Proof.Machine

open Sys2Proof.Safety

/-! ## A changed table, and one bay that answers to it -/

/-- The table has become `h` and a HOLD pass is due; bay `b` has answered. -/
def Power.retabled (p : Power) (h : HoldTable) (u : FhuState) (b : Bay) (r : BayRec) (k : Link) (f : Front) : Power :=
  ({ p with hld := h, due := { p.due with hold := true }, fhu := u } : Power).putBay b r k f

theorem Power.retabled_self (p : Power) (h : HoldTable) (u : FhuState) (b : Bay) (f : Front) :
    p.retabled h u b (p.bay b) (p.link b) f = { p with hld := h, due := { p.due with hold := true }, fhu := u, toFront := f } := by
  cases b <;> rfl

/-- What such a request leaves, `f` the host's side before its completion. -/
structure State.Retabled (s : State) (p : Posting) (kind : Byte) (e : Completion) (h : HoldTable) (b : Bay) (r : BayRec) (k : Link) (f : Front)
    (t : State) : Prop where
  hld    : t.hld = h
  bay    : t.bay b = r
  link   : t.link b = k
  other  : t.bay (otherBay b) = s.bay (otherBay b)
  result : answered t.mem p kind e.code e.clamped e.data
  done   : p.notify = true → t.summary &&& 0x01 ≠ 0
  logs   : f.LogGrows t.toFront
  passed : t.bud.causes = ⟨false, false, true, false, false⟩ ∧ t.bud.rProt = t.hld.rProt ∧ t.mot = s.mot ∧ t.trc = s.trc ∧ t.sfe = s.sfe
    ∧ t.blc.liveDuty = s.blc.liveDuty ∧ t.timers = s.timers ∧ PassEvent { s with lastSlot := p.slot } t
    ∧ keepsOutside (slotRange p.slot :: passRanges) s.mem t.mem

theorem slotRange_beside (i : Fin 32) : ∀ q ∈ [slotRange i], q.2 ≤ 0x1000 ∨ 0x2000 ≤ q.1 := by
  obtain ⟨-, below⟩ := slotAt_le i
  intro q mem
  rw [List.mem_singleton] at mem
  subst mem
  simp only [slotRange]
  omega

theorem exec_retables {c : Instr} {p : Posting} {r : Request} {s : State} (taken : Taken s p) (row : requestOf c = some (p, r))
    (sendable : c.wellFormed = true) {h : HoldTable} {u : FhuState} {b : Bay} {rec' : BayRec} {k : Link} {f : Front} {e : Completion}
    (performs : (s.takes p r).perform p.slot r
      = ((s.takes p r).withPower ((s.taken p r).toPower.retabled h u b rec' k f)).finish p.slot e)
    (tells : (s.taken p r).toFront.Tells f) (plain : e.transferFailed = false) :
    ∃ t, exec c s = .next t ∧ s.Retabled p r.kind e h b rec' k f t := by
  obtain ⟨takes, keptTake, -⟩ := s.toFront.takes_mem p r
  obtain ⟨q, is⟩ : ∃ q, q = (s.taken p r).toPower.retabled h u b rec' k f := ⟨_, rfl⟩
  rw [← is] at performs
  have front : q.toFront = f := by rw [is]; exact Power.putBay_toFront ..
  have list : q.inFlight = (s.takes p r).inFlight := by
    show q.toFront.inFlight = _
    rw [front]
    exact tells.list
  have due : q.due = ⟨false, false, true, false, false⟩ := by
    rw [is]
    unfold Power.retabled
    rw [Power.putBay_due]
    show ({ s.due with hold := true } : PassCauses) = _
    rw [taken.1.2]
    rfl
  obtain ⟨g, t, next, served⟩ := exec_serves taken row sendable performs list (by show q.due.any = true; rw [due]; rfl) plain
  have shape : g = { f with mem := g.mem, inFlight := s.inFlight, summary := doneSummary f.summary p } := by
    have shape := served.front
    rw [show ((s.takes p r).withPower q).toFront = f from front] at shape
    exact shape
  have slot : keepsOutside [slotRange p.slot] f.mem g.mem := by
    have slot := served.slot
    rw [show ((s.takes p r).withPower q).mem = f.mem from congrArg Front.mem front] at slot
    exact slot
  have kin : ({ s with lastSlot := p.slot } : State).toFront.Kin g := by
    refine Front.Kin.trans (g := f) (Front.Kin.trans (g := (s.taken p r).toFront) ?_ tells.kin) ?_
    · show ({ s.toFront with lastSlot := p.slot } : Front).Kin (s.toFront.takes p r)
      rw [takes]
      exact ⟨rfl, rfl, rfl, rfl, rfl, rfl, rfl⟩
    · rw [shape]
      exact ⟨rfl, rfl, rfl, rfl, rfl, rfl, rfl⟩
  obtain ⟨z, state⟩ := served.state
  have policy : q.bayPolicy = s.bayPolicy := by rw [is]; exact Power.putBay_bayPolicy ..
  have goes : ({ s with lastSlot := p.slot } : State).Goes { q with toFront := g } t := by
    have pass := served.pass
    rw [state] at pass ⊢
    exact State.goes_of_passed (s := { s with lastSlot := p.slot }) (q := { q with toFront := g }) (z := z) taken.1 kin policy pass
  have hld : t.hld = h := goes.hld.trans (by rw [is]; exact Power.putBay_hld ..)
  refine ⟨t, next, ⟨hld, ?_, ?_, ?_, served.result, served.done, ?_, ?_⟩⟩
  · refine (goes.bay b).trans ?_
    rw [is]
    cases b <;> rfl
  · refine (goes.link b).trans ?_
    rw [is]
    cases b <;> rfl
  · refine (goes.bay (otherBay b)).trans ?_
    rw [is]
    cases b <;> rfl
  · refine Front.LogGrows.trans (.of_beside (by rw [shape]) slot (slotRange_beside p.slot)) ?_
    exact goes.pass.logs
  · refine ⟨goes.causes.trans due, ?_, goes.mot, ?_, goes.sfe, goes.liveDuty_kept (by rw [due]), goes.timers, goes.passEvent ?_, ?_⟩
    · refine (congrArg BudgetRec.rProt goes.pass.bud).trans ?_
      show reserveSum q.hld.entries = reserveSum t.hld.entries
      rw [goes.hld]
    · refine goes.trc.trans ?_
      show g.trc = s.trc
      rw [shape]
      refine tells.trc.trans ?_
      show (s.toFront.takes p r).trc = s.trc
      rw [takes]
    · show g.inFlight = s.inFlight
      rw [shape]
    · have own : keepsOutside (slotRange p.slot :: passRanges) s.mem g.mem :=
        keepsOutside_trans (keepsOutside_mono keptTake (by simp)) (keepsOutside_trans (keepsOutside_mono tells.keptPass fun _ => List.mem_cons_of_mem _)
          (keepsOutside_mono slot (by simp)))
      exact keepsOutside_trans own (keepsOutside_mono goes.pass.kept fun q mem => List.mem_cons_of_mem _ (eventRanges_pass q mem))

/-! ## The table's own changes -/

/-- Where no wait ends only the table, its page and the trigger change. -/
theorem Power.putTable_quiet {p : Power} {es : List (Option HoldEntry)} (stays : p.hld.waitEnds es = false) :
    p.putTable es = p.putEntries (p.hld.become es p.tmb.uptime) := by
  unfold HoldTable.waitEnds at stays
  unfold Power.putTable HoldTable.become Power.putEntries
  dsimp only at stays ⊢
  cases up : p.hld.quiesce <;> cases next : ({ p.hld with entries := es } : HoldTable).quiesce <;> rw [up, next] at stays
  case false.true =>
    have low : p.hld.ackLine = false := by simpa using stays
    rw [low]
    rfl
  case true.false =>
    have idle : p.hld.wait.isSome = false := by simpa using stays
    rw [idle]
    rfl
  all_goals rfl

/-- A changed table, one bay that answers and the other that does not. -/
theorem Power.changeTable_reacts {p q r : Power} {es : List (Option HoldEntry)} {l : Loads} {b : Bay} (put : p.putTable es = q)
    (react : q.reactToDemand l b = r)
    (calm : (∀ x, (q.bay (otherBay b)).state ≠ .releaseWait x) ∧ ∀ u, (q.bay (otherBay b)).state ≠ .opened u)
    (same : r.bay (otherBay b) = q.bay (otherBay b)) : p.changeTable l es = r := by
  unfold Power.changeTable
  rw [put]
  cases b
  · rw [react]
    exact Power.reactToDemand_calm (by rw [show r.bay .B = q.bay .B from same]; exact calm.1) (by rw [show r.bay .B = q.bay .B from same]; exact calm.2) l
  · rw [Power.reactToDemand_calm (b := .A) calm.1 calm.2]
    exact react

section Reacts

variable {p : Power} {h : HoldTable} {u : FhuState} {b : Bay} {r : BayRec} {k : Link} {f : Front}

theorem Power.retabled_bay : (p.retabled h u b r k f).bay b = r := Power.putBay_bay ..

theorem Power.retabled_other : (p.retabled h u b r k f).bay (otherBay b) = p.bay (otherBay b) := by cases b <;> rfl

theorem Power.retabled_hld : (p.retabled h u b r k f).hld = h := Power.putBay_hld ..

theorem Power.retabled_tmb : (p.retabled h u b r k f).tmb = f.tmb := Power.putBay_tmb ..

theorem Power.retabled_setState (st : BayState) : (p.retabled h u b r k f).setState b st = p.retabled h u b { r with state := st } (k.under st) f :=
  Power.putBay_setState ..

/-- OPEN is undone by a hold (R58). -/
theorem Power.retabled_undone {d : Nat} (opened : r.state = .opened d) (demand : h.demand b = true) (l : Loads) :
    (p.retabled h u b r k f).reactToDemand l b = p.retabled h u b
      { r with state := .seated (f.tmb.uptime + 2000), identity := none, packState := none, failedPolls := 0 }
      { k with activity := .identRead 0 false f.tmb.uptime, pollAt := none } (f.makeRecord (.releaseUndoneByHold b)) := by
  unfold Power.reactToDemand
  rw [Power.retabled_bay, opened]
  dsimp only
  rw [Power.retabled_hld, demand, if_pos rfl]
  unfold Power.retabled
  rw [Power.putBay_enterSeated, Power.putBay_makeRecord]

/-- UNLATCHING goes back to HELD (R16, R58). -/
theorem Power.retabled_held {x : Release} {d : Nat} (waits : r.state = .releaseWait x) (sub : x.sub = .unlatching d) (demand : h.demand b = true)
    (young : f.tmb.uptime < x.limitAt) (l : Loads) : (p.retabled h u b r k f).reactToDemand l b
      = p.retabled h u b { r with state := .releaseWait { x with sub := .held } } (k.under (.releaseWait { x with sub := .held })) f := by
  unfold Power.reactToDemand
  rw [Power.retabled_bay, waits]
  dsimp only
  rw [sub]
  dsimp only
  rw [Power.retabled_hld, demand, if_pos rfl]
  unfold Power.enterHeld
  dsimp only
  rw [Power.retabled_tmb, if_neg (Nat.not_le.mpr young), Power.retabled_setState]

/-- TRANSFER and HELD stay under a hold (R58). -/
theorem Power.retabled_stays {x : Release} (waits : r.state = .releaseWait x) (sub : ∀ d, x.sub ≠ .unlatching d) (demand : h.demand b = true)
    (l : Loads) : (p.retabled h u b r k f).reactToDemand l b = p.retabled h u b r k f := by
  unfold Power.reactToDemand
  rw [Power.retabled_bay, waits]
  dsimp only
  cases own : x.sub with
  | held =>
    dsimp only
    rw [Power.retabled_hld, demand, if_pos rfl]
  | transfer c => rfl
  | unlatching d => exact absurd own (sub d)

/-- HELD with the last hold gone, on a bay that is not the feed and whose latch is closed: UNLATCHING (R16). -/
theorem Power.retabled_unlatches {x : Release} (waits : r.state = .releaseWait x) (sub : x.sub = .held) (free : h.demand b = false)
    (apart : p.feed.kind ≠ feedOf b) (closed : r.latchOpen = false) (l : Loads) : (p.retabled h u b r k f).reactToDemand l b
      = p.retabled h u b { r with state := .releaseWait { x with sub := .unlatching (f.tmb.uptime + 500) } }
        (k.under (.releaseWait { x with sub := .unlatching (f.tmb.uptime + 500) })) f := by
  unfold Power.reactToDemand
  rw [Power.retabled_bay, waits]
  dsimp only
  rw [sub]
  dsimp only
  rw [Power.retabled_hld, free, if_neg Bool.false_ne_true]
  unfold Power.moveOn Power.retabled
  rw [Power.putBay_feed, if_neg apart, Power.putBay_enterUnlatching_closed (closed := closed)]

end Reacts

end Sys2Proof.Machine
end

section
/-! PROOF. PLACE_HOLD and LIFT_HOLD (R51 to R53, R57, R58). -/

namespace Sys2Proof.Machine

open Sys2Proof.Safety

/-! ## An entry put into its position -/

theorem targets_set_alike {es : List (Option HoldEntry)} {n : Nat} {o : Option HoldEntry} (there : es[n]? = some o) (e : HoldEntry) {g : Target}
    (alike : o.any (fun x => decide (x.target = g)) = decide (e.target = g)) (h : HoldTable) :
    ({ h with entries := es.set n (some e) } : HoldTable).targets g = ({ h with entries := es } : HoldTable).targets g := by
  have seen (fs : List (Option HoldEntry)) : ({ h with entries := fs } : HoldTable).targets g
      = (fs.map fun o => o.any fun x => decide (x.target = g)).any id := by
    unfold HoldTable.targets
    rw [List.any_map]
    refine congrArg fs.any (funext fun o => ?_)
    cases o <;> rfl
  obtain ⟨inside, own⟩ := List.getElem?_eq_some_iff.mp there
  rw [seen, seen, List.map_set]
  have same : (es.map fun o => o.any fun x => decide (x.target = g)).set n ((some e).any fun x => decide (x.target = g))
      = es.map fun o => o.any fun x => decide (x.target = g) := by
    rw [show (some e).any (fun x => decide (x.target = g)) = o.any fun x => decide (x.target = g) from alike.symm, ← own,
      ← List.getElem_map (fun o : Option HoldEntry => o.any fun x => decide (x.target = g)) (h := by simpa using inside)]
    exact List.set_getElem_self _
  rw [same]

/-- The table changes and the quiesce line does not: only the mirror page and the trigger follow. -/
theorem Power.putTable_steady {p : Power} {es : List (Option HoldEntry)} (line : ({ p.hld with entries := es } : HoldTable).quiesce = p.hld.quiesce) :
    p.putTable es = { p with
      hld := { p.hld with entries := es }, due := { p.due with hold := p.due.hold || tableChanged p.hld.entries es }
      toFront := p.toFront.publish .mirror (mirrorPage { p.hld with entries := es }) } := by
  obtain ⟨become, stays⟩ := HoldTable.become_level line p.tmb.uptime
  rw [Power.putTable_quiet stays, become]
  rfl

/-- The table changes, the other bay does not ask, and bay `b` answers. -/
theorem Power.changeTable_answers {p : Power} {es : List (Option HoldEntry)} {h : HoldTable} {u : FhuState} {b : Bay} {r : BayRec} {k : Link}
    {f g : Front} {l : Loads} (put : p.putTable es = p.retabled h u b (p.bay b) (p.link b) f)
    (calm : (∀ x, (p.bay (otherBay b)).state ≠ .releaseWait x) ∧ ∀ u, (p.bay (otherBay b)).state ≠ .opened u)
    (react : (p.retabled h u b (p.bay b) (p.link b) f).reactToDemand l b = p.retabled h u b r k g) :
    p.changeTable l es = p.retabled h u b r k g :=
  Power.changeTable_reacts put react (by rw [Power.retabled_other]; exact calm) (Power.retabled_other.trans Power.retabled_other.symm)

/-- The table changes and no bay asks; `b` is any bay. -/
theorem Power.changeTable_rests {p : Power} {es : List (Option HoldEntry)} {h : HoldTable} {u : FhuState} {f : Front}
    (put : p.putTable es = { p with hld := h, due := { p.due with hold := true }, fhu := u, toFront := f }) (calm : p.calmBays) (b : Bay) (l : Loads) :
    p.changeTable l es = p.retabled h u b (p.bay b) (p.link b) f := by
  rw [Power.retabled_self, ← put]
  refine Power.changeTable_calm (fun c => ?_) l
  rw [put]
  cases c
  · exact calm .A
  · exact calm .B

/-! ## PLACE_HOLD -/

/-- The entry that PLACE_HOLD asks for at `now` (R51). -/
def wantedHold (now : Nat) (g : Target) (reserve duration : Half) : HoldEntry :=
  ⟨.software, g, min 10000 reserve.toNat, now, some (now + max 1 (min 600 duration.toNat) * 1000)⟩

theorem placeClamped (reserve duration : Half) : anyClamped [(clampNat 0 10000 reserve.toNat, reserve.toNat), (clampNat 1 600 duration.toNat, duration.toNat)]
    = !(inRange 0 10000 reserve.toNat && inRange 1 600 duration.toNat) := by
  rw [anyClamped_cons, anyClamped_cons, anyClamped_nil, Bool.or_false, clamped_iff (by decide), clamped_iff (by decide), Bool.not_and]

section Place

variable {x : Blocks} {slot : Fin 32} {g : Target} {reserve duration : Half} {n : Nat}

theorem Blocks.doPlaceHold_eq : x.doPlaceHold slot (targetCode g) reserve duration =
    match decidePlacement (wantedHold x.tmb.uptime g reserve duration) x.hld.entries with
    | .new n => (x.withPower (x.toPower.changeTable x.loads (placeEntry (wantedHold x.tmb.uptime g reserve duration) x.hld.entries))).finish slot
        (.adopted (!(inRange 0 10000 reserve.toNat && inRange 1 600 duration.toNat))
          ([BitVec.ofNat 8 n, 0, 0, 0] ++ leBytes 8 (x.tmb.uptime + max 1 (min 600 duration.toNat) * 1000)))
    | .refreshed n => (x.withPower (x.toPower.changeTable x.loads (placeEntry (wantedHold x.tmb.uptime g reserve duration) x.hld.entries))).finish slot
        (.adopted (!(inRange 0 10000 reserve.toNat && inRange 1 600 duration.toNat))
          ([BitVec.ofNat 8 n, 1, 0, 0] ++ leBytes 8 (x.tmb.uptime + max 1 (min 600 duration.toNat) * 1000)))
    | .refused => x.finish slot ⟨.tableFull, !(inRange 0 10000 reserve.toNat && inRange 1 600 duration.toNat), false,
        [BitVec.ofNat 8 (softwareCount x.hld.entries)]⟩ := by
  unfold Blocks.doPlaceHold
  rw [targetOfCode_targetCode]
  dsimp only
  rw [placeClamped, clampNat_zero]
  rfl

theorem decidePlacement_new {e : HoldEntry} {es : List (Option HoldEntry)} (fresh : positionOf e.holder e.target es = none)
    (room : softwareCount es < 12) (free : freePosition es = some n) : decidePlacement e es = .new n := by
  unfold decidePlacement
  rw [fresh]
  dsimp only
  rw [if_neg (fun full => absurd full.2 (Nat.not_le.mpr room)), free]

theorem decidePlacement_refused {e : HoldEntry} {es : List (Option HoldEntry)} (software : e.holder = .software)
    (fresh : positionOf e.holder e.target es = none) (full : 12 ≤ softwareCount es ∨ freePosition es = none) : decidePlacement e es = .refused := by
  unfold decidePlacement
  rw [fresh]
  dsimp only
  split
  case isTrue => rfl
  case isFalse room =>
    have none_free : freePosition es = none := full.resolve_left fun many => room ⟨software, many⟩
    rw [none_free]

theorem decidePlacement_refreshed {e : HoldEntry} {es : List (Option HoldEntry)} (stands : positionOf e.holder e.target es = some n) :
    decidePlacement e es = .refreshed n := by
  unfold decidePlacement
  rw [stands]

end Place

/-- A placement that is not refused, whose budget pass is due. -/
theorem exec_places {p : Posting} {g : Target} {reserve duration : Half} {s : State} (taken : Taken s p) {n : Nat} {kind : Byte}
    (decided : decidePlacement (wantedHold s.tmb.uptime g reserve duration) s.hld.entries = .new n ∧ kind = 0
      ∨ decidePlacement (wantedHold s.tmb.uptime g reserve duration) s.hld.entries = .refreshed n ∧ kind = 1)
    {h : HoldTable} {u : FhuState} {b : Bay} {rec' : BayRec} {k : Link} {f : Front}
    (changes : ∀ l, (s.taken p (.placeHold (targetCode g) reserve duration)).toPower.changeTable l
      (placeEntry (wantedHold s.tmb.uptime g reserve duration) s.hld.entries)
      = (s.taken p (.placeHold (targetCode g) reserve duration)).toPower.retabled h u b rec' k f)
    (tells : (s.taken p (.placeHold (targetCode g) reserve duration)).toFront.Tells f) :
    ∃ t, exec (.placeHold p (targetCode g) reserve duration) s = .next t ∧ s.Retabled p 9
      (.adopted (!(inRange 0 10000 reserve.toNat && inRange 1 600 duration.toNat))
        ([BitVec.ofNat 8 n, kind, 0, 0] ++ leBytes 8 (s.tmb.uptime + max 1 (min 600 duration.toNat) * 1000))) h b rec' k f t := by
  refine exec_retables (c := .placeHold p (targetCode g) reserve duration) taken rfl rfl (u := u) ?_ tells rfl
  show Blocks.doPlaceHold _ _ _ _ _ = _
  rw [Blocks.doPlaceHold_eq, ← changes (s.takes p (.placeHold (targetCode g) reserve duration)).loads]
  obtain ⟨new, rfl⟩ | ⟨refreshed, rfl⟩ := decided
  · rw [show decidePlacement (wantedHold (s.takes p (.placeHold (targetCode g) reserve duration)).tmb.uptime g reserve duration)
      (s.takes p (.placeHold (targetCode g) reserve duration)).hld.entries = _ from new]
    rfl
  · rw [show decidePlacement (wantedHold (s.takes p (.placeHold (targetCode g) reserve duration)).tmb.uptime g reserve duration)
      (s.takes p (.placeHold (targetCode g) reserve duration)).hld.entries = _ from refreshed]
    rfl

/-! ## A new entry -/

section Fresh

variable {p : Posting} {g : Target} {reserve duration : Half} {s : State} {n : Nat}

/-- The table with the entry that PLACE_HOLD asks for in position `n`. -/
def State.placedTable (s : State) (n : Nat) (g : Target) (reserve duration : Half) : HoldTable :=
  { s.hld with entries := s.hld.entries.set n (some (wantedHold s.tmb.uptime g reserve duration)) }

/-- The bays and the table at the take, bay `b` as it will be. -/
def State.placing (s : State) (p : Posting) (n : Nat) (g : Target) (reserve duration : Half) (b : Bay) (r : BayRec) (k : Link) (f : Front) : Power :=
  (s.taken p (.placeHold (targetCode g) reserve duration)).toPower.retabled (s.placedTable n g reserve duration) s.fhu b r k f

/-- The host's side once the table's page shows the new entry. -/
def State.placedFront (s : State) (p : Posting) (n : Nat) (g : Target) (reserve duration : Half) : Front :=
  (s.toFront.takes p (.placeHold (targetCode g) reserve duration)).publish .mirror (mirrorPage (s.placedTable n g reserve duration))

theorem State.placedFront_tells : (s.taken p (.placeHold (targetCode g) reserve duration)).toFront.Tells (s.placedFront p n g reserve duration) :=
  Front.publishMirror_tells _ _

theorem State.placedTable_demand {b : Bay} (free : freePosition s.hld.entries = some n) (own : g = latchOf b) :
    (s.placedTable n g reserve duration).demand b = true := by
  unfold HoldTable.demand
  rw [← own]
  exact targets_set (freePosition_free free) (wantedHold s.tmb.uptime g reserve duration) s.hld

/-- A hold over a latch leaves the quiesce line. -/
theorem State.putTable_placing {b : Bay} (free : freePosition s.hld.entries = some n) (own : g = latchOf b) :
    (s.taken p (.placeHold (targetCode g) reserve duration)).toPower.putTable (s.placedTable n g reserve duration).entries
      = s.placing p n g reserve duration b (s.bay b) (s.link b) (s.placedFront p n g reserve duration) := by
  have line : ({ s.hld with entries := (s.placedTable n g reserve duration).entries } : HoldTable).quiesce = s.hld.quiesce :=
    targets_set_alike (freePosition_free free) (wantedHold s.tmb.uptime g reserve duration)
      (by rw [own]; cases b <;> exact (decide_eq_false nofun).symm) s.hld
  rw [Power.putTable_steady (p := (s.taken p (.placeHold (targetCode g) reserve duration)).toPower) line,
    show tableChanged (s.taken p (.placeHold (targetCode g) reserve duration)).hld.entries (s.placedTable n g reserve duration).entries = true from
      tableChanged_set (freePosition_free free) _, Bool.or_true]
  unfold State.placing
  cases b <;> rfl

/-- A hold over the latch of bay `b`, to which the bay answers as `react` says. -/
theorem exec_places_latch {b : Bay} (taken : Taken s p) (fresh : positionOf .software g s.hld.entries = none)
    (room : softwareCount s.hld.entries < 12) (free : freePosition s.hld.entries = some n) (own : g = latchOf b)
    (calm : (∀ x, (s.bay (otherBay b)).state ≠ .releaseWait x) ∧ ∀ u, (s.bay (otherBay b)).state ≠ .opened u) {r : BayRec} {k : Link} {f : Front}
    (react : ∀ l, (s.placing p n g reserve duration b (s.bay b) (s.link b) (s.placedFront p n g reserve duration)).reactToDemand l b
      = s.placing p n g reserve duration b r k f)
    (tells : (s.placedFront p n g reserve duration).Tells f) :
    ∃ t, exec (.placeHold p (targetCode g) reserve duration) s = .next t ∧ s.Retabled p 9
      (.adopted (!(inRange 0 10000 reserve.toNat && inRange 1 600 duration.toNat))
        ([BitVec.ofNat 8 n, 0, 0, 0] ++ leBytes 8 (s.tmb.uptime + max 1 (min 600 duration.toNat) * 1000)))
      (s.placedTable n g reserve duration) b r k f t := by
  refine exec_places taken (u := s.fhu) (.inl ⟨decidePlacement_new fresh room free, rfl⟩) (fun l => ?_) (State.placedFront_tells.trans tells)
  rw [placeEntry_new (e := wantedHold s.tmb.uptime g reserve duration) fresh (fun _ => room) free]
  refine Power.changeTable_answers (f := s.placedFront p n g reserve duration) ?_ ?_ ?_
  · rw [State.taken_bay, show (s.taken p (.placeHold (targetCode g) reserve duration)).link b = s.link b by cases b <;> rfl]
    exact State.putTable_placing free own
  · rw [State.taken_bay]
    exact calm
  · rw [State.taken_bay, show (s.taken p (.placeHold (targetCode g) reserve duration)).link b = s.link b by cases b <;> rfl]
    exact react l

/-- A new hold with both bays at rest. -/
theorem exec_places_calm (taken : Taken s p) (fresh : positionOf .software g s.hld.entries = none)
    (room : softwareCount s.hld.entries < 12) (free : freePosition s.hld.entries = some n) (no_drops : s.drops = []) (calm : baysCalm s) :
    ∃ f t, exec (.placeHold p (targetCode g) reserve duration) s = .next t ∧ s.Retabled p 9
      (.adopted (!(inRange 0 10000 reserve.toNat && inRange 1 600 duration.toNat))
        ([BitVec.ofNat 8 n, 0, 0, 0] ++ leBytes 8 (s.tmb.uptime + max 1 (min 600 duration.toNat) * 1000)))
      (s.hld.become (s.placedTable n g reserve duration).entries s.tmb.uptime) .A s.bayA s.linkA f t := by
  obtain ⟨f, put, tells, -⟩ := Power.putTable_eq (p := (s.taken p (.placeHold (targetCode g) reserve duration)).toPower) no_drops
    (s.placedTable n g reserve duration).entries
  rw [show tableChanged (s.taken p (.placeHold (targetCode g) reserve duration)).toPower.hld.entries (s.placedTable n g reserve duration).entries = true
    from tableChanged_set (freePosition_free free) _, Bool.or_true] at put
  refine ⟨f, exec_places taken (u := if s.hld.waitEnds (s.placedTable n g reserve duration).entries then { s.fhu with deferredEnd := none } else s.fhu)
    (.inl ⟨decidePlacement_new fresh room free, rfl⟩) (fun l => ?_) tells⟩
  rw [placeEntry_new (e := wantedHold s.tmb.uptime g reserve duration) fresh (fun _ => room) free]
  exact Power.changeTable_rests put (fun b => by rw [State.taken_bay]; exact ⟨calm.1 b, calm.2 b⟩) .A l

end Fresh

/-! ## A hold renewed -/

theorem tableShape_set (es : List (Option HoldEntry)) (n : Nat) (e : HoldEntry) :
    tableShape (es.set n (some e)) = (tableShape es).set n (some (e.holder, e.target, e.reserve)) := by
  unfold tableShape
  rw [List.map_set]
  rfl

/-- A renewed entry changes what a pass sees exactly where its reserve changes. -/
theorem tableChanged_renewed {es : List (Option HoldEntry)} {n : Nat} {e x : HoldEntry} (there : es[n]? = some (some e)) (holder : x.holder = e.holder)
    (target : x.target = e.target) : tableChanged es (es.set n (some x)) = decide (e.reserve ≠ x.reserve) := by
  have shape : (tableShape es)[n]? = some (some (e.holder, e.target, e.reserve)) := by
    unfold tableShape
    rw [List.getElem?_map, there]
    rfl
  obtain ⟨inside, own⟩ := List.getElem?_eq_some_iff.mp shape
  unfold tableChanged
  rw [tableShape_set, holder, target]
  refine decide_eq_decide.mpr (not_congr ⟨fun same => ?_, fun same => ?_⟩)
  · have entry := congrArg (fun l => l[n]?) same
    simpa [inside, own, eq_comm] using entry
  · rw [← same, ← own]
    exact List.set_getElem_self _

section Renewed

variable {p : Posting} {g : Target} {reserve duration : Half} {s : State} {n : Nat} {e : HoldEntry}

/-- The entry that PLACE_HOLD asks for, where `e` stands for the pair (R51). -/
def State.renewal (s : State) (g : Target) (reserve duration : Half) (e : HoldEntry) : HoldEntry :=
  { wantedHold s.tmb.uptime g reserve duration with placedAt := e.placedAt }

/-- The table once the entry in position `n` is renewed. -/
def State.renewedTable (s : State) (n : Nat) (g : Target) (reserve duration : Half) (e : HoldEntry) : HoldTable :=
  { s.hld with entries := s.hld.entries.set n (some (s.renewal g reserve duration e)) }

/-- The host's side once the table's page shows the renewed entry. -/
def State.renewedFront (s : State) (p : Posting) (n : Nat) (g : Target) (reserve duration : Half) (e : HoldEntry) : Front :=
  (s.toFront.takes p (.placeHold (targetCode g) reserve duration)).publish .mirror (mirrorPage (s.renewedTable n g reserve duration e))

/-- The entry in the position of the pair is the pair's. -/
theorem positionOf_pair {es : List (Option HoldEntry)} (stands : positionOf .software g es = some n) (there : es[n]? = some (some e)) :
    e.holder = .software ∧ e.target = g := by
  obtain ⟨f, found, pair⟩ := positionOf_some stands
  rw [there] at found
  cases found
  exact ⟨congrArg Prod.fst pair, congrArg Prod.snd pair⟩

theorem State.changeTable_renewed (stands : positionOf .software g s.hld.entries = some n) (there : s.hld.entries[n]? = some (some e)) (calm : baysCalm s)
    (l : Loads) : (s.taken p (.placeHold (targetCode g) reserve duration)).toPower.changeTable l
        (placeEntry (wantedHold s.tmb.uptime g reserve duration) s.hld.entries)
      = { (s.taken p (.placeHold (targetCode g) reserve duration)).toPower with
        hld := s.renewedTable n g reserve duration e, due := { s.due with hold := s.due.hold || decide (e.reserve ≠ min 10000 reserve.toNat) }
        toFront := s.renewedFront p n g reserve duration e } := by
  obtain ⟨holder, target⟩ := positionOf_pair stands there
  have line : ({ s.hld with entries := (s.renewedTable n g reserve duration e).entries } : HoldTable).quiesce = s.hld.quiesce :=
    targets_set_alike there _ (by rw [Option.any_some, target]; rfl) s.hld
  have put := Power.putTable_steady (p := (s.taken p (.placeHold (targetCode g) reserve duration)).toPower) line
  rw [show tableChanged (s.taken p (.placeHold (targetCode g) reserve duration)).toPower.hld.entries (s.renewedTable n g reserve duration e).entries
    = decide (e.reserve ≠ min 10000 reserve.toNat) from tableChanged_renewed there holder.symm target.symm] at put
  rw [placeEntry_refreshed (e := wantedHold s.tmb.uptime g reserve duration) stands there]
  show (s.taken p (.placeHold (targetCode g) reserve duration)).toPower.changeTable l (s.renewedTable n g reserve duration e).entries = _
  rw [Power.changeTable_calm ?_ l, put]
  · rfl
  · rw [put]
    intro b
    cases b
    · exact ⟨calm.1 .A, calm.2 .A⟩
    · exact ⟨calm.1 .B, calm.2 .B⟩

theorem exec_renews (taken : Taken s p) (stands : positionOf .software g s.hld.entries = some n) (there : s.hld.entries[n]? = some (some e))
    (calm : baysCalm s) (differs : e.reserve ≠ min 10000 reserve.toNat) :
    ∃ t, exec (.placeHold p (targetCode g) reserve duration) s = .next t ∧ s.Retabled p 9
      (.adopted (!(inRange 0 10000 reserve.toNat && inRange 1 600 duration.toNat))
        ([BitVec.ofNat 8 n, 1, 0, 0] ++ leBytes 8 (s.tmb.uptime + max 1 (min 600 duration.toNat) * 1000)))
      (s.renewedTable n g reserve duration e) .A s.bayA s.linkA (s.renewedFront p n g reserve duration e) t := by
  refine exec_places taken (u := s.fhu) (.inr ⟨decidePlacement_refreshed stands, rfl⟩) (fun l => ?_) (Front.publishMirror_tells _ _)
  rw [State.changeTable_renewed stands there calm l, decide_eq_true differs, Bool.or_true]
  rfl

/-- A refresh that changes no reserve: the table and its page alone (R52, R57). -/
theorem exec_refreshes (taken : Taken s p) (stands : positionOf .software g s.hld.entries = some n) (there : s.hld.entries[n]? = some (some e))
    (calm : baysCalm s) (charger : ChargerSettled s.toPower) (same : e.reserve = min 10000 reserve.toNat) :
    ∃ t, exec (.placeHold p (targetCode g) reserve duration) s = .next t
      ∧ answered t.mem p 9 .ok (!(inRange 0 10000 reserve.toNat && inRange 1 600 duration.toNat))
        ([BitVec.ofNat 8 n, 1, 0, 0] ++ leBytes 8 (s.tmb.uptime + max 1 (min 600 duration.toNat) * 1000))
      ∧ t = { s with
        hld := s.renewedTable n g reserve duration e, mem := t.mem, gens := { s.gens with mirror := s.gens.mirror + 2 }, lastSlot := p.slot
        summary := doneSummary s.summary p, pins := derivePins t.toBlocks }
      ∧ keepsOutside [slotRange p.slot, pageRange .mirror] s.mem t.mem := by
  let r : Request := .placeHold (targetCode g) reserve duration
  obtain ⟨shape, kept, -⟩ := s.toFront.takes_mem p r
  have performs : (s.takes p r).perform p.slot r
      = ((s.takes p r).withPower { (s.taken p r).toPower with
        hld := s.renewedTable n g reserve duration e, toFront := s.renewedFront p n g reserve duration e }).finish p.slot
        (.adopted (!(inRange 0 10000 reserve.toNat && inRange 1 600 duration.toNat))
          ([BitVec.ofNat 8 n, 1, 0, 0] ++ leBytes 8 (s.tmb.uptime + max 1 (min 600 duration.toNat) * 1000))) := by
    show Blocks.doPlaceHold _ _ _ _ _ = _
    have change := State.changeTable_renewed (p := p) (reserve := reserve) (duration := duration) stands there calm (s.takes p r).loads
    rw [decide_eq_false (not_not.mpr same), Bool.or_false] at change
    rw [Blocks.doPlaceHold_eq, show decidePlacement (wantedHold (s.takes p r).tmb.uptime g reserve duration) (s.takes p r).hld.entries = .refreshed n from
      decidePlacement_refreshed stands]
    dsimp only
    rw [show (s.takes p r).toPower.changeTable (s.takes p r).loads
      (placeEntry (wantedHold (s.takes p r).tmb.uptime g reserve duration) (s.takes p r).hld.entries) = _ from change]
    rfl
  obtain ⟨m, next, after, result⟩ := exec_finishes (c := .placeHold p (targetCode g) reserve duration) taken rfl rfl performs rfl taken.1.2 charger rfl
    (energyChanged_of_same rfl rfl rfl rfl fun _ => rfl) rfl
  refine ⟨_, next, result, rfl, ?_⟩
  exact keepsOutside_trans (keepsOutside_mono kept (by simp)) (keepsOutside_trans
    (keepsOutside_mono ((s.toFront.takes p r).publish_frame .mirror (mirrorPage (s.renewedTable n g reserve duration e))).1 (by simp))
    (keepsOutside_mono after (by simp)))

end Renewed

end Sys2Proof.Machine
end

section
/-! PROOF. LIFT_HOLD, and the two requests together (R51 to R53, R57, R58). -/

namespace Sys2Proof.Machine

open Sys2Proof.Safety

section Lifted

variable {p : Posting} {g : Target} {s : State} {n : Nat} {e : HoldEntry}

/-- The table once the SOFTWARE entry on `g` is lifted. -/
def State.liftedTable (s : State) (g : Target) : HoldTable := s.hld.lowered (removeEntries (isSoftwareOn g) s.hld.entries)

theorem isSoftwareOn_goes (stands : positionOf .software g s.hld.entries = some n) (there : s.hld.entries[n]? = some (some e)) :
    (s.hld.entries.any fun o => o.any (isSoftwareOn g)) = true := by
  obtain ⟨holder, target⟩ := positionOf_pair stands there
  refine List.any_eq_true.mpr ⟨some e, List.mem_of_getElem? there, ?_⟩
  show (decide (e.holder = .software) && decide (e.target = g)) = true
  rw [decide_eq_true holder, decide_eq_true target]
  rfl

/-- With the only entry over its latch lifted, a bay is free (R4). -/
theorem State.liftedTable_demand {b : Bay} (stands : positionOf .software g s.hld.entries = some n) (there : s.hld.entries[n]? = some (some e))
    (own : g = latchOf b) (only : ∀ m x, s.hld.entries[m]? = some (some x) → x.target = g → m = n) : (s.liftedTable g).demand b = false := by
  refine Bool.eq_false_iff.mpr fun demand => ?_
  obtain ⟨x, mem, target⟩ := targets_iff.mp (show (s.liftedTable g).targets (latchOf b) = true from demand)
  obtain ⟨o, found, is⟩ := List.mem_map.mp (show some x ∈ removeEntries (isSoftwareOn g) s.hld.entries from mem)
  cases o with
  | none => cases is
  | some y =>
    cases gone : isSoftwareOn g y
    · simp only [gone, Bool.false_eq_true, if_false] at is
      cases is
      obtain ⟨m, at_⟩ := List.mem_iff_getElem?.mp found
      have same : m = n := only m x at_ (target.trans own.symm)
      rw [same, there] at at_
      cases at_
      obtain ⟨holder, on⟩ := positionOf_pair stands there
      unfold isSoftwareOn at gone
      rw [decide_eq_true holder, decide_eq_true on] at gone
      cases gone
    · simp only [gone, if_true] at is
      cases is

theorem Power.removeHolds_changes {p : Power} {gone : HoldEntry → Bool} (one_goes : (p.hld.entries.any fun o => o.any gone) = true) (l : Loads) :
    p.removeHolds l gone = p.changeTable l (removeEntries gone p.hld.entries) := by
  unfold Power.removeHolds
  dsimp only
  rw [if_neg (removeEntries_ne one_goes)]

theorem exec_lifts (taken : Taken s p) (stands : positionOf .software g s.hld.entries = some n) (there : s.hld.entries[n]? = some (some e))
    {h : HoldTable} {u : FhuState} {b : Bay} {rec' : BayRec} {k : Link} {f : Front}
    (removes : ∀ l, (s.taken p (.liftHold (targetCode g))).toPower.removeHolds l (isSoftwareOn g)
      = (s.taken p (.liftHold (targetCode g))).toPower.retabled h u b rec' k f)
    (tells : (s.taken p (.liftHold (targetCode g))).toFront.Tells f) :
    ∃ t, exec (.liftHold p (targetCode g)) s = .next t
      ∧ s.Retabled p 10 (.adopted false ([BitVec.ofNat 8 n, 0, 0, 0] ++ leBytes 8 e.placedAt)) h b rec' k f t := by
  refine exec_retables (c := .liftHold p (targetCode g)) taken rfl rfl (u := u) ?_ tells rfl
  show Blocks.doLiftHold _ _ _ = _
  have placed : placedAtOf s.hld.entries n 0 = e.placedAt := by
    unfold placedAtOf
    rw [there]
  unfold Blocks.doLiftHold
  rw [targetOfCode_targetCode]
  dsimp only
  rw [show positionOf .software g (s.takes p (.liftHold (targetCode g))).hld.entries = some n from stands]
  dsimp only
  rw [show (s.takes p (.liftHold (targetCode g))).toPower.removeHolds (s.takes p (.liftHold (targetCode g))).loads (isSoftwareOn g) = _ from removes _,
    show placedAtOf (s.takes p (.liftHold (targetCode g))).hld.entries n 0 = e.placedAt from placed]

theorem exec_lifts_calm (taken : Taken s p) (stands : positionOf .software g s.hld.entries = some n) (there : s.hld.entries[n]? = some (some e))
    (no_drops : s.drops = []) (calm : baysCalm s) :
    ∃ f t, exec (.liftHold p (targetCode g)) s = .next t ∧ s.Retabled p 10 (.adopted false ([BitVec.ofNat 8 n, 0, 0, 0] ++ leBytes 8 e.placedAt))
      (s.liftedTable g) .A s.bayA s.linkA f t := by
  obtain ⟨u, f, put, tells, -⟩ := Power.putTable_removed (p := (s.taken p (.liftHold (targetCode g))).toPower) no_drops (isSoftwareOn g)
  rw [show tableChanged (s.taken p (.liftHold (targetCode g))).toPower.hld.entries
      (removeEntries (isSoftwareOn g) (s.taken p (.liftHold (targetCode g))).toPower.hld.entries) = true from
    decide_eq_true (tableShape_removed (isSoftwareOn_goes stands there)), Bool.or_true] at put
  refine ⟨f, exec_lifts taken stands there (u := u) (fun l => ?_) tells⟩
  rw [Power.removeHolds_changes (p := (s.taken p (.liftHold (targetCode g))).toPower) (isSoftwareOn_goes stands there)]
  exact Power.changeTable_rests put (fun b => by rw [State.taken_bay]; exact ⟨calm.1 b, calm.2 b⟩) .A l

/-- The lift that lets a HELD bay unlatch (R16). -/
theorem exec_lifts_latch {b : Bay} {q : Release} (taken : Taken s p) (stands : positionOf .software g s.hld.entries = some n)
    (there : s.hld.entries[n]? = some (some e)) (no_drops : s.drops = []) (own : g = latchOf b) (waits : (s.bay b).state = .releaseWait q)
    (sub : q.sub = .held) (apart : s.feed.kind ≠ feedOf b) (closed : (s.bay b).latchOpen = false)
    (calm : (∀ x, (s.bay (otherBay b)).state ≠ .releaseWait x) ∧ ∀ u, (s.bay (otherBay b)).state ≠ .opened u)
    (only : ∀ m x, s.hld.entries[m]? = some (some x) → x.target = g → m = n) :
    ∃ f k t, exec (.liftHold p (targetCode g)) s = .next t ∧ s.Retabled p 10 (.adopted false ([BitVec.ofNat 8 n, 0, 0, 0] ++ leBytes 8 e.placedAt))
      (s.liftedTable g) b { s.bay b with state := .releaseWait { q with sub := .unlatching (s.tmb.uptime + 500) } } k f t := by
  obtain ⟨u, f, put, tells, -⟩ := Power.putTable_removed (p := (s.taken p (.liftHold (targetCode g))).toPower) no_drops (isSoftwareOn g)
  rw [show tableChanged (s.taken p (.liftHold (targetCode g))).toPower.hld.entries
      (removeEntries (isSoftwareOn g) (s.taken p (.liftHold (targetCode g))).toPower.hld.entries) = true from
    decide_eq_true (tableShape_removed (isSoftwareOn_goes stands there)), Bool.or_true] at put
  have uptime : f.tmb.uptime = s.tmb.uptime := congrArg Timebase.uptime tells.kin.tmb
  have link : (s.taken p (.liftHold (targetCode g))).link b = s.link b := by cases b <;> rfl
  refine ⟨f, (s.link b).under (.releaseWait { q with sub := .unlatching (s.tmb.uptime + 500) }), exec_lifts taken stands there (u := u) (fun l => ?_) tells⟩
  rw [Power.removeHolds_changes (p := (s.taken p (.liftHold (targetCode g))).toPower) (isSoftwareOn_goes stands there)]
  refine Power.changeTable_answers (h := s.liftedTable g) (u := u) (f := f) ?_ ?_ ?_
  · rw [put, Power.retabled_self]
    rfl
  · rw [State.taken_bay]
    exact calm
  · rw [State.taken_bay, link, ← uptime]
    exact Power.retabled_unlatches (p := (s.taken p (.liftHold (targetCode g))).toPower) waits sub (State.liftedTable_demand stands there own only) apart closed l

end Lifted

/-! ## O50 -/

/-- What a new hold has placed. -/
theorem State.Retabled.placed {s t : State} {p : Posting} {kind : Byte} {e : Completion} {h : HoldTable} {b : Bay} {r : BayRec} {k : Link} {f : Front}
    (x : s.Retabled p kind e h b r k f t) : t.hld.entries = h.entries ∧ answered t.mem p kind e.code e.clamped e.data
      ∧ (p.notify = true → t.summary &&& 0x01 ≠ 0) :=
  ⟨congrArg HoldTable.entries x.hld, x.result, x.done⟩

theorem State.Retabled.bays {s t : State} {p : Posting} {kind : Byte} {e : Completion} {h : HoldTable} {b : Bay} {k : Link} {f : Front}
    (x : s.Retabled p kind e h b (s.bay b) k f t) : t.bayA = s.bayA ∧ t.bayB = s.bayB := by
  cases b
  · exact ⟨x.bay, x.other⟩
  · exact ⟨x.other, x.bay⟩

/-- Settles O50. -/
theorem holdRequestsPlaceAndLift : Obligations.HoldRequestsPlaceAndLift := by
  refine ⟨fun p g reserve duration s taken => ?_, fun p g n e s taken stands there no_drops => ?_⟩
  · intro r until_ clamped placed passed fresh
    refine ⟨fun n absent room free => ⟨fun no_drops calm => ?_, fun b own still shut demand => ⟨fun u opened => ?_, fun q u waits sub young => ?_,
      fun q waits sub => ?_⟩⟩, fun n e stands there calm charger => ?_, fun absent full charger => ?_⟩
    · obtain ⟨f, t, next, table⟩ := exec_places_calm (reserve := reserve) (duration := duration) taken absent room free no_drops calm
      obtain ⟨entries, result, done⟩ := table.placed
      rw [HoldTable.become_entries] at entries
      obtain ⟨bayA, bayB⟩ := State.Retabled.bays (b := .A) table
      refine ⟨t, ⟨next, entries, result, done⟩, ?_, ?_, bayA, bayB, table.passed⟩
      · show reserveSum t.hld.entries = _
        rw [entries]
        exact reserveSum_set _ (freePosition_free free)
      · have on := targets_set (freePosition_free free) fresh t.hld
        have same : ({ t.hld with entries := s.hld.entries.set n (some fresh) } : HoldTable) = t.hld := by
          rw [show s.hld.entries.set n (some fresh) = t.hld.entries from entries.symm]
        rwa [same] at on
    · have held := State.placedTable_demand (reserve := reserve) (duration := duration) free own
      obtain ⟨t, next, table⟩ := exec_places_latch (reserve := reserve) (duration := duration) taken absent room free own ⟨still, shut⟩
        (fun l => Power.retabled_undone opened held l) (Front.makeRecord_notes _ _).tells
      obtain ⟨entries, result, done⟩ := table.placed
      refine ⟨t, ⟨next, entries, result, done⟩, table.bay, table.link, table.other, ?_, ?_, table.passed⟩
      · unfold Power.latchLock
        rw [table.hld, held, Bool.or_true]
      · exact (((Front.makeRecord_logs _ _).later table.logs).earlier rfl).logged
    · have held := State.placedTable_demand (reserve := reserve) (duration := duration) free own
      obtain ⟨t, next, table⟩ := exec_places_latch (reserve := reserve) (duration := duration) taken absent room free own ⟨still, shut⟩
        (fun l => Power.retabled_held (f := s.placedFront p n g reserve duration) waits sub held young l) (.refl _)
      obtain ⟨entries, result, done⟩ := table.placed
      refine ⟨t, ⟨next, entries, result, done⟩, table.bay, table.other, ?_, table.passed⟩
      unfold Power.latchLock
      rw [table.hld, held, Bool.or_true]
    · have held := State.placedTable_demand (reserve := reserve) (duration := duration) free own
      obtain ⟨t, next, table⟩ := exec_places_latch (reserve := reserve) (duration := duration) taken absent room free own ⟨still, shut⟩
        (fun l => Power.retabled_stays waits sub held l) (.refl _)
      obtain ⟨entries, result, done⟩ := table.placed
      obtain ⟨bayA, bayB⟩ := table.bays
      exact ⟨t, ⟨next, entries, result, done⟩, bayA, bayB, table.passed⟩
    · by_cases same : e.reserve = r
      · obtain ⟨t, next, result, own, kept⟩ := exec_refreshes (reserve := reserve) (duration := duration) taken stands there calm charger same
        have table : t.hld = s.renewedTable n g reserve duration e := by rw [own]
        refine ⟨t, ⟨next, congrArg HoldTable.entries table, result, fun notify => ?_⟩, ?_, ?_, fun differs => absurd same differs, fun _ => ⟨?_, kept⟩⟩
        · rw [own]
          exact doneSummary_up notify _
        · rw [own]
        · rw [own]
        · refine own.trans ?_
          rw [congrArg HoldTable.entries table]
          rfl
      · obtain ⟨t, next, table⟩ := exec_renews (reserve := reserve) (duration := duration) taken stands there calm same
        obtain ⟨entries, result, done⟩ := table.placed
        obtain ⟨bayA, bayB⟩ := State.Retabled.bays (b := .A) table
        exact ⟨t, ⟨next, entries, result, done⟩, bayA, bayB, fun _ => table.passed, fun is => absurd is same⟩
    · refine exec_answers (c := .placeHold p (targetCode g) reserve duration) taken charger rfl rfl
        (e := ⟨.tableFull, clamped, false, [BitVec.ofNat 8 (softwareCount s.hld.entries)]⟩) ?_ rfl
      show Blocks.doPlaceHold _ _ _ _ _ = _
      rw [Blocks.doPlaceHold_eq, show decidePlacement (wantedHold (s.takes p (.placeHold (targetCode g) reserve duration)).tmb.uptime g reserve duration)
        (s.takes p (.placeHold (targetCode g) reserve duration)).hld.entries = .refused from decidePlacement_refused rfl absent full]
      rfl
  · intro lifted
    have lift {h : HoldTable} {b : Bay} {r : BayRec} {k : Link} {f : Front} {t : State} (next : exec (.liftHold p (targetCode g)) s = .next t)
        (table : s.Retabled p 10 (.adopted false ([BitVec.ofNat 8 n, 0, 0, 0] ++ leBytes 8 e.placedAt)) (s.liftedTable g) b r k f t) : lifted t := by
      obtain ⟨entries, result, done⟩ := table.placed
      obtain ⟨causes, rProt, rest⟩ := table.passed
      obtain ⟨mot, trc, sfe, duty, timers, pass, kept⟩ := rest
      exact ⟨next, entries.trans (removeEntries_filter _ _), causes, rProt, result, done, mot, trc, sfe, duty, timers, pass, kept⟩
    refine ⟨fun calm => ?_, fun b q own waits sub apart closed still shut only => ?_⟩
    · obtain ⟨f, t, next, table⟩ := exec_lifts_calm taken stands there no_drops calm
      obtain ⟨bayA, bayB⟩ := State.Retabled.bays (b := .A) table
      exact ⟨t, lift (h := s.liftedTable g) next table, bayA, bayB⟩
    · obtain ⟨f, k, t, next, table⟩ := exec_lifts_latch taken stands there no_drops own waits sub apart closed ⟨still, shut⟩ only
      exact ⟨t, lift (h := s.liftedTable g) next table, table.bay, table.other⟩

end Sys2Proof.Machine
end

section
/-! PROOF. Wraps with alert on wrap and what they freeze (R134 to R136, R142). -/

namespace Sys2Proof.Machine

open Sys2Proof.Safety

/-! ## The monitors that raise an alert -/

/-- The occurrence wraps the monitor, which has alert on wrap (R136). -/
def Monitor.alerts (m : Monitor) (o : Occurrence) : Prop := m.wraps o = true ∧ m.config.alert = true

theorem mem_alerting {o : Occurrence} {n : Nat} {ms : List Monitor} {m : Monitor} :
    (∃ i, (i, m) ∈ alerting o n ms) ↔ m ∈ ms ∧ m.alerts o := by
  induction ms generalizing n with
  | nil => simp [alerting]
  | cons x ms ih =>
    unfold alerting
    split
    case isTrue alert =>
      have own : x.alerts o := (Bool.and_eq_true _ _).mp alert
      constructor
      · rintro ⟨i, mem⟩
        obtain same | later := List.mem_cons.mp mem
        · cases same
          exact ⟨List.mem_cons_self .., own⟩
        · obtain ⟨there, alerts⟩ := ih.mp ⟨i, later⟩
          exact ⟨List.mem_cons_of_mem _ there, alerts⟩
      · rintro ⟨mem, alerts⟩
        obtain rfl | there := List.mem_cons.mp mem
        · exact ⟨n, List.mem_cons_self ..⟩
        · obtain ⟨i, later⟩ := (ih (n := n + 1)).mpr ⟨there, alerts⟩
          exact ⟨i, List.mem_cons_of_mem _ later⟩
    case isFalse quiet =>
      rw [ih]
      refine and_congr_left fun alerts => ⟨List.mem_cons_of_mem _, fun mem => ?_⟩
      obtain rfl | there := List.mem_cons.mp mem
      · exact absurd ((Bool.and_eq_true _ _).mpr alerts) quiet
      · exact there

/-- A monitor that is frozen by an alert shares its group, and the group is not NONE. -/
theorem frozenBy_iff {o : Occurrence} {n : Nat} {ms : List Monitor} {m : Monitor} : frozenBy (alerting o n ms) m = true
    ↔ m.config.group ≠ .none ∧ ∃ x, x ∈ ms ∧ x.alerts o ∧ x.config.group = m.config.group := by
  unfold frozenBy
  rw [Bool.and_eq_true, decide_eq_true_iff, List.any_eq_true]
  refine and_congr_right fun _ => ⟨?_, ?_⟩
  · rintro ⟨⟨i, x⟩, mem, group⟩
    obtain ⟨there, alerts⟩ := mem_alerting.mp ⟨i, mem⟩
    exact ⟨x, there, alerts, of_decide_eq_true group⟩
  · rintro ⟨x, there, alerts, group⟩
    obtain ⟨i, mem⟩ := (mem_alerting (n := n)).mpr ⟨there, alerts⟩
    exact ⟨(i, x), mem, decide_eq_true group⟩

/-- Where one monitor alone alerts it is the list. -/
theorem alerting_one {o : Occurrence} {ms : List Monitor} {i n : Nat} {m : Monitor} (there : ms[i]? = some m) (alerts : m.alerts o)
    (only : ∀ j x, ms[j]? = some x → j ≠ i → x.wraps o = false) : alerting o n ms = [(n + i, m)] := by
  induction ms generalizing i n with
  | nil => cases there
  | cons x ms ih =>
    unfold alerting
    cases i with
    | zero =>
      cases there
      rw [if_pos ((Bool.and_eq_true _ _).mpr alerts), alerting_of_no_wrap o (n + 1) ms fun y mem => ?_]
      · rfl
      · obtain ⟨j, found⟩ := List.mem_iff_getElem?.mp mem
        exact only (j + 1) y found (Nat.succ_ne_zero j)
    | succ i =>
      rw [only 0 x rfl (Nat.succ_ne_zero i).symm, Bool.false_and, if_neg Bool.false_ne_true,
        ih there fun j y found other => only (j + 1) y found fun same => other (Nat.succ.inj same)]
      rw [Nat.add_right_comm, Nat.add_assoc]

/-! ## An occurrence is taken -/

theorem alertRecords_gens (ms : List Monitor) (as : List (Nat × Monitor)) (f : Front) : (alertRecords ms as f).1.gens = f.gens := by
  induction as generalizing f with
  | nil => rfl
  | cons a as ih =>
    refine (ih _).trans ?_
    unfold Front.append Front.writeRecord Front.raiseIfFull
    split
    · rfl
    · split <;> rfl

theorem alertRecords_up {ms : List Monitor} {as : List (Nat × Monitor)} (some_alert : as ≠ []) (f : Front) :
    (alertRecords ms as f).1.summary &&& 0x40 ≠ 0 := by
  cases as with
  | nil => exact absurd rfl some_alert
  | cons a as =>
    exact (((Front.append_raises _ _).trans (alertRecords_raises ms as _)).up (f := f.raise .monitorAlert) (flag_up f.summary (by decide)))

/-- The monitors once an occurrence has been taken, the freezes included. -/
def Front.offered (f : Front) (o : Occurrence) : List Monitor :=
  f.monitors.map fun m => { m.offer o with frozen := (m.offer o).frozen || frozenBy (alerting o 0 f.monitors) m }

theorem Front.takeOccurrence_eq (f : Front) (o : Occurrence) : (f.takeOccurrence o).1 =
    if f.monitors.any fun m => m.wraps o then ({ (alertRecords f.monitors (alerting o 0 f.monitors) f).1 with monitors := f.offered o } : Front).publishMonitors
    else { (alertRecords f.monitors (alerting o 0 f.monitors) f).1 with monitors := f.offered o } := rfl

theorem Front.takeOccurrence_monitors (f : Front) (o : Occurrence) : (f.takeOccurrence o).1.monitors = f.offered o := by
  rw [f.takeOccurrence_eq o]
  split <;> rfl

theorem Front.takeOccurrence_up {f : Front} {o : Occurrence} {m : Monitor} (mem : m ∈ f.monitors) (alerts : m.alerts o) :
    (f.takeOccurrence o).1.summary &&& 0x40 ≠ 0 := by
  obtain ⟨i, there⟩ := (mem_alerting (n := 0)).mpr ⟨mem, alerts⟩
  have up := alertRecords_up (ms := f.monitors) (List.ne_nil_of_mem there) f
  rw [f.takeOccurrence_eq o]
  split <;> exact up

theorem Front.takeOccurrence_page {f : Front} {o : Occurrence} {m : Monitor} (mem : m ∈ f.monitors) (wraps : m.wraps o = true) :
    (f.takeOccurrence o).1.gens.monitor = f.gens.monitor + 2
    ∧ readBytes (f.takeOccurrence o).1.mem PageId.monitor.offset 256
      = padTo 256 (leBytes 4 (f.gens.monitor + 2).toNat ++ monitorPage (f.takeOccurrence o).1.monitors) := by
  have gens := alertRecords_gens f.monitors (alerting o 0 f.monitors) f
  rw [f.takeOccurrence_eq o, if_pos (List.any_eq_true.mpr ⟨m, mem, wraps⟩)]
  unfold Front.publishMonitors
  refine ⟨by rw [← gens]; rfl, ?_⟩
  refine (Front.publish_frame _ .monitor _).2.2.trans ?_
  show padTo 256 (leBytes 4 ((alertRecords f.monitors (alerting o 0 f.monitors) f).1.gens.monitor + 2).toNat ++ _) = _
  rw [gens]
  rfl

/-- The function of O33. -/
theorem Front.takeOccurrence_offers (f : Front) (o : Occurrence) {i : Nat} {m : Monitor} (there : f.monitors[i]? = some m) :
    ∃ n : Monitor, (f.takeOccurrence o).1.monitors[i]? = some n ∧ n = { m.offer o with frozen := n.frozen }
      ∧ (n.frozen = true ↔ m.frozen = true ∨ m.config.group ≠ .none
          ∧ ∃ x, x ∈ f.monitors ∧ x.alerts o ∧ x.config.group = m.config.group) := by
  refine ⟨{ m.offer o with frozen := (m.offer o).frozen || frozenBy (alerting o 0 f.monitors) m }, ?_, rfl, ?_⟩
  · rw [f.takeOccurrence_monitors o]
    unfold Front.offered
    rw [List.getElem?_map, there]
    rfl
  · dsimp only
    rw [Bool.or_eq_true, Monitor.offer_frozen, frozenBy_iff]

/-! ## A record whose incident wraps one monitor -/

/-- The occurrence of a record that was written (R150). -/
def LogRecord.incident (r : LogRecord) : Occurrence := ⟨.incident, 0, some r.code⟩

section Brims

variable {f : Front} {i : Nat} {m : Monitor} {r : LogRecord}

/-- Monitor `i` alone is enabled, counts incidents of these codes with alert on wrap, and stands at its last count. -/
structure Front.Brims (f : Front) (i : Nat) (m : Monitor) : Prop where
  there  : f.monitors[i]? = some m
  kind   : m.config.kind = .incident
  codes  : m.config.threshold ≤ 10
  enable : m.config.enable = true
  alert  : m.config.alert = true
  runs   : m.frozen = false
  edge   : m.config.edge = true → m.edgeMemory = false
  count  : m.count = 0xFFFFFFFF
  alone  : ∀ j x, f.monitors[j]? = some x → j ≠ i → x.config.enable = false

theorem Monitor.rests {x : Monitor} (off : x.config.enable = false) (o : Occurrence) : x.takes o = false :=
  Bool.eq_false_iff.mpr fun takes => Bool.false_ne_true (off.symm.trans ((x.takes_iff o).mp takes).2.1)

theorem Front.Brims.takes (b : f.Brims i m) (r : LogRecord) : m.takes r.incident = true := (m.takes_iff _).mpr ⟨b.kind, b.enable, b.runs⟩

theorem Front.Brims.qualifies (b : f.Brims i m) (code : 10 ≤ r.code) : m.qualifies r.incident = true :=
  (m.qualifies_iff _).mpr ⟨b.kind, nofun, fun v is => by cases is; exact Nat.le_trans b.codes code⟩

theorem Front.Brims.alerts (b : f.Brims i m) (code : 10 ≤ r.code) : m.alerts r.incident :=
  ⟨(m.wraps_iff _).mpr ⟨(m.counts_iff _).mpr ⟨b.takes r, b.qualifies code, b.edge⟩, b.count⟩, b.alert⟩

/-- The monitor once it has wrapped, freezes apart (R135). -/
def Monitor.wrappedOver (m : Monitor) : Monitor := { m with count := 0, wrapped := true, edgeMemory := true }

theorem Front.Brims.offer (b : f.Brims i m) (code : 10 ≤ r.code) : m.offer r.incident = m.wrappedOver := by
  obtain ⟨wraps, -⟩ := b.alerts code
  obtain ⟨counts, -⟩ := (m.wraps_iff _).mp wraps
  rw [Monitor.offer_of_takes (b.takes r), counts, wraps, b.qualifies code, Bool.or_true, if_pos rfl, b.count]
  rfl

theorem Front.Brims.alerting (b : f.Brims i m) (code : 10 ≤ r.code) : alerting r.incident 0 f.monitors = [(i, m)] := by
  rw [alerting_one b.there (b.alerts code) fun j x found other => x.wraps_of_not_takes _ (Monitor.rests (b.alone j x found other) _), Nat.zero_add]

/-- The monitors once the alert has frozen the group (R136). -/
def frozenAs (m : Monitor) (i j : Nat) (x : Monitor) : Monitor :=
  if j = i then { m.wrappedOver with frozen := decide (m.config.group ≠ .none) }
  else { x with frozen := x.frozen || decide (m.config.group ≠ .none ∧ x.config.group = m.config.group) }

theorem frozenBy_one (i : Nat) (m x : Monitor) : frozenBy [(i, m)] x = decide (m.config.group ≠ .none ∧ x.config.group = m.config.group) := by
  unfold frozenBy
  rw [List.any_cons, List.any_nil, Bool.or_false, Bool.eq_iff_iff, Bool.and_eq_true, decide_eq_true_iff, decide_eq_true_iff, decide_eq_true_iff]
  constructor
  · rintro ⟨group, same⟩
    exact ⟨same ▸ group, same.symm⟩
  · rintro ⟨group, same⟩
    exact ⟨same ▸ group, same.symm⟩

theorem Front.Brims.offered (b : f.Brims i m) (code : 10 ≤ r.code) {j : Nat} {x : Monitor} (found : f.monitors[j]? = some x) :
    (f.offered r.incident)[j]? = some (frozenAs m i j x) := by
  unfold Front.offered
  rw [List.getElem?_map, found, b.alerting code, Option.map_some, frozenBy_one, Monitor.offer_frozen]
  unfold frozenAs
  split
  case isTrue same =>
    subst same
    rw [b.there] at found
    cases found
    rw [b.offer code, b.runs, Bool.false_or]
    simp
  case isFalse other =>
    rw [x.offer_of_not_takes _ (Monitor.rests (b.alone j x found other) _)]

/-- The front once a record of a wrapping incident has been made: the record, the alert with its record, the freezes and the page. -/
def Front.brimmed (f : Front) (i : Nat) (m : Monitor) (r : LogRecord) : Front :=
  ({ (((f.writeRecord r).raise .monitorAlert).writeRecord (.monitorWrap i m.config.group (groupMembers f.monitors m.config.group))) with
    monitors := f.offered r.incident } : Front).publishMonitors

theorem Front.writeRecord_monitors (f : Front) (r : LogRecord) : (f.writeRecord r).monitors = f.monitors := by
  unfold Front.writeRecord Front.raiseIfFull
  split <;> rfl

theorem Front.Brims.written (b : f.Brims i m) (r : LogRecord) : (f.writeRecord r).Brims i m := by
  have same := f.writeRecord_monitors r
  exact ⟨same ▸ b.there, b.kind, b.codes, b.enable, b.alert, b.runs, b.edge, b.count, same ▸ b.alone⟩

theorem Front.Brims.takeOccurrence (b : f.Brims i m) (code : 10 ≤ r.code) (room : 2 ≤ f.log.free) :
    (f.writeRecord r).takeOccurrence r.incident
      = (f.brimmed i m r, [(LogRecord.monitorWrap i m.config.group (groupMembers f.monitors m.config.group)).incident]) := by
  obtain ⟨-, free⟩ := LogRec.room_of_free room
  obtain ⟨open_, -⟩ := LogRec.room_of_free free
  have same := f.writeRecord_monitors r
  obtain ⟨wraps, -⟩ := b.alerts code
  have alerts := (b.written r).alerting code
  have again : ((f.writeRecord r).raise .monitorAlert).log.full = false := by
    show (f.writeRecord r).log.full = false
    rw [(f.writeRecord_entry r).1]
    exact open_
  unfold Front.takeOccurrence
  dsimp only
  rw [alerts, if_pos (List.any_eq_true.mpr ⟨m, List.mem_of_getElem? (b.written r).there, wraps⟩)]
  unfold alertRecords
  dsimp only
  rw [Front.append_of_room _ _ again, same]
  unfold Front.brimmed Front.offered
  rw [b.alerting code]
  rfl

theorem Front.Brims.makeRecord (b : f.Brims i m) (code : 10 ≤ r.code) (room : 2 ≤ f.log.free) : f.makeRecord r = { f.brimmed i m r with
    monitors := (f.offered r.incident).map fun x =>
      x.offer (LogRecord.monitorWrap i m.config.group (groupMembers f.monitors m.config.group)).incident } := by
  obtain ⟨open_, -⟩ := LogRec.room_of_free room
  obtain ⟨k, count⟩ : ∃ k, f.monitors.length = k + 1 := ⟨f.monitors.length - 1, by have := (List.getElem?_eq_some_iff.mp b.there).1; omega⟩
  unfold Front.makeRecord
  rw [f.append_of_room r open_]
  dsimp only
  unfold Front.sendEvent
  rw [f.writeRecord_monitors r, count]
  show drainEvents (k + 2) ([] ++ ((f.writeRecord r).takeOccurrence r.incident).2) ((f.writeRecord r).takeOccurrence r.incident).1 = _
  rw [b.takeOccurrence code room]
  show drainEvents (k + 1) ([] ++ ((f.brimmed i m r).takeOccurrence _).2) ((f.brimmed i m r).takeOccurrence _).1 = _
  rw [Front.takeOccurrence_of_no_wrap _ _ fun n mem => ?_]
  · rfl
  · obtain ⟨j, found⟩ := List.mem_iff_getElem?.mp (show n ∈ f.offered r.incident from mem)
    have inside : j < f.monitors.length := by
      have := (List.getElem?_eq_some_iff.mp found).1
      unfold Front.offered at this
      simpa using this
    rw [b.offered code (List.getElem?_eq_getElem inside)] at found
    cases found
    unfold frozenAs
    split
    case isTrue =>
      exact Bool.eq_false_iff.mpr fun wraps => absurd ((Monitor.wraps_iff _ _).mp wraps).2 (show ¬ (0 : Word) = 0xFFFFFFFF by decide)
    case isFalse other =>
      have off : (f.monitors[j]).config.enable = false := b.alone j _ (List.getElem?_eq_getElem inside) other
      exact Monitor.wraps_of_not_takes _ _ (Monitor.rests (by exact off) _)

/-- The log, the entries and the flags of a wrapping record. -/
structure Front.Brimmed (f g : Front) (i : Nat) (m : Monitor) (r : LogRecord) : Prop where
  log      : g.log = { f.log with writeIndex := f.log.writeIndex + 2 }
  own      : g.entryAt f.log.writeIndex = r.bytes f.log.writeIndex f.tmb
  wrap     : g.entryAt (f.log.writeIndex + 1)
    = (LogRecord.monitorWrap i m.config.group (groupMembers f.monitors m.config.group)).bytes (f.log.writeIndex + 1) f.tmb
  flags    : g.summary &&& 0x42 = 0x42
  gen      : g.gens.monitor = f.gens.monitor + 2
  length   : g.monitors.length = f.monitors.length
  monitors : ∀ j x, f.monitors[j]? = some x → g.monitors[j]?
    = some ((frozenAs m i j x).offer (LogRecord.monitorWrap i m.config.group (groupMembers f.monitors m.config.group)).incident)

theorem flags_both {w : Word} (incident : w &&& 0x02 ≠ 0) (alert : w &&& 0x40 ≠ 0) : w &&& 0x42 = 0x42 := by
  have one (k : Nat) (up : w &&& BitVec.twoPow 32 k ≠ 0) : w &&& BitVec.twoPow 32 k = BitVec.twoPow 32 k := by
    rw [BitVec.and_twoPow] at up ⊢
    split
    · rfl
    · exact absurd (if_neg ‹_›) up
  have parts : (0x42 : Word) = BitVec.twoPow 32 1 ||| BitVec.twoPow 32 6 := by decide
  rw [parts, BitVec.and_or_distrib_left, one 1 incident, one 6 alert]

theorem Front.writeRecord_gens (f : Front) (r : LogRecord) : (f.writeRecord r).gens = f.gens := by
  unfold Front.writeRecord Front.raiseIfFull
  split <;> rfl

theorem Front.writeRecord_up (f : Front) (r : LogRecord) : (f.writeRecord r).summary &&& 0x02 ≠ 0 := by
  have up : (f.summary ||| 0x02) &&& 0x02 ≠ 0 := flag_up f.summary (by decide)
  refine Front.Raises.up (f := ((f.write (logEntryAt (f.log.writeIndex.toNat % Config.logEntries)) (r.bytes f.log.writeIndex f.tmb)).advanceIndex.raise
    .incident)) ?_ up
  exact .ite (Front.raise_raises _ .logFull) (.refl _)

theorem Front.Brims.brimmed (b : f.Brims i m) (code : 10 ≤ r.code) (room : 2 ≤ f.log.free) : f.Brimmed (f.makeRecord r) i m r := by
  obtain ⟨open_, free⟩ := LogRec.room_of_free room
  obtain ⟨again, -⟩ := LogRec.room_of_free free
  have logs := (f.makeRecord_logs r).placed open_
  have made := b.makeRecord code room
  obtain ⟨log, -⟩ := f.writeRecord_entry r
  obtain ⟨q, is⟩ : ∃ q, q = (f.writeRecord r).raise .monitorAlert := ⟨_, rfl⟩
  have q_log : q.log = f.log.next := by rw [is]; exact log
  obtain ⟨log', entry, -⟩ := q.writeRecord_entry (.monitorWrap i m.config.group (groupMembers f.monitors m.config.group))
  have q_tmb : q.tmb = f.tmb := by
    rw [is]
    show (f.writeRecord r).tmb = f.tmb
    unfold Front.writeRecord Front.raiseIfFull
    split <;> rfl
  rw [q_log] at log' entry
  have brimmed : f.brimmed i m r = ({ (q.writeRecord (.monitorWrap i m.config.group (groupMembers f.monitors m.config.group))) with
    monitors := f.offered r.incident } : Front).publishMonitors := by rw [is]; rfl
  refine ⟨?_, logs, ?_, ?_, ?_, ?_, fun j x found => ?_⟩
  · rw [made, brimmed]
    refine log'.trans ?_
    show ({ f.log with writeIndex := f.log.writeIndex + 1 + 1 } : LogRec) = _
    rw [BitVec.add_assoc]
    rfl
  · rw [made, brimmed]
    refine Eq.trans ?_ (entry.trans (by rw [q_tmb]; rfl))
    exact readBytes_of_keepsOutside (Front.publish_frame _ .monitor _).1 _ _ (by simp [pageRange, PageId.offset, logEntryAt]; omega)
  · rw [made, brimmed]
    have alert : q.summary &&& 0x40 ≠ 0 := by rw [is]; exact flag_up _ (by decide)
    exact flags_both (q.writeRecord_up _) ((Front.writeRecord_raises q _).up alert)
  · rw [made, brimmed]
    show (q.writeRecord _).gens.monitor + 2 = _
    rw [q.writeRecord_gens, is]
    show (f.writeRecord r).gens.monitor + 2 = _
    rw [f.writeRecord_gens]
  · rw [made]
    simp [Front.offered]
  · rw [made]
    show ((f.offered r.incident).map _)[j]? = _
    rw [List.getElem?_map, b.offered code found]
    rfl

/-- Where the group is NONE the monitor runs on and counts the MONITOR_WRAP record's own incident, unless it counts edges. -/
theorem frozenAs_offer (b : f.Brims i m) {j : Nat} {x : Monitor} (found : f.monitors[j]? = some x) (members : Byte) :
    (frozenAs m i j x).offer (LogRecord.monitorWrap i m.config.group members).incident = if j = i then { m with
        count := if m.config.group = .none ∧ m.config.edge = false then 1 else 0, wrapped := true, edgeMemory := true
        frozen := decide (m.config.group ≠ .none) }
      else { x with frozen := x.frozen || decide (m.config.group ≠ .none ∧ x.config.group = m.config.group) } := by
  unfold frozenAs
  split
  case isTrue =>
    by_cases group : m.config.group = .none
    · obtain ⟨n, is⟩ : ∃ n : Monitor, n = { m.wrappedOver with frozen := decide (m.config.group ≠ .none) } := ⟨_, rfl⟩
      have config : n.config = m.config := by rw [is]; rfl
      have runs : n.frozen = false := by rw [is]; exact decide_eq_false (not_not.mpr group)
      have takes : n.takes (LogRecord.monitorWrap i m.config.group members).incident = true :=
        (n.takes_iff _).mpr ⟨by rw [config]; exact b.kind, by rw [config]; exact b.enable, runs⟩
      have qualifies : n.qualifies (LogRecord.monitorWrap i m.config.group members).incident = true :=
        (n.qualifies_iff _).mpr ⟨by rw [config]; exact b.kind, nofun, fun v is => by
          cases is
          rw [config]
          exact Nat.le_trans b.codes (show 10 ≤ 11 by decide)⟩
      have counts : n.counts (LogRecord.monitorWrap i m.config.group members).incident = !m.config.edge := by
        unfold Monitor.counts
        rw [takes, qualifies, config, show n.edgeMemory = true by rw [is]; rfl]
        cases m.config.edge <;> rfl
      have wrapped : n.wrapped = true := by rw [is]; rfl
      have none_yet : n.count = 0 := by rw [is]; rfl
      rw [← is, Monitor.offer_of_takes takes, counts, qualifies, wrapped, Bool.true_or, none_yet, is]
      have count : (if (!m.config.edge) = true then 0 + 1 else 0 : Word) = if m.config.group = .none ∧ m.config.edge = false then 1 else 0 := by
        rw [group]
        cases m.config.edge <;> rfl
      rw [count]
      rfl
    · rw [if_neg fun both => group both.1]
      exact Monitor.offer_of_not_takes _ _ (Bool.eq_false_iff.mpr fun takes => group (not_not.mp (of_decide_eq_false ((Monitor.takes_iff _ _).mp takes).2.2)))
  case isFalse other =>
    exact Monitor.offer_of_not_takes _ _ (Monitor.rests (by exact b.alone j x found other) _)

end Brims

/-- Settles O33. -/
theorem wrapAlertsFreezeTheirGroup : Obligations.WrapAlertsFreezeTheirGroup := by
  refine ⟨fun f o => ?_, fun i m s on known due there kind codes enable alert runs edge count alone room => ?_⟩
  · intro g alerts
    refine ⟨f.takeOccurrence_length o, fun i m there => f.takeOccurrence_offers o there, fun ⟨m, mem, alert⟩ => Front.takeOccurrence_up mem alert,
      fun ⟨m, mem, wraps⟩ => Front.takeOccurrence_page mem wraps, fun quiet => ?_, (f.takeOccurrence_step o).shape, (f.takeOccurrence_step o).kept⟩
    have own : g = _ := congrArg Prod.fst (f.takeOccurrence_of_no_wrap o quiet)
    rw [own]
  · intro g seq members
    have b : s.toFront.Brims i m := ⟨there, kind, codes, enable, alert, runs, edge, count, alone⟩
    have brimmed := b.brimmed (r := .sensorFault .ambient) (Nat.le_refl 10) room
    have step := s.toFront.makeRecord_step (.sensorFault .ambient)
    refine ⟨s.withBlocks (({ s.toBlocks with blc := { s.blc with ambient := .stale } } : Blocks).sensorFault .ambient), ?_,
      brimmed.own, brimmed.wrap, brimmed.log, brimmed.flags, brimmed.length, fun j x found => ?_, ?_, step.kept⟩
    · rw [exec_ambientLost, s.whilePowered_on _ on, Blocks.whenDue_due _ (s.blc.ambientFrom + 500) _ due]
      exact congrArg Host.Outcome.next (congrArg s.withBlocks (if_neg known))
    · refine (brimmed.monitors j x found).trans ?_
      rw [frozenAs_offer b found]
    · obtain ⟨mem, summary, log, monitors, gen, own⟩ := step.fields
      have counted : gen = s.gens.monitor + 2 := by
        have counted := brimmed.gen
        rwa [own] at counted
      unfold Blocks.sensorFault
      show s.withBlocks (({ s.toBlocks with blc := { s.blc with ambient := .stale } } : Blocks).withFront (s.toFront.makeRecord (.sensorFault .ambient))) = _
      rw [own, counted]
      rfl

end Sys2Proof.Machine
end

section
/-! PROOF. The sweep (R160, R161, R167, R168). -/

namespace Sys2Proof.Machine

open Sys2Proof.Safety

/-! ## A re-read that finds nothing new -/

/-- With the host's index already taken over and nothing missed a re-read changes nothing (R148). -/
theorem Front.reReadIndex_current {f : Front} (accounted : LogAccounted f.log) (none_missed : f.log.missed = 0)
    (current : BitVec.ofNat 32 (readField f.mem 0x0C 4) = f.log.effRead) : f.reReadIndex = f := by
  have same : f.reRead = f := by
    unfold Front.reRead effectiveRead
    rw [current]
    dsimp only
    rw [if_pos accounted.1]
  rw [f.reReadIndex_eq, same]
  cases f.log.full
  · exact if_pos none_missed
  · rfl

/-! ## A scan -/

theorem Blocks.scanSlot_passes {x : Blocks} {i : Fin 32} (passes : x.toFront.posted i = true → x.toFront.flying i = true) : x.scanSlot i = x := by
  unfold Blocks.scanSlot
  cases posted : x.toFront.posted i
  · rfl
  · rw [passes posted]
    rfl

theorem Blocks.scan_passes {x : Blocks} {l : List (Fin 32)} (passes : ∀ i ∈ l, x.toFront.posted i = true → x.toFront.flying i = true) :
    l.foldl Blocks.scanSlot x = x := by
  induction l with
  | nil => rfl
  | cons i l ih =>
    rw [List.foldl_cons, Blocks.scanSlot_passes (passes i (List.mem_cons_self ..))]
    exact ih fun j mem => passes j (List.mem_cons_of_mem _ mem)

theorem Blocks.sweep_current {x : Blocks} (read : x.toFront.reReadIndex = x.toFront) :
    x.sweep = if x.exchangeEnable then (scanOrder x.lastSlot).foldl Blocks.scanSlot x else x := by
  unfold Blocks.sweep
  dsimp only
  rw [read]
  rfl

theorem Blocks.sweep_idle {x : Blocks} (read : x.toFront.reReadIndex = x.toFront)
    (idle : (∀ i, x.toFront.posted i = true → x.toFront.flying i = true) ∨ x.exchangeEnable = false) : x.sweep = x := by
  rw [Blocks.sweep_current read]
  split
  case isTrue on =>
    obtain passes | off := idle
    · exact Blocks.scan_passes fun i _ => passes i
    · exact absurd on (Bool.eq_false_iff.mp off)
  case isFalse => rfl

/-! ## An UNKNOWN_REQUEST is taken -/

/-- The posting of a slot as its bytes stand. -/
def Front.posting (f : Front) (i : Fin 32) : Posting := postingOf (f.copyOf i)

/-- The host's side once an UNKNOWN_REQUEST has been taken from slot `i`. -/
def Front.unknownTaken (f : Front) (i : Fin 32) (m : Mem) : Front :=
  { f with mem := m, lastSlot := i, summary := doneSummary f.summary (f.posting i) }

theorem Blocks.takeSlot_unknown {x : Blocks} {i : Fin 32} (free : x.toFront.flying i = false) (none_due : x.due = noCauses)
    (charger : ChargerSettled x.toPower) (kind : readByte x.mem (slotAt i + 1) = 0) :
    ∃ m, x.takeSlot i = x.withFront (x.toFront.unknownTaken i m) ∧ keepsOutside [slotRange i] x.mem m
      ∧ answered m (x.toFront.posting i) 0 .unknownRequest false [] := by
  have request : x.toFront.requestIn i = .unknown 0 := by
    unfold Front.requestIn
    rw [kind]
    rfl
  obtain ⟨shape, kept, result⟩ := Front.entry_complete (f := x.toFront) (g := x.toFront.markTaken i) (e := x.toFront.copyOf i) free rfl
    (.plain .unknownRequest)
  have marks : keepsOutside [slotRange i] x.mem (x.toFront.markTaken i).mem :=
    keepsOutside_writeBytes _ _ [2] (slotRange i) (List.mem_singleton.mpr rfl) (Nat.le_refl _) (by simp [slotRange])
  rw [show (x.toFront.copyOf i).kind = 0 from kind] at result
  refine ⟨_, ?_, keepsOutside_trans marks kept, result⟩
  have own : x.takeSlot i = (x.withFront (x.toFront.unknownTaken i ((x.toFront.markTaken i).complete i (.plain .unknownRequest)).mem)).settled x := by
    unfold Blocks.takeSlot
    rw [request, Blocks.runEvent_eq]
    refine congrArg (fun z => Blocks.settled z x) ?_
    show x.withFront ((x.toFront.markTaken i).complete i (.plain .unknownRequest)) = _
    exact congrArg x.withFront shape
  rw [own]
  exact Blocks.settled_of_same none_due charger rfl (energyChanged_of_same rfl rfl rfl rfl fun _ => rfl)

/-- Another slot's bytes stand. -/
theorem slotBytes_kept {i j : Fin 32} (other : j ≠ i) {m n : Mem} (kept : keepsOutside [slotRange i] m n) {a k : Nat} (inside : a + k ≤ 64) :
    readBytes n (slotAt j + a) k = readBytes m (slotAt j + a) k := by
  refine readBytes_of_keepsOutside kept _ _ fun r mem => ?_
  obtain rfl := List.mem_singleton.mp mem
  have apart : j.val ≠ i.val := fun same => other (Fin.ext same)
  simp only [slotRange, slotAt]
  omega

theorem slotByte_kept {i j : Fin 32} (other : j ≠ i) {m n : Mem} (kept : keepsOutside [slotRange i] m n) {a : Nat} (inside : a < 64) :
    readByte n (slotAt j + a) = readByte m (slotAt j + a) :=
  List.singleton_inj.mp (slotBytes_kept other kept (a := a) (k := 1) inside)

/-- A slot that is answered is no longer POSTED. -/
theorem posted_answered {f : Front} {p : Posting} {kind : Byte} {code : ResultCode} {clamped : Bool} {data : List Byte}
    (result : answered f.mem p kind code clamped data) : f.posted p.slot = false := by
  have state : readByte f.mem (slotAt p.slot) = 3 := by
    have head := congrArg List.head? result.1
    exact Option.some.inj head
  unfold Front.posted
  rw [state]
  rfl

theorem answered_kept {i : Fin 32} {p : Posting} (other : p.slot ≠ i) {m n : Mem} (kept : keepsOutside [slotRange i] m n) {kind : Byte} {code : ResultCode}
    {clamped : Bool} {data : List Byte} (result : answered m p kind code clamped data) : answered n p kind code clamped data :=
  ⟨(slotBytes_kept other kept (a := 0) (k := 8) (by decide)).trans result.1,
    (slotBytes_kept other kept (a := 48) (k := 12) (by decide)).trans result.2⟩

/-! ## One and two waiting UNKNOWN_REQUESTs -/

/-- A part whose slot `i` holds an UNKNOWN_REQUEST that can be taken. -/
structure Blocks.Waits (x : Blocks) (i : Fin 32) : Prop where
  posted : x.toFront.posted i = true
  free : x.toFront.flying i = false
  kind : readByte x.mem (slotAt i + 1) = 0

theorem Blocks.Waits.kept {x : Blocks} {i j : Fin 32} {m : Mem} (other : j ≠ i) (waits : x.Waits j) (kept : keepsOutside [slotRange i] x.mem m) :
    (x.withFront (x.toFront.unknownTaken i m)).Waits j ∧ (x.withFront (x.toFront.unknownTaken i m)).toFront.posting j = x.toFront.posting j := by
  have byte {a : Nat} (inside : a < 64) : readByte m (slotAt j + a) = readByte x.mem (slotAt j + a) := slotByte_kept other kept inside
  refine ⟨⟨?_, waits.free, (byte (by decide)).trans waits.kind⟩, ?_⟩
  · have posted := waits.posted
    unfold Front.posted at posted ⊢
    rw [show readByte (x.withFront (x.toFront.unknownTaken i m)).mem (slotAt j) = readByte x.mem (slotAt j) from byte (a := 0) (by decide)]
    exact posted
  · show (⟨j, (readByte m (slotAt j + 2)).getLsbD 0, readByte m (slotAt j + 5) ++ readByte m (slotAt j + 4)⟩ : Posting) = _
    rw [byte (by decide), byte (by decide), byte (by decide)]
    rfl

theorem Blocks.scan_one {x : Blocks} {i : Fin 32} (waits : x.Waits i) (none_due : x.due = noCauses) (charger : ChargerSettled x.toPower)
    {l : List (Fin 32)} (mem : i ∈ l) (alone : ∀ j, x.toFront.posted j = true → j = i ∨ x.toFront.flying j = true) :
    ∃ m, l.foldl Blocks.scanSlot x = x.withFront (x.toFront.unknownTaken i m) ∧ keepsOutside [slotRange i] x.mem m
      ∧ answered m (x.toFront.posting i) 0 .unknownRequest false [] := by
  obtain ⟨m, take, kept, result⟩ := Blocks.takeSlot_unknown waits.free none_due charger waits.kind
  obtain ⟨l₁, l₂, rfl, absent⟩ := List.eq_append_cons_of_mem mem
  refine ⟨m, ?_, kept, result⟩
  have slot : x.scanSlot i = x.takeSlot i := if_pos (by rw [waits.posted, waits.free]; rfl)
  rw [List.foldl_append, List.foldl_cons, Blocks.scan_passes fun j there posted => (alone j posted).resolve_left fun same => absent (same ▸ there), slot, take]
  refine Blocks.scan_passes fun j _ posted => ?_
  by_cases same : j = i
  · subst same
    exact absurd posted (Bool.eq_false_iff.mp (posted_answered (f := x.toFront.unknownTaken j m) result))
  · refine (alone j ?_).resolve_left same
    unfold Front.posted at posted ⊢
    rwa [show readByte (x.withFront (x.toFront.unknownTaken i m)).mem (slotAt j) = readByte x.mem (slotAt j) from
      slotByte_kept same kept (a := 0) (by decide)] at posted

/-- A slot stands in the scan at its rank and nowhere else (R160). -/
theorem rank_of_scanOrder {last k : Fin 32} {n : Nat} (there : (scanOrder last)[n]? = some k) : n = (k.val + 31 - last.val) % 32 := by
  unfold scanOrder at there
  rw [List.getElem?_map] at there
  obtain ⟨c, found, is⟩ := Option.map_eq_some_iff.mp there
  obtain ⟨inside, value⟩ := List.getElem?_eq_some_iff.mp found
  rw [List.getElem_finRange] at value
  have few : n < 32 := by simpa using inside
  have rank : c.val = n := by rw [← value]; rfl
  have sum := congrArg Fin.val is
  simp only [Fin.val_add] at sum
  have := last.isLt
  have one : (1 : Fin 32).val = 1 := rfl
  omega

theorem scanOrder_rank (last i : Fin 32) : (scanOrder last)[(i.val + 31 - last.val) % 32]? = some i := by
  have inside : (i.val + 31 - last.val) % 32 < 32 := Nat.mod_lt _ (by decide)
  unfold scanOrder
  rw [List.getElem?_map, List.getElem?_eq_getElem (by simpa using inside), List.getElem_finRange, Option.map_some]
  refine congrArg some (Fin.ext ?_)
  simp only [Fin.val_add, Fin.val_cast]
  have := last.isLt
  have := i.isLt
  simp
  omega

theorem Blocks.scan_two {x : Blocks} {i j : Fin 32} (first : x.Waits i) (second : x.Waits j) (none_due : x.due = noCauses)
    (charger : ChargerSettled x.toPower) (alone : ∀ n, x.toFront.posted n = true → n = i ∨ n = j ∨ x.toFront.flying n = true)
    (order : (i.val + 31 - x.lastSlot.val) % 32 < (j.val + 31 - x.lastSlot.val) % 32) :
    ∃ m m', (scanOrder x.lastSlot).foldl Blocks.scanSlot x = x.withFront ((x.toFront.unknownTaken i m).unknownTaken j m')
      ∧ keepsOutside [slotRange i, slotRange j] x.mem m' ∧ answered m' (x.toFront.posting i) 0 .unknownRequest false []
      ∧ answered m' (x.toFront.posting j) 0 .unknownRequest false []
      ∧ (x.toFront.unknownTaken i m).posting j = x.toFront.posting j := by
  obtain ⟨l, is⟩ : ∃ l, l = scanOrder x.lastSlot := ⟨_, rfl⟩
  obtain ⟨a, rank⟩ : ∃ a, a = (i.val + 31 - x.lastSlot.val) % 32 := ⟨_, rfl⟩
  have place : l[a]? = some i := by rw [is, rank]; exact scanOrder_rank _ _
  have other : j ≠ i := fun same => by rw [same] at order; exact Nat.lt_irrefl _ order
  obtain ⟨inside, at_⟩ := List.getElem?_eq_some_iff.mp place
  have split : l = l.take a ++ i :: l.drop (a + 1) := by
    rw [← at_, ← List.drop_eq_getElem_cons inside, List.take_append_drop]
  have before : ∀ n ∈ l.take a, x.toFront.posted n = true → x.toFront.flying n = true := fun n mem posted => by
    obtain ⟨k, found⟩ := List.mem_iff_getElem?.mp mem
    have early : k < a := by
      have := (List.getElem?_eq_some_iff.mp found).1
      rw [List.length_take] at this
      omega
    rw [List.getElem?_take_of_lt early, is] at found
    have own := rank_of_scanOrder found
    obtain rfl | rfl | flying := alone n posted
    · omega
    · omega
    · exact flying
  have later : j ∈ l.drop (a + 1) := by
    refine List.mem_iff_getElem?.mpr ⟨(j.val + 31 - x.lastSlot.val) % 32 - (a + 1), ?_⟩
    rw [List.getElem?_drop, show a + 1 + ((j.val + 31 - x.lastSlot.val) % 32 - (a + 1)) = (j.val + 31 - x.lastSlot.val) % 32 by omega, is]
    exact scanOrder_rank _ _
  obtain ⟨m, take, kept, result⟩ := Blocks.takeSlot_unknown first.free none_due charger first.kind
  obtain ⟨waits, posting⟩ := second.kept other kept
  have alone' : ∀ n, (x.toFront.unknownTaken i m).posted n = true → n = j ∨ x.toFront.flying n = true := fun n posted => by
    by_cases same : n = i
    · subst same
      exact absurd posted (Bool.eq_false_iff.mp (posted_answered (f := x.toFront.unknownTaken n m) result))
    · refine (alone n ?_).resolve_left same
      unfold Front.posted at posted ⊢
      rwa [show readByte (x.toFront.unknownTaken i m).mem (slotAt n) = readByte x.mem (slotAt n) from slotByte_kept same kept (a := 0) (by decide)] at posted
  obtain ⟨m', scan, kept', result'⟩ := Blocks.scan_one waits none_due charger later alone'
  refine ⟨m, m', ?_, keepsOutside_trans (keepsOutside_mono kept (by simp)) (keepsOutside_mono kept' (by simp)),
    answered_kept other.symm kept' result, posting ▸ result', posting⟩
  have slot : x.scanSlot i = x.takeSlot i := if_pos (by rw [first.posted, first.free]; rfl)
  rw [← is, split, List.foldl_append, List.foldl_cons, Blocks.scan_passes before, slot, take, scan]
  rfl

/-- Settles O40. -/
theorem sweepsTakeWhatIsPosted : Obligations.SweepsTakeWhatIsPosted := by
  refine ⟨fun s on driven accounted none_missed current => ?_, fun i s ready charger accounted none_missed current enabled posted alone free kind => ?_,
    fun i j s ready charger accounted none_missed current enabled posted posted' alone free free' kind kind' order => ?_⟩
  · have read : s.toFront.reReadIndex = s.toFront := Front.reReadIndex_current accounted none_missed current
    have enabling (b : Bool) : s.withBlocks (s.toBlocks.withFront { s.toFront with exchangeEnable := b }) = { s with exchangeEnable := b } := by
      unfold PinsDriven at driven
      rw [on, if_pos rfl] at driven
      show ({ s with exchangeEnable := b, pins := derivePins s.toBlocks } : State) = _
      rw [← driven]
    refine ⟨fun idle => ?_, fun idle => ?_, ?_, fun idle due => ?_⟩
    · rw [exec_attentionRequests]
      exact s.whilePowered_still on driven (Blocks.sweep_idle read idle)
    · rw [exec_exchangeEnable, s.whilePowered_on _ on, ← enabling true]
      refine congrArg Host.Outcome.next (congrArg s.withBlocks ?_)
      unfold Blocks.writeEnable Blocks.quiet
      dsimp only
      rw [Blocks.sweep_idle (x := s.toBlocks.withFront { s.toFront with exchangeEnable := true })
        (Front.reReadIndex_current (f := { s.toFront with exchangeEnable := true }) accounted none_missed current) (.inl idle)]
      exact ite_self _
    · rw [exec_exchangeEnable, s.whilePowered_on _ on, ← enabling false]
      rfl
    · rw [exec_sweepTimer, s.whilePowered_on _ on, Blocks.whenDue_due _ _ _ due,
        Blocks.sweep_idle (x := s.toBlocks.withTimers { s.timers with sweep := s.timers.sweep + 20 }) read idle]
      exact congrArg Host.Outcome.next (State.withBlocks_beside on driven _ _)
  · intro p
    obtain ⟨m, scan, kept, result⟩ := Blocks.scan_one (x := s.toBlocks) ⟨posted, free, kind⟩ ready.2 charger
      (List.mem_of_getElem? (scanOrder_rank s.lastSlot i)) alone
    refine ⟨s.withBlocks (s.toBlocks.withFront (s.toFront.unknownTaken i m)), ?_, result, rfl, rfl, kept⟩
    rw [exec_attentionRequests, s.whilePowered_on _ ready.1, Blocks.sweep_current (Front.reReadIndex_current accounted none_missed current), if_pos enabled, scan]
  · intro p q
    obtain ⟨m, m', scan, kept, result, result', posting⟩ := Blocks.scan_two (x := s.toBlocks) ⟨posted, free, kind⟩ ⟨posted', free', kind'⟩ ready.2 charger
      alone order
    refine ⟨s.withBlocks (s.toBlocks.withFront ((s.toFront.unknownTaken i m).unknownTaken j m')), ?_, result, result', rfl, ?_, kept⟩
    · rw [exec_attentionRequests, s.whilePowered_on _ ready.1, Blocks.sweep_current (Front.reReadIndex_current accounted none_missed current), if_pos enabled,
        scan]
    · have summary : ((s.toFront.unknownTaken i m).unknownTaken j m').summary = doneSummary (doneSummary s.summary p) q := by
        show doneSummary (doneSummary s.summary (s.toFront.posting i)) ((s.toFront.unknownTaken i m).posting j) = _
        rw [posting]
        rfl
      rw [← summary]
      rfl

end Sys2Proof.Machine
end

section
/-! PROOF. The exchange restart whose HOLD pass adopts a monitor (R76, R138, R170). -/

namespace Sys2Proof.Machine

open Sys2Proof.Safety Sys2Proof.Tests

/-- A monitor that is not enabled, its pending configuration counting PASS_AMBIENT with alert on wrap from the last count. -/
def aboutToWrap : Monitor := { powerOnMonitor with pending := some ⟨⟨.passAmbient, 0, 0, false, true, true, .none⟩, some 0xFFFFFFFF⟩ }

/-- One SOFTWARE hold, on the latch of an EMPTY bay, and monitor 0 about to wrap once its configuration is adopted. -/
def restartBeforeAdoption : State := { latched .latchB base with monitors := base.monitors.set 0 aboutToWrap }

/-- Steps 5 and 6, the free value of log entry 3 given. -/
def Front.restartRegistersAs (survive : Bool) (f : Front) : Front :=
  let h := (({ f with
    summary := flagBit .restart, summaryEnable := 0, exchangeEnable := false, restartCount := f.restartCount + 1 } : Front).write 0x04
      (leBytes 4 (f.restartCount + 1).toNat)).makeRecord (.restart true (f.restartCount + 1))
  if survive then h else { h with summary := flagBit .restart }

theorem Front.restartRegisters_as (f : Front) : f.restartRegisters = f.restartRegistersAs Config.restartRecordFlagsSurvive := rfl

/-- The pass adopts the configuration, its PASS_AMBIENT event wraps the count, and the MONITOR_WRAP record stands where the RESTART record was to stand. -/
theorem restartBeforeAdoption_wraps (survive : Bool) : readByte
    (restartBeforeAdoption.toBlocks.runEvent Blocks.restartJobs (Front.restartRegistersAs survive)).mem (logEntryAt 1) = 11 := by
  cases survive <;> decide +kernel

/-- Refutes O41: with a SOFTWARE hold lifted and no monitor enabled, the HOLD pass adopts a pending configuration first (R138); the pass's own event then
wraps that monitor, and its MONITOR_WRAP record takes the place of the RESTART record. -/
theorem not_exchangeRestartClearsTheHostSide : ¬ Obligations.ExchangeRestartClearsTheHostSide := by
  unfold Obligations.ExchangeRestartClearsTheHostSide
  intro h
  have soft : ∃ e, some e ∈ restartBeforeAdoption.hld.entries ∧ e.holder = .software :=
    ⟨⟨.software, .latchB, 500, 0, some 3000⟩, by decide +kernel, rfl⟩
  have no_release : ∀ b r, (restartBeforeAdoption.bay b).state ≠ .releaseWait r := fun b r => by cases b <;> nofun
  have off : monitorsOff restartBeforeAdoption := fun m mem => by
    have all : ∀ m ∈ restartBeforeAdoption.monitors, m.config.enable = false := by decide +kernel
    exact all m mem
  obtain ⟨t, next, outcome⟩ := h (.exchangeRestart true) restartBeforeAdoption ⟨rfl, rfl⟩ (.inl ⟨true, rfl⟩) rfl
    (fun b unlocked => by cases b <;> exact absurd unlocked (by decide +kernel)) (fun b r waits => absurd waits (no_release b r))
    (fun b r waits => absurd waits (no_release b r))
  obtain ⟨-, -, -, -, -, -, -, -, -, -, -, -, -, -, -, -, -, -, logged, -⟩ := outcome
  have own : t.mem = (restartBeforeAdoption.toBlocks.runEvent Blocks.restartJobs (Front.restartRegistersAs Config.restartRecordFlagsSurvive)).mem := by
    rw [exec_exchangeRestart, restartBeforeAdoption.whilePowered_on _ rfl] at next
    rw [← (funext Front.restartRegisters_as : Front.restartRegisters = Front.restartRegistersAs Config.restartRecordFlagsSurvive)]
    exact congrArg (fun u : State => u.mem) (Host.Outcome.next.inj next).symm
  have restart := logged (.inr ⟨off, rfl⟩)
  unfold Logged at restart
  rw [if_neg (by decide +kernel)] at restart
  have code := congrArg List.head? restart.1
  have wraps : readByte t.mem (logEntryAt 1) = 11 := by rw [own]; exact restartBeforeAdoption_wraps _
  have first : readByte t.mem (logEntryAt 1) = 1 := Option.some.inj code
  rw [wraps] at first
  exact absurd first (by decide)

end Sys2Proof.Machine
end

section
/-! PROOF. Power-on reset: every field and every byte (R147, R156, R175). -/

namespace Sys2Proof.Machine

open Sys2Proof.Safety

/-! ## The fields -/

theorem powerOn_pins (a b : Bool) :
    derivePins (powerOnBlocks a b) = ⟨false, false, false, true, true, .off, .off, ⟨false, false, false⟩, none, none⟩ := by
  cases a <;> cases b <;> decide +kernel

/-- The pages at generation 2, the RESTART(POWER_ON) record in the log, SUMMARY with RESTART alone; the rest as Table 11-3 gives it. -/
theorem powerOn_front (a b : Bool) : (powerOnBlocks a b).toFront = { (powerOnRecords a b).toFront with
    mem := (powerOnBlocks a b).mem, summary := 0x80, gens := ⟨2, 2, 2, 2, 2, 2⟩, log := ⟨1, 0, 0⟩ } := by
  cases a <;> cases b <;> decide +kernel

theorem powerOn_eq (a b : Bool) : powerOnBlocks a b = (powerOnRecords a b).withFront { (powerOnRecords a b).toFront with
    mem := (powerOnBlocks a b).mem, summary := 0x80, gens := ⟨2, 2, 2, 2, 2, 2⟩, log := ⟨1, 0, 0⟩ } :=
  congrArg (powerOnRecords a b).withFront (powerOn_front a b)

/-! ## The area as it was before any block publishes -/

theorem initialMem_rest {x : Nat} (beyond : 4 ≤ x) : readByte initialMem x = restByte x := by
  unfold initialMem
  rw [readByte_writeBytes_outside _ _ _ _ (.inr (by simpa using beyond))]
  rfl

/-! ## The pages, in order -/

/-- What a page shows of the blocks (Tables 10-9 to 10-13). -/
def pageBody (s : Blocks) : PageId → List Byte
  | .energy => energyPage s
  | .light => lightPage s
  | .motion => motionPage s.mot
  | .monitor => monitorPage s.monitors
  | .mirror => mirrorPage s.hld
  | .time => timePage s.tmb

/-- The pages in the order in which a reset publishes them. -/
def pagesInOrder : List PageId := [.energy, .light, .motion, .monitor, .mirror, .time]

theorem pages_apart {g h : PageId} (other : h ≠ g) : g.offset + 256 ≤ h.offset ∨ h.offset + 256 ≤ g.offset := by
  cases g <;> cases h <;> simp [PageId.offset] at other ⊢

/-- Pages published in turn write those pages alone. -/
theorem publishAll_kept (body : PageId → List Byte) (gs : List PageId) (f : Front) :
    keepsOutside (gs.map pageRange) f.mem (gs.foldl (fun f g => f.publish g (body g)) f).mem := by
  induction gs generalizing f with
  | nil => exact keepsOutside_refl _ _
  | cons g gs ih =>
    refine keepsOutside_trans (keepsOutside_mono (f.publish_frame g (body g)).1 (by simp)) (keepsOutside_mono (ih (f.publish g (body g))) ?_)
    exact fun r mem => List.mem_cons_of_mem _ mem

/-- Pages published in turn, each once, each read as they were published. -/
theorem publishAll_reads (body : PageId → List Byte) {gs : List PageId} {g : PageId} (once : gs.Nodup) (mem : g ∈ gs) (f : Front) :
    readBytes (gs.foldl (fun f g => f.publish g (body g)) f).mem g.offset 256 = padTo 256 (leBytes 4 (f.gens.get g + 2).toNat ++ body g) := by
  induction gs generalizing f with
  | nil => cases mem
  | cons h gs ih =>
    obtain ⟨absent, once'⟩ := List.nodup_cons.mp once
    obtain rfl | later := List.mem_cons.mp mem
    · refine Eq.trans ?_ (f.publish_frame g (body g)).2.2
      refine readBytes_of_keepsOutside (publishAll_kept body gs _) _ _ fun r range => ?_
      obtain ⟨k, there, rfl⟩ := List.mem_map.mp range
      exact pages_apart fun same => absent (same ▸ there)
    · refine (ih once' later (f.publish h (body h))).trans ?_
      rw [Front.publish_gens, Generations.get_set_other _ _ h g fun same => absent (same ▸ later)]

/-! ## The area -/

/-- The host's side with every page published. -/
def powerOnPages (s : Blocks) : Front := pagesInOrder.foldl (fun f g => f.publish g (pageBody s g)) s.toFront

theorem powerOnFront_eq (s : Blocks) : powerOnFront s = (powerOnPages s).putTrace s.trc := rfl

theorem powerOnFront_log (a b : Bool) : (powerOnFront (powerOnRecords a b)).log = ⟨0, 0, 0⟩ := rfl

/-- The first record of a log. -/
theorem Front.writeRecord_first {f : Front} (first : f.log = ⟨0, 0, 0⟩) (r : LogRecord) :
    readBytes (f.writeRecord r).mem 0x1000 64 = r.bytes 0 f.tmb ∧ readBytes (f.writeRecord r).mem 0x08 4 = [1, 0, 0, 0]
    ∧ keepsOutside [indexRange, (0x1000, 0x1040)] f.mem (f.writeRecord r).mem := by
  obtain ⟨-, entry, index, kept⟩ := f.writeRecord_entry r
  rw [first] at entry index kept
  exact ⟨entry, index, kept⟩

/-- The area after the reset: the pages, the trace header, then the RESTART record. -/
theorem powerOn_mem (a b : Bool) : (powerOnBlocks a b).mem = ((powerOnFront (powerOnRecords a b)).writeRecord (.restart false 0)).mem := by
  have off : (powerOnFront (powerOnRecords a b)).unwatched := fun m mem => by
    rw [List.eq_of_mem_replicate (show m ∈ List.replicate 8 powerOnMonitor from mem)]
    rfl
  have room : (powerOnFront (powerOnRecords a b)).log.full = false := by
    rw [powerOnFront_log]
    decide
  show ((powerOnFront (powerOnRecords a b)).makeRecord (.restart false 0)).mem = _
  rw [Front.makeRecord_unwatched off, Front.append_of_room _ _ room]

section Area

variable (a b : Bool)

/-- The record and the header leave the pages. -/
theorem powerOn_beyondPages : keepsOutside [indexRange, (0x1000, 0x1040), (0x2000, 0x2040)] (powerOnPages (powerOnRecords a b)).mem (powerOnBlocks a b).mem := by
  obtain ⟨-, -, record⟩ := Front.writeRecord_first (powerOnFront_log a b) (.restart false 0)
  have header : keepsOutside [(0x2000, 0x2040)] (powerOnPages (powerOnRecords a b)).mem (powerOnFront (powerOnRecords a b)).mem := by
    rw [powerOnFront_eq]
    exact Front.putTrace_keepsOutside _ _
  rw [powerOn_mem]
  exact keepsOutside_trans (keepsOutside_mono header (by simp)) (keepsOutside_mono record (by simp))

/-- Outside these ranges a reset leaves the area as before any block publishes. -/
theorem powerOn_rest {x : Nat} (beyond : 12 ≤ x) (pages : x < 0x0200 ∨ 0x0800 ≤ x) (log : x < 0x1000 ∨ 0x1040 ≤ x) (header : x < 0x2000 ∨ 0x2040 ≤ x) :
    readByte (powerOnBlocks a b).mem x = restByte x := by
  have later := powerOn_beyondPages a b x fun r mem => by
    simp only [List.mem_cons, List.not_mem_nil, or_false] at mem
    obtain rfl | rfl | rfl := mem <;> simp only [Range.holds, indexRange] <;> omega
  have before := publishAll_kept (pageBody (powerOnRecords a b)) pagesInOrder (powerOnRecords a b).toFront x fun r mem => by
    obtain ⟨g, -, rfl⟩ := List.mem_map.mp mem
    have below := pageOffset_le g
    have above : 0x0200 ≤ g.offset := by cases g <;> simp [PageId.offset]
    simp only [Range.holds, pageRange]
    omega
  exact (later.trans before).trans (initialMem_rest (by omega))

theorem powerOn_page (g : PageId) : readBytes (powerOnBlocks a b).mem g.offset 256 = padTo 256 ([2, 0, 0, 0] ++ pageBody (powerOnRecords a b) g) := by
  refine (readBytes_of_keepsOutside (powerOn_beyondPages a b) _ _ ?_).trans ?_
  · intro r mem
    have below := pageOffset_le g
    have above : 0x0200 ≤ g.offset := by cases g <;> simp [PageId.offset]
    simp only [List.mem_cons, List.not_mem_nil, or_false] at mem
    obtain rfl | rfl | rfl := mem <;> simp only [indexRange] <;> omega
  · refine (publishAll_reads (pageBody (powerOnRecords a b)) (by decide) (show g ∈ pagesInOrder by cases g <;> decide) _).trans ?_
    rw [show (powerOnRecords a b).toFront.gens.get g = 0 by cases g <;> rfl]
    rfl

theorem powerOn_entry : readBytes (powerOnBlocks a b).mem 0x1000 64 = padTo 64 [1] := by
  obtain ⟨entry, -⟩ := Front.writeRecord_first (powerOnFront_log a b) (.restart false 0)
  rw [powerOn_mem]
  refine entry.trans ?_
  show (LogRecord.restart false 0).bytes 0 powerOnTime = _
  decide

/-- The trace header as it was put. -/
theorem powerOn_trace : readBytes (powerOnBlocks a b).mem 0x2000 64 = traceHeader powerOnTrace := by
  obtain ⟨-, -, record⟩ := Front.writeRecord_first (powerOnFront_log a b) (.restart false 0)
  rw [powerOn_mem]
  refine (readBytes_of_keepsOutside record _ _ (by simp [indexRange])).trans ?_
  rw [powerOnFront_eq]
  exact Front.putTrace_header _ _

theorem readBytes_rest {m : Mem} {x n : Nat} (low : x + n ≤ 0x2000) (rest : ∀ y, x ≤ y → y < x + n → readByte m y = restByte y) :
    readBytes m x n = zeros n := by
  induction n generalizing x with
  | zero => rfl
  | succ n ih =>
    rw [readBytes_succ, rest x (Nat.le_refl _) (by omega), ih (by omega) fun y lo hi => rest y (by omega) (by omega)]
    unfold restByte
    rw [if_neg (by omega)]
    rfl

theorem powerOn_header : readBytes (powerOnBlocks a b).mem 0 128 = padTo 128 [1, 0, 1, 0, 0, 0, 0, 0, 1, 0, 0, 0] := by
  obtain ⟨-, index, -⟩ := Front.writeRecord_first (powerOnFront_log a b) (.restart false 0)
  rw [← powerOn_mem] at index
  have first : readBytes (powerOnBlocks a b).mem 0 8 = [1, 0, 1, 0, 0, 0, 0, 0] := by
    refine (readBytes_of_keepsOutside (powerOn_beyondPages a b) _ _ (by simp [indexRange])).trans ?_
    refine (readBytes_of_keepsOutside (publishAll_kept (pageBody (powerOnRecords a b)) pagesInOrder (powerOnRecords a b).toFront) _ _ ?_).trans ?_
    · simp [pagesInOrder, pageRange, PageId.offset]
    · show readBytes initialMem 0 8 = _
      decide
  have rest : readBytes (powerOnBlocks a b).mem 12 116 = zeros 116 :=
    readBytes_rest (by omega) fun y lo hi => powerOn_rest a b lo (by omega) (by omega) (by omega)
  show readBytes (powerOnBlocks a b).mem 0 (8 + (4 + 116)) = _
  rw [readBytes_add, readBytes_add, first]
  show [1, 0, 1, 0, 0, 0, 0, 0] ++ (readBytes (powerOnBlocks a b).mem 0x08 4 ++ readBytes (powerOnBlocks a b).mem 12 116) = _
  rw [index, rest]
  decide

theorem powerOn_zero {x : Nat} (low : 12 ≤ x) (pages : x < 0x0200 ∨ 0x0800 ≤ x) (log : x < 0x1000 ∨ 0x1040 ≤ x) (below : x < 0x2000) :
    readByte (powerOnBlocks a b).mem x = 0 := by
  rw [powerOn_rest a b low pages log (.inl below)]
  unfold restByte
  exact if_neg (by omega)

/-- A trace entry reads as no data. -/
theorem powerOn_traceEntry {n : Nat} (inside : n < 1016) : readBytes (powerOnBlocks a b).mem (traceEntryAt n) 8 = [0, 0, 0, 0, 0, 0, 0xFF, 0xFF] := by
  have byte (i : Nat) (small : i < 8) : readByte (powerOnBlocks a b).mem (traceEntryAt n + i) = if 6 ≤ i then 0xFF else 0 := by
    have beyond : 0x2040 ≤ traceEntryAt n + i := by unfold traceEntryAt; omega
    rw [powerOn_rest a b (by omega) (by omega) (by omega) (.inr beyond)]
    unfold restByte
    have size : Config.areaSize = 16384 := rfl
    refine if_congr ?_ rfl rfl
    unfold traceEntryAt
    omega
  simp only [readBytes_succ, readBytes_zero, Nat.add_assoc]
  rw [show readByte (powerOnBlocks a b).mem (traceEntryAt n) = 0 from byte 0 (by decide), byte 1 (by decide), byte (1 + 1) (by decide), byte (1 + (1 + 1)) (by decide),
    byte (1 + (1 + (1 + 1))) (by decide), byte (1 + (1 + (1 + (1 + 1)))) (by decide), byte (1 + (1 + (1 + (1 + (1 + 1))))) (by decide),
    byte (1 + (1 + (1 + (1 + (1 + (1 + 1)))))) (by decide)]
  rfl

/-- The pages show the blocks as the reset leaves them. -/
theorem powerOn_body (g : PageId) : pageBody (powerOnRecords a b) g = pageBody (powerOnBlocks a b) g := by
  rw [powerOn_eq]
  cases g <;> rfl

end Area

/-- Settles O3. -/
theorem powerOnResetStartsAfresh : Obligations.PowerOnResetStartsAfresh := by
  intro a b
  have page (g : PageId) : readBytes (powerOnBlocks a b).mem g.offset 256 = padTo 256 ([2, 0, 0, 0] ++ pageBody (powerOnBlocks a b) g) := by
    rw [powerOn_page, powerOn_body]
  refine ⟨powerOnBlocks a b, fun s => ?_, ?_, powerOn_header a b, fun x lo hi => powerOn_zero a b (by omega) (by omega) (by omega) (by omega),
    page .energy, page .light, page .motion, page .monitor, page .mirror, page .time,
    fun x lo hi => powerOn_zero a b (by omega) (by omega) (by omega) (by omega), powerOn_entry a b,
    fun x lo hi => powerOn_zero a b (by omega) (by omega) (by omega) (by omega), ?_, fun n inside => powerOn_traceEntry a b inside⟩
  · rw [← powerOn_pins a b]
    rfl
  · exact (powerOn_eq a b).trans rfl
  · rw [show (powerOnBlocks a b).trc = powerOnTrace from (congrArg Front.trc (powerOn_front a b) :)]
    exact powerOn_trace a b

end Sys2Proof.Machine
end
